-- ==== Sys2Proof/Word.lean ====
section
/-! DEFINITION. The word and byte types, and the sorted sparse maps that memory and the large tables of the machine are held in. -/

namespace Sys2Proof

/-- A 64-bit word: scalar registers, staging registers, addresses and special registers (R60). -/
abbrev Word := BitVec 64

/-- One byte of memory. -/
abbrev Byte := BitVec 8

/-- A table with Nat keys, as a list of pairs whose keys rise strictly. -/
abbrev SMap (α : Type) := List (Nat × α)

/-- The entry a key has, or none. -/
def SMap.get? {α : Type} : SMap α → Nat → Option α
  | [], _ => none
  | (k, v) :: m, a => if k = a then some v else SMap.get? m a

/-- Put an entry, keeping the keys strictly rising. -/
def SMap.put {α : Type} : SMap α → Nat → α → SMap α
  | [], a, x => [(a, x)]
  | (k, v) :: m, a, x =>
    if a < k then (a, x) :: (k, v) :: m
    else if a = k then (a, x) :: m
    else (k, v) :: SMap.put m a x

/-- Take an entry out. -/
def SMap.del {α : Type} : SMap α → Nat → SMap α
  | [], _ => []
  | (k, v) :: m, a => if k = a then m else (k, v) :: SMap.del m a

/-- The keys rise strictly from the bound on. -/
def SMap.risesFrom {α : Type} : Nat → SMap α → Bool
  | _, [] => true
  | lo, (k, _) :: m => decide (lo ≤ k) && SMap.risesFrom (k + 1) m

end Sys2Proof
end

