-- ==== Sys2Proof/Records.lean ====
section
/-! DEFINITION. The records that travel between the agents of the device: slots, guards, range entries, queue entries, packets, launch records, patch slots and the like, and what the outside world hands in with an event. -/

namespace Sys2Proof

/-- The eight slots of a bundle (Table 1-1, R8). -/
inductive Slot where
  | br | sc | ar | ve | mx | cp | sp | sy
  deriving DecidableEq, Repr

/-- The slot's number in the bundle (Table 1-1). -/
def Slot.idx : Slot → Nat
  | .br => 0 | .sc => 1 | .ar => 2 | .ve => 3 | .mx => 4 | .cp => 5 | .sp => 6 | .sy => 7

/-- The slots in commit order (R28). -/
def Slot.all : List Slot := [.br, .sc, .ar, .ve, .mx, .cp, .sp, .sy]

/-- Guard field and N bit of a slot word (Table 3-1). -/
structure Guard where
  p : BitVec 4
  n : BitVec 1
  deriving DecidableEq, Repr

/-- The unguarded header (R15). -/
def Guard.always : Guard := ⟨0, 0⟩

/-- Where a slipped operation waits (R24), and the unfilled stream loads that R202 abandons in the same way. -/
inductive Lane where
  | sc | ar | ve
  | stream (z : BitVec 3)
  deriving DecidableEq, Repr

/-- A range entry (Table 16-2). -/
structure RangeEntry where
  base   : Nat
  limit  : Nat
  offset : Word
  valid  : Bool
  tr     : Bool
  tw     : Bool
  tx     : Bool
  dev    : Bool
  lock   : Bool
  key    : Nat
  res0   : Bool        -- a res0 bit of the entry as written is set
  deriving DecidableEq, Repr

/-- A context record (Table 16-1). -/
structure CtxRecord where
  ctx    : Nat
  tenant : Nat
  ptroot : Nat
  dtbase : Nat
  stbase : Nat
  cbbase : Nat
  prbase : Nat
  cgbase : Nat
  fmask  : Word
  keys   : BitVec 64
  tpk    : List Byte
  res0   : Bool        -- a res0 bit of the record as written is set
  deriving DecidableEq, Repr

/-- A queue table entry as written (Table 15-1). -/
structure QueueEntry where
  ring   : Nat
  donea  : Nat
  erra   : Nat
  pool   : Nat
  ctx    : Nat
  prio   : Nat
  weight : Nat
  slice  : Nat
  clamp  : Bool
  en     : Bool
  res0   : Bool        -- a res0 bit of the entry as written is set
  deriving DecidableEq, Repr

/-- A packet (Table 15-2). -/
structure Packet where
  type : Nat
  fc   : Nat
  ser  : Bool
  seq  : Nat
  deps : List (Nat × Nat)   -- valid dependences: queue, sequence number
  arg  : Nat
  amt  : Nat
  res0 : Bool
  deriving DecidableEq, Repr

/-- A level entry of a launch record (Table 13-2). -/
structure Level where
  extent : Nat
  domain : Nat
  mscope : Nat
  spread : Bool
  deriving DecidableEq, Repr

/-- A launch record (Table 13-1); res0 says that a res0 bit, or an entry at or beyond NLEV, is not zero. -/
structure LaunchRecord where
  rver   : Nat
  nlev   : Nat
  fuse   : Bool
  flev   : Nat
  entry  : Nat
  image  : Nat
  part   : Word
  dla    : Nat
  skew   : Nat
  args   : List Word
  levels : List Level
  res0   : Bool
  deriving DecidableEq, Repr

/-- The four registers of a patch slot that a set loads (Tables 23-1 to 23-4). -/
structure PatchSlot where
  n      : Nat
  sfmatch : BitVec 64
  sfcond  : BitVec 64
  sfact   : BitVec 64
  sftmpl  : BitVec 64
  deriving DecidableEq, Repr

/-- A patch set: its slots and its emulation store of bundles of eight words (R347, R360). -/
structure PatchSet where
  slots : List PatchSlot
  emu   : List (List (BitVec 32))
  meas  : List Byte
  load  : Nat               -- number of its load since the boot, which tells two loads of one image apart (R362)
  deriving DecidableEq, Repr

/-- The tag and die of a mailbox command (Table 17-2). -/
structure Mb where
  die : BitVec 2
  tag : BitVec 16
  deriving DecidableEq, Repr

/-- A ranked atomic of another task of the scope, as its boundary brings it (R117). The key is the rank of its task,
highest level first, and its place in program order. -/
structure ForeignRanked where
  rank : Nat
  pos  : Nat
  op   : Nat
  addr : Nat
  sb   : Word
  cmp  : Word
  deriving DecidableEq, Repr

/-- What the other tasks of a scope bring to a boundary: phased writes by home address in the order in which they stand
(R217), and ranked atomics (R117). -/
structure BoundaryEnv where
  writes : List Host.Cell
  ranked : List ForeignRanked
  deriving DecidableEq, Repr

/-- What the world outside the core decides about one engine command: attempts of a cpk that a corrupted read spoils
(R175), the answer of the remote side of a cpr (R178), an uncorrectable error in engine storage (R162), a residue
mismatch at a drain (R379). -/
structure EngineEnv where
  corrupt : Nat
  remote  : Option (List Byte)
  error   : Bool
  residue : Bool
  deriving DecidableEq, Repr

/-- Nothing unusual happens. -/
def EngineEnv.quiet : EngineEnv := ⟨0, none, false, false⟩

/-- The contribution of one member to a collective: its index, source format, anchor of its destination, the codes of its whole
source in order, and the source's extents (R334, R335). -/
structure Contribution where
  member : Nat
  fmt    : Nat
  anchor : BitVec 10
  codes  : List Nat
  ext    : List Nat
  deriving DecidableEq, Repr

/-- A register as a debug request names it (R327). -/
inductive DebugReg where
  | s (r : BitVec 6)
  | p (r : BitVec 4)
  | h (r : BitVec 5)
  | stg (e : BitVec 2) (i : BitVec 3)
  | sp (code : BitVec 10)
  | tag                      -- the tag of the bkpt that halted the task (R94)
  deriving DecidableEq, Repr

/-- A debug grant (R327): the context, the monitor's nonce, the rights, and the tenant's signature over them. -/
structure DebugGrant where
  ctx    : Nat
  nonce  : Word
  rights : Nat
  sig    : List Byte
  deriving DecidableEq, Repr

/-- The host range of a context (R326). -/
structure HostRange where
  base  : Nat
  limit : Nat
  tr    : Bool
  tw    : Bool
  deriving DecidableEq, Repr

/-- The transport header of a scale-out packet (Table 17-4), and where the message writes, which no field of it says (log 108). -/
structure TransportHeader where
  tver   : Nat
  ttype  : Nat
  tflags : BitVec 16
  conn   : Nat
  psn    : Nat
  ackpsn : Nat
  msgid  : Nat
  offset : Nat
  dest   : Option Word
  deriving DecidableEq, Repr

/-- Is the packet the last of its message; does it echo congestion (Table 17-4)? The other flags are res0, and nothing reads
them. -/
def TransportHeader.last (h : TransportHeader) : Bool := h.tflags.getLsbD 0
def TransportHeader.congestion (h : TransportHeader) : Bool := h.tflags.getLsbD 1

/-- A report of one switch at boot (R401): its plane, the port at which it sees the package, and its pod number. -/
structure SwitchReport where
  plane : BitVec 6
  port : Nat
  pod  : Nat
  deriving DecidableEq, Repr

end Sys2Proof
end

