-- ==== Sys2Proof/Syntax.lean ====
section
/-! DEFINITION. The instructions: one constructor for each row of spec/opcode_table.json, slot words first (with guard and fields as the table names them: rs for s, im for i), then the events that have no word. -/

namespace Sys2Proof

/-- The rows of the opcode table. -/
inductive Instr where
  /-- The br-slot no-operation, which carries the bundle's stall count ST in bits [19:16]. (R61) -/
  | nop (g : Guard) (t : BitVec 4)
  /-- The no-operation of every slot other than br; all of its bits [19:0] are res0. (R61) -/
  | nopSlot (k : Slot) (g : Guard)
  /-- Branches to the bundle at A + 32 × offset, with no delay slot. (R81) -/
  | b (g : Guard) (o : BitVec 20)
  /-- Branches to the 64-bit address held in sa. (R81) -/
  | jmp (g : Guard) (t : BitVec 4) (a : BitVec 6)
  /-- Branches to A + 32 × offset and writes the link A + 32 into s47 with latency 1. (R81) -/
  | call (g : Guard) (o : BitVec 20)
  /-- Returns to the address in sa, which is s47 when no operand is written. (R81) -/
  | ret (g : Guard) (t : BitVec 4) (a : BitVec 6)
  /-- Opens a counted hardware loop without rotation or pre-emption marking, taking N from the count register. (R83) -/
  | loop (g : Guard) (rs : BitVec 6) (l : BitVec 12)
  /-- Opens a rotating hardware loop with N + E trips and sets p8 := (N > 0). (R83) -/
  | loopRot (g : Guard) (rs : BitVec 6) (l : BitVec 12)
  /-- Opens a counted hardware loop that is marked pre-emptible. (R88) -/
  | loopPre (g : Guard) (rs : BitVec 6) (l : BitVec 12)
  /-- Opens a rotating hardware loop that is marked pre-emptible. (R88) -/
  | loopRotPre (g : Guard) (rs : BitVec 6) (l : BitVec 12)
  /-- Ends the innermost active loop, without its end-of-trip step, once its bundle has completed. (R87) -/
  | lbrk (g : Guard) (t : BitVec 4)
  /-- A safe point; when a pre-emption request is pending, the context is saved after this bundle. (R93) -/
  | pmark (g : Guard) (t : BitVec 4)
  /-- Makes predicate pd true. (R89) -/
  | pset (g : Guard) (t : BitVec 4) (d : BitVec 4)
  /-- Makes predicate pd false. (R89) -/
  | pclr (g : Guard) (t : BitVec 4) (d : BitVec 4)
  /-- Writes pa AND pb into pd. (R89) -/
  | pand (g : Guard) (t : BitVec 4) (d : BitVec 4) (a : BitVec 4) (b : BitVec 4)
  /-- Writes pa OR pb into pd. (R89) -/
  | por (g : Guard) (t : BitVec 4) (d : BitVec 4) (a : BitVec 4) (b : BitVec 4)
  /-- Writes pa XOR pb into pd. (R89) -/
  | pxor (g : Guard) (t : BitVec 4) (d : BitVec 4) (a : BitVec 4) (b : BitVec 4)
  /-- Writes NOT pa into pd. (R89) -/
  | pnot (g : Guard) (t : BitVec 4) (d : BitVec 4) (a : BitVec 4)
  /-- Halts fetch once its bundle has completed, so that the task can retire. (R90) -/
  | endTask (g : Guard) (t : BitVec 4)
  /-- Raises software trap (cause 0x00) at slot 0, with the code in tval. (R91) -/
  | trap (g : Guard) (t : BitVec 4) (c : BitVec 8)
  /-- Leaves the trap handler and re-enters the bundle at tpc from slot RESUME, using psnap and the undo list. (R92) -/
  | rett (g : Guard) (t : BitVec 4)
  /-- Opens a speculation on predicate p by checkpointing register state and holding later stores until p resolves. (R96) -/
  | spec (g : Guard) (p : BitVec 4) (o : BitVec 16)
  /-- Aborts the active speculation as a false predicate would. (R98) -/
  | specx (g : Guard) (t : BitVec 4)
  /-- Releases a fused row so that each core fetches alone. (R100) -/
  | dcpl (g : Guard) (t : BitVec 4)
  /-- Waits for every core of a released row and fuses the row again when all next addresses match. (R100) -/
  | rjn (g : Guard) (t : BitVec 4)
  /-- Copies a special register that has no read behaviour of its own into s, with latency 2. (R101) -/
  | sread (g : Guard) (t : BitVec 4) (d : BitVec 6) (c : BitVec 10)
  /-- Reads watermark wm(t) after interlocking until every earlier ar operation on tile t has completed. (R131) -/
  | sreadWm (g : Guard) (t : BitVec 4) (d : BitVec 6) (w : BitVec 3)
  /-- Reads a sticky record after every earlier operation of that slot has entered its flags. (R376) -/
  | sreadSrec (g : Guard) (t : BitVec 4) (d : BitVec 6) (r : BitVec 3)
  /-- Reads sat14 or sat15 after interlocking until every earlier command on that channel has completed. (R173) -/
  | sreadSat (g : Guard) (t : BitVec 4) (d : BitVec 6) (x : BitVec 1)
  /-- Writes s into a special register that has no row of its own; writes to RO registers are ignored. (R101) -/
  | swrite (g : Guard) (t : BitVec 4) (rs : BitVec 6) (c : BitVec 10)
  /-- Writes tstat; changing RESUME outside a handler, RESUME above 8, or a set res0 bit raises a cause. (R31) -/
  | swriteTstat (g : Guard) (t : BitVec 4) (rs : BitVec 6)
  /-- Writes tpc; raises cause 0xC0 outside a task trap handler. (R101) -/
  | swriteTpc (g : Guard) (t : BitVec 4) (rs : BitVec 6)
  /-- Writes isav; raises cause 0xC0 outside a task trap handler. (R101) -/
  | swriteIsav (g : Guard) (t : BitVec 4) (rs : BitVec 6)
  /-- Writes a whole sticky record; a set res0 bit raises cause 0x11. (R375) -/
  | swriteSrec (g : Guard) (t : BitVec 4) (rs : BitVec 6) (r : BitVec 3)
  /-- Writes a watermark register, with HIT write-1-to-clear; a set res0 bit raises cause 0x11. (R131) -/
  | swriteWm (g : Guard) (t : BitVec 4) (rs : BitVec 6) (w : BitVec 3)
  /-- Writes the truncation tolerance; a res0 bit, a NaN, an infinity or a negative TOL raises cause 0x11. (R147) -/
  | swriteMtol (g : Guard) (t : BitVec 4) (rs : BitVec 6)
  /-- Writes lstat.RPOS; a change while DEPTH > 0 raises cause 0x03, and a res0 bit raises cause 0x11. (R88) -/
  | swriteLstat (g : Guard) (t : BitVec 4) (rs : BitVec 6)
  /-- Writes saturation counter sat14 or sat15; a set res0 bit raises cause 0x11. (R173) -/
  | swriteSat (g : Guard) (t : BitVec 4) (rs : BitVec 6) (x : BitVec 1)
  /-- Halts for debug before its bundle commits when breakpoints are enabled, and is otherwise a nop. (R94) -/
  | bkpt (g : Guard) (t : BitVec 4) (k : BitVec 16)
  /-- sd := sa + sb. (R102) -/
  | add (g : Guard) (d : BitVec 6) (a : BitVec 6) (b : BitVec 6)
  /-- sd := sa − sb. (R102) -/
  | sub (g : Guard) (d : BitVec 6) (a : BitVec 6) (b : BitVec 6)
  /-- sd := low 64 bits of sa × sb. (R102) -/
  | mul (g : Guard) (d : BitVec 6) (a : BitVec 6) (b : BitVec 6)
  /-- sd := high 64 bits of the signed 128-bit product. (R102) -/
  | mulh (g : Guard) (d : BitVec 6) (a : BitVec 6) (b : BitVec 6)
  /-- sd := high 64 bits of the unsigned 128-bit product. (R102) -/
  | mulhz (g : Guard) (d : BitVec 6) (a : BitVec 6) (b : BitVec 6)
  /-- sd := signed quotient rounded toward zero. (R102) -/
  | div (g : Guard) (d : BitVec 6) (a : BitVec 6) (b : BitVec 6)
  /-- sd := unsigned quotient. (R102) -/
  | divz (g : Guard) (d : BitVec 6) (a : BitVec 6) (b : BitVec 6)
  /-- sd := signed remainder, taking the sign of sa. (R102) -/
  | rem (g : Guard) (d : BitVec 6) (a : BitVec 6) (b : BitVec 6)
  /-- sd := unsigned remainder. (R102) -/
  | remz (g : Guard) (d : BitVec 6) (a : BitVec 6) (b : BitVec 6)
  /-- sd := sa AND sb. (R102) -/
  | and (g : Guard) (d : BitVec 6) (a : BitVec 6) (b : BitVec 6)
  /-- sd := sa OR sb. (R102) -/
  | or (g : Guard) (d : BitVec 6) (a : BitVec 6) (b : BitVec 6)
  /-- sd := sa XOR sb. (R102) -/
  | xor (g : Guard) (d : BitVec 6) (a : BitVec 6) (b : BitVec 6)
  /-- sd := sa AND NOT sb. (R102) -/
  | andn (g : Guard) (d : BitVec 6) (a : BitVec 6) (b : BitVec 6)
  /-- sd := sa shifted left by sb[5:0]. (R102) -/
  | shl (g : Guard) (d : BitVec 6) (a : BitVec 6) (b : BitVec 6)
  /-- sd := sa shifted right logically by sb[5:0]. (R102) -/
  | shr (g : Guard) (d : BitVec 6) (a : BitVec 6) (b : BitVec 6)
  /-- sd := sa shifted right arithmetically by sb[5:0]. (R102) -/
  | sar (g : Guard) (d : BitVec 6) (a : BitVec 6) (b : BitVec 6)
  /-- sd := sa rotated left by sb[5:0]. (R102) -/
  | rol (g : Guard) (d : BitVec 6) (a : BitVec 6) (b : BitVec 6)
  /-- sd := the signed lesser of sa and sb. (R102) -/
  | min (g : Guard) (d : BitVec 6) (a : BitVec 6) (b : BitVec 6)
  /-- sd := the signed greater of sa and sb. (R102) -/
  | max (g : Guard) (d : BitVec 6) (a : BitVec 6) (b : BitVec 6)
  /-- sd := the unsigned lesser of sa and sb. (R102) -/
  | minz (g : Guard) (d : BitVec 6) (a : BitVec 6) (b : BitVec 6)
  /-- sd := the unsigned greater of sa and sb. (R102) -/
  | maxz (g : Guard) (d : BitVec 6) (a : BitVec 6) (b : BitVec 6)
  /-- sd := number of leading zeros of sa. (R102) -/
  | clz (g : Guard) (d : BitVec 6) (a : BitVec 6)
  /-- sd := number of trailing zeros of sa. (R102) -/
  | ctz (g : Guard) (d : BitVec 6) (a : BitVec 6)
  /-- sd := number of set bits of sa. (R102) -/
  | popc (g : Guard) (d : BitVec 6) (a : BitVec 6)
  /-- sd := sa if pc is true, else sb (registers s0–s31 only). (R102) -/
  | sel (g : Guard) (p : BitVec 4) (d : BitVec 5) (a : BitVec 5) (b : BitVec 5)
  /-- sd := sa + sext(imm8). (R103) -/
  | addi (g : Guard) (d : BitVec 6) (a : BitVec 6) (im : BitVec 8)
  /-- sd := sa AND sext(imm8). (R103) -/
  | andi (g : Guard) (d : BitVec 6) (a : BitVec 6) (im : BitVec 8)
  /-- sd := sa OR sext(imm8). (R103) -/
  | ori (g : Guard) (d : BitVec 6) (a : BitVec 6) (im : BitVec 8)
  /-- sd := sa XOR sext(imm8). (R103) -/
  | xori (g : Guard) (d : BitVec 6) (a : BitVec 6) (im : BitVec 8)
  /-- sd := sa shifted left by the immediate amount. (R103) -/
  | shli (g : Guard) (d : BitVec 6) (a : BitVec 6) (im : BitVec 6)
  /-- sd := sa shifted right logically by the immediate amount. (R103) -/
  | shri (g : Guard) (d : BitVec 6) (a : BitVec 6) (im : BitVec 6)
  /-- sd := sa shifted right arithmetically by the immediate amount. (R103) -/
  | sari (g : Guard) (d : BitVec 6) (a : BitVec 6) (im : BitVec 6)
  /-- sd := sext(imm14). (R104) -/
  | li (g : Guard) (d : BitVec 6) (im : BitVec 14)
  /-- sd := (sd << 14) OR imm14. (R104) -/
  | lih (g : Guard) (d : BitVec 6) (im : BitVec 14)
  /-- pd := (sa cc sb) for condition code cc. (R105) -/
  | cmp (g : Guard) (p : BitVec 4) (c : BitVec 4) (a : BitVec 6) (b : BitVec 6)
  /-- pd := (sa cc sext(imm7)) for condition code cc. (R105) -/
  | cmpi (g : Guard) (p : BitVec 4) (c : BitVec 3) (a : BitVec 6) (im : BitVec 7)
  /-- Loads a sign-extended byte from sa + off into sd. (R106) -/
  | ldB (g : Guard) (d : BitVec 6) (a : BitVec 6) (k : BitVec 2) (o : BitVec 6)
  /-- Loads a zero-extended byte from sa + off into sd. (R106) -/
  | ldBz (g : Guard) (d : BitVec 6) (a : BitVec 6) (k : BitVec 2) (o : BitVec 6)
  /-- Loads a sign-extended halfword from sa + 2 × off into sd. (R106) -/
  | ldH (g : Guard) (d : BitVec 6) (a : BitVec 6) (k : BitVec 2) (o : BitVec 6)
  /-- Loads a zero-extended halfword from sa + 2 × off into sd. (R106) -/
  | ldHz (g : Guard) (d : BitVec 6) (a : BitVec 6) (k : BitVec 2) (o : BitVec 6)
  /-- Loads a sign-extended word from sa + 4 × off into sd. (R106) -/
  | ldW (g : Guard) (d : BitVec 6) (a : BitVec 6) (k : BitVec 2) (o : BitVec 6)
  /-- Loads a zero-extended word from sa + 4 × off into sd. (R106) -/
  | ldWz (g : Guard) (d : BitVec 6) (a : BitVec 6) (k : BitVec 2) (o : BitVec 6)
  /-- Loads a doubleword into sd; from the stream window it removes the oldest buffered stream element (R202). (R106) -/
  | ldD (g : Guard) (d : BitVec 6) (a : BitVec 6) (k : BitVec 2) (o : BitVec 6)
  /-- Stores the low byte of sd at sa + off. (R106) -/
  | stB (g : Guard) (d : BitVec 6) (a : BitVec 6) (k : BitVec 2) (o : BitVec 6)
  /-- Stores the low halfword of sd at sa + 2 × off. (R106) -/
  | stH (g : Guard) (d : BitVec 6) (a : BitVec 6) (k : BitVec 2) (o : BitVec 6)
  /-- Stores the low word of sd at sa + 4 × off. (R106) -/
  | stW (g : Guard) (d : BitVec 6) (a : BitVec 6) (k : BitVec 2) (o : BitVec 6)
  /-- Stores sd at sa + 8 × off. (R106) -/
  | stD (g : Guard) (d : BitVec 6) (a : BitVec 6) (k : BitVec 2) (o : BitVec 6)
  /-- Loads a 256-bit handle from sa + 32 × off into h. (R107) -/
  | ldh (g : Guard) (h : BitVec 5) (a : BitVec 6) (k : BitVec 2) (o : BitVec 7)
  /-- Stores handle h at sa + 32 × off. (R107) -/
  | sth (g : Guard) (h : BitVec 5) (a : BitVec 6) (k : BitVec 2) (o : BitVec 7)
  /-- Builds handle h from descriptor entry s[11:0] of the context. (R108) -/
  | hmk (g : Guard) (h : BitVec 5) (rs : BitVec 6)
  /-- Writes the low bits of s into the selected field of handle h. (R108) -/
  | hset (g : Guard) (h : BitVec 5) (rs : BitVec 6) (f : BitVec 4)
  /-- Writes the selected field of handle h, zero-extended, into s. (R108) -/
  | hget (g : Guard) (h : BitVec 5) (rs : BitVec 6) (f : BitVec 4)
  /-- Writes sa into a staging register of a queued engine, with latency 1. (R109) -/
  | stg (g : Guard) (e : BitVec 2) (im : BitVec 3) (a : BitVec 6)
  /-- sd := rng_f(sa, sb), the counter-based generator, with latency 2. (R118) -/
  | rng (g : Guard) (d : BitVec 6) (a : BitVec 6) (b : BitVec 6)
  /-- Converts an FP32 or a signed 64-bit integer source to the format fmt, with the selected rounding mode. (R111) -/
  | cvt (g : Guard) (d : BitVec 6) (a : BitVec 6) (f : BitVec 5) (m : BitVec 2) (x : BitVec 1)
  /-- sd := rne(sa + sb) in FP32. (R110) -/
  | faddS (g : Guard) (d : BitVec 6) (a : BitVec 6) (b : BitVec 6)
  /-- sd := rne(sa × sb) in FP32. (R110) -/
  | fmulS (g : Guard) (d : BitVec 6) (a : BitVec 6) (b : BitVec 6)
  /-- sd := rne(sa × sb + sd) in FP32, with one rounding. (R110) -/
  | ffmaS (g : Guard) (d : BitVec 6) (a : BitVec 6) (b : BitVec 6)
  /-- pd := the FP32 comparison of sa and sb under condition code cc. (R110) -/
  | fcmp (g : Guard) (p : BitVec 4) (c : BitVec 4) (a : BitVec 6) (b : BitVec 6)
  /-- Atomically adds sb to the word at sa and returns the old word. (R112) -/
  | amoAdd (g : Guard) (d : BitVec 6) (a : BitVec 6) (b : BitVec 6) (k : BitVec 2)
  /-- Atomically ANDs sb into the word at sa and returns the old word. (R112) -/
  | amoAnd (g : Guard) (d : BitVec 6) (a : BitVec 6) (b : BitVec 6) (k : BitVec 2)
  /-- Atomically ORs sb into the word at sa and returns the old word. (R112) -/
  | amoOr (g : Guard) (d : BitVec 6) (a : BitVec 6) (b : BitVec 6) (k : BitVec 2)
  /-- Atomically XORs sb into the word at sa and returns the old word. (R112) -/
  | amoXor (g : Guard) (d : BitVec 6) (a : BitVec 6) (b : BitVec 6) (k : BitVec 2)
  /-- Atomically writes the signed maximum of the word and sb, and returns the old word. (R112) -/
  | amoMax (g : Guard) (d : BitVec 6) (a : BitVec 6) (b : BitVec 6) (k : BitVec 2)
  /-- Atomically writes the signed minimum of the word and sb, and returns the old word. (R112) -/
  | amoMin (g : Guard) (d : BitVec 6) (a : BitVec 6) (b : BitVec 6) (k : BitVec 2)
  /-- Atomically exchanges sb with the word at sa. (R112) -/
  | amoXchg (g : Guard) (d : BitVec 6) (a : BitVec 6) (b : BitVec 6) (k : BitVec 2)
  /-- Atomically writes sb when the old word equals sd, and returns the old word. (R112) -/
  | amoCas (g : Guard) (d : BitVec 6) (a : BitVec 6) (b : BitVec 6) (k : BitVec 2)
  /-- Atomically increments the word when old <u sb, and returns old in every case. (R113) -/
  | amob (g : Guard) (d : BitVec 6) (a : BitVec 6) (b : BitVec 6) (k : BitVec 2)
  /-- Ranked atomic add, applied at the task's next phase boundary in rank order. (R117) -/
  | amoAddR (g : Guard) (d : BitVec 6) (a : BitVec 6) (b : BitVec 6) (k : BitVec 2)
  /-- Ranked atomic AND, applied at the next phase boundary. (R117) -/
  | amoAndR (g : Guard) (d : BitVec 6) (a : BitVec 6) (b : BitVec 6) (k : BitVec 2)
  /-- Ranked atomic OR, applied at the next phase boundary. (R117) -/
  | amoOrR (g : Guard) (d : BitVec 6) (a : BitVec 6) (b : BitVec 6) (k : BitVec 2)
  /-- Ranked atomic XOR, applied at the next phase boundary. (R117) -/
  | amoXorR (g : Guard) (d : BitVec 6) (a : BitVec 6) (b : BitVec 6) (k : BitVec 2)
  /-- Ranked atomic signed maximum, applied at the next phase boundary. (R117) -/
  | amoMaxR (g : Guard) (d : BitVec 6) (a : BitVec 6) (b : BitVec 6) (k : BitVec 2)
  /-- Ranked atomic signed minimum, applied at the next phase boundary. (R117) -/
  | amoMinR (g : Guard) (d : BitVec 6) (a : BitVec 6) (b : BitVec 6) (k : BitVec 2)
  /-- Ranked atomic exchange, applied at the next phase boundary. (R117) -/
  | amoXchgR (g : Guard) (d : BitVec 6) (a : BitVec 6) (b : BitVec 6) (k : BitVec 2)
  /-- Ranked atomic compare-and-swap, applied at the next phase boundary. (R117) -/
  | amoCasR (g : Guard) (d : BitVec 6) (a : BitVec 6) (b : BitVec 6) (k : BitVec 2)
  /-- Ranked bounded increment, applied at the next phase boundary in rank order. (R117) -/
  | amobR (g : Guard) (d : BitVec 6) (a : BitVec 6) (b : BitVec 6) (k : BitVec 2)
  /-- Clears an accumulator row, then pushes an activation row through the active latch plane into it. (R125) -/
  | apush (g : Guard) (h : BitVec 5) (rs : BitVec 6) (l : BitVec 2) (t : BitVec 3)
  /-- Repeats the last row operation n times, at the following row offsets. (R126) -/
  | ashf (g : Guard) (b : BitVec 4)
  /-- Pushes an activation row through the active latch plane and adds it to the accumulator row. (R125) -/
  | aacc (g : Guard) (h : BitVec 5) (rs : BitVec 6) (l : BitVec 2) (t : BitVec 3)
  /-- Drains an accumulator row through fa_drain into a row of tensor h. (R130) -/
  | adrn (g : Guard) (h : BitVec 5) (rs : BitVec 6) (t : BitVec 3)
  /-- Loads the shadow plane of a latch from a weight tensor. (R123) -/
  | alds (g : Guard) (h : BitVec 5) (rs : BitVec 6) (l : BitVec 2)
  /-- Exchanges the active and shadow planes of a latch once its loads and earlier beats have finished. (R124) -/
  | aswp (g : Guard) (l : BitVec 2)
  /-- Sets the latch base LSEL. (R120) -/
  | asel (g : Guard) (l : BitVec 2)
  /-- Sets the anchor of tile t from s[9:0] and disarms its factor scale. (R128) -/
  | acfg (g : Guard) (t : BitVec 3) (rs : BitVec 6)
  /-- Sets the anchor of tile t from imm10 and disarms its factor scale. (R128) -/
  | acfgImm (g : Guard) (t : BitVec 3) (im : BitVec 10)
  /-- Zeroes every element of tile t and disarms its factor scale. (R129) -/
  | azr (g : Guard) (t : BitVec 3)
  /-- Loads a latch shadow plane from U or from Vᵀ of a matrix register, and arms or disarms the factor scale. (R132) -/
  | afac (g : Guard) (m : BitVec 4) (l : BitVec 2) (t : BitVec 3) (p : BitVec 1)
  /-- Arms watermark wm(t) with LEVEL := s[6:0]. (R131) -/
  | awm (g : Guard) (t : BitVec 3) (rs : BitVec 6)
  /-- Elementwise a + b over whole tensors. (R135) -/
  | vadd (g : Guard) (d : BitVec 5) (a : BitVec 5) (b : BitVec 5)
  /-- Elementwise a − b. (R135) -/
  | vsub (g : Guard) (d : BitVec 5) (a : BitVec 5) (b : BitVec 5)
  /-- Elementwise a × b. (R135) -/
  | vmul (g : Guard) (d : BitVec 5) (a : BitVec 5) (b : BitVec 5)
  /-- Elementwise a × b + c with one rounding. (R135) -/
  | vfma (g : Guard) (d : BitVec 5) (a : BitVec 5) (b : BitVec 5) (c : BitVec 5)
  /-- Elementwise a × b − c with one rounding. (R135) -/
  | vfms (g : Guard) (d : BitVec 5) (a : BitVec 5) (b : BitVec 5) (c : BitVec 5)
  /-- Elementwise maximum. (R135) -/
  | vmax (g : Guard) (d : BitVec 5) (a : BitVec 5) (b : BitVec 5)
  /-- Elementwise minimum. (R135) -/
  | vmin (g : Guard) (d : BitVec 5) (a : BitVec 5) (b : BitVec 5)
  /-- Elementwise absolute value. (R135) -/
  | vabs (g : Guard) (d : BitVec 5) (a : BitVec 5)
  /-- Elementwise negation. (R135) -/
  | vneg (g : Guard) (d : BitVec 5) (a : BitVec 5)
  /-- Elementwise min(max(a, b), c). (R135) -/
  | vclamp (g : Guard) (d : BitVec 5) (a : BitVec 5) (b : BitVec 5) (c : BitVec 5)
  /-- Elementwise e^x, correctly rounded. (R136) -/
  | vexp (g : Guard) (d : BitVec 5) (a : BitVec 5)
  /-- Elementwise 2^x. (R136) -/
  | vexp2 (g : Guard) (d : BitVec 5) (a : BitVec 5)
  /-- Elementwise log2 x. (R136) -/
  | vlog2 (g : Guard) (d : BitVec 5) (a : BitVec 5)
  /-- Elementwise reciprocal. (R136) -/
  | vrcp (g : Guard) (d : BitVec 5) (a : BitVec 5)
  /-- Elementwise reciprocal square root. (R136) -/
  | vrsq (g : Guard) (d : BitVec 5) (a : BitVec 5)
  /-- Elementwise square root. (R136) -/
  | vsqrt (g : Guard) (d : BitVec 5) (a : BitVec 5)
  /-- Elementwise tanh. (R136) -/
  | vtanh (g : Guard) (d : BitVec 5) (a : BitVec 5)
  /-- Elementwise logistic sigmoid. (R136) -/
  | vsigm (g : Guard) (d : BitVec 5) (a : BitVec 5)
  /-- Elementwise comparison writing 1 or 0, in the column of Table 5-4 that ha's format selects. (R137) -/
  | vcmp (g : Guard) (d : BitVec 5) (a : BitVec 5) (b : BitVec 5) (c : BitVec 4)
  /-- Elementwise b if a ≠ 0, else c. (R135) -/
  | vsel (g : Guard) (d : BitVec 5) (a : BitVec 5) (b : BitVec 5) (c : BitVec 5)
  /-- Bitwise AND of raw codes. (R138) -/
  | vand (g : Guard) (d : BitVec 5) (a : BitVec 5) (b : BitVec 5)
  /-- Bitwise OR of raw codes. (R138) -/
  | vor (g : Guard) (d : BitVec 5) (a : BitVec 5) (b : BitVec 5)
  /-- Bitwise XOR of raw codes. (R138) -/
  | vxor (g : Guard) (d : BitVec 5) (a : BitVec 5) (b : BitVec 5)
  /-- Shifts each code of ha left by hb's integer. (R138) -/
  | vshl (g : Guard) (d : BitVec 5) (a : BitVec 5) (b : BitVec 5)
  /-- Shifts each code of ha right by hb's integer, arithmetically for signed integer formats. (R138) -/
  | vshr (g : Guard) (d : BitVec 5) (a : BitVec 5) (b : BitVec 5)
  /-- Converts each element to hd's format with the selected rounding mode. (R139) -/
  | vcvt (g : Guard) (d : BitVec 5) (a : BitVec 5) (m : BitVec 2)
  /-- Quantises into hd, writing one scale per run of 32 and the scaled codes. (R139) -/
  | vqnt (g : Guard) (d : BitVec 5) (a : BitVec 5) (m : BitVec 2)
  /-- Dequantises into FP32, BF16 or FP16. (R139) -/
  | vdqnt (g : Guard) (d : BitVec 5) (a : BitVec 5)
  /-- Writes each codebook code's entry, without scales. (R139) -/
  | vcbk (g : Guard) (d : BitVec 5) (a : BitVec 5)
  /-- Exact per-row sum through FA, drained once. (R140) -/
  | vsum (g : Guard) (d : BitVec 5) (a : BitVec 5)
  /-- Per-row maximum. (R140) -/
  | vmaxr (g : Guard) (d : BitVec 5) (a : BitVec 5)
  /-- Per-row minimum. (R140) -/
  | vminr (g : Guard) (d : BitVec 5) (a : BitVec 5)
  /-- Exact prefix sums through FA. (R140) -/
  | vscan (g : Guard) (d : BitVec 5) (a : BitVec 5)
  /-- Permutes each row of ha by the indices in hb. (R141) -/
  | vperm (g : Guard) (d : BitVec 5) (a : BitVec 5) (b : BitVec 5)
  /-- Writes the FP32 value of sa[31:0] to every element. (R141) -/
  | vbcast (g : Guard) (d : BitVec 5) (a : BitVec 6)
  /-- Writes sa + i at row-major position i. (R141) -/
  | viota (g : Guard) (d : BitVec 5) (a : BitVec 6)
  /-- Per-row count of non-zero elements. (R140) -/
  | vpopc (g : Guard) (d : BitVec 5) (a : BitVec 5)
  /-- Packs the selected elements of each row to its front. (R141) -/
  | vcmpr (g : Guard) (d : BitVec 5) (a : BitVec 5) (b : BitVec 5)
  /-- Expands successive elements into the selected positions of each row. (R141) -/
  | vexpd (g : Guard) (d : BitVec 5) (a : BitVec 5) (b : BitVec 5)
  /-- Copies, or converts, each element into hd. (R135) -/
  | vmov (g : Guard) (d : BitVec 5) (a : BitVec 5)
  /-- Writes the low bits of rng_f(sa, sb + i) into each element as a raw code. (R142) -/
  | vrng (g : Guard) (d : BitVec 5) (a : BitVec 6) (b : BitVec 6)
  /-- Loads a matrix register from a memory image, reading the header at issue. (R160) -/
  | mld (g : Guard) (m : BitVec 4) (h : BitVec 5)
  /-- Stores a matrix register as a whole image. (R160) -/
  | mst (g : Guard) (m : BitVec 4) (h : BitVec 5)
  /-- Makes md the rank-0 zero tile and clears any poison mark. (R154) -/
  | mzr (g : Guard) (d : BitVec 4)
  /-- Copies ma into md. (R154) -/
  | mcpy (g : Guard) (d : BitVec 4) (a : BitVec 4)
  /-- Multiplies two tiles, recompressing a factor-form product; rank-deciding. (R156) -/
  | mmul (g : Guard) (d : BitVec 4) (a : BitVec 4) (b : BitVec 4)
  /-- Adds two tiles by concatenating factors, or densely when either source is dense. (R155) -/
  | madd (g : Guard) (d : BitVec 4) (a : BitVec 4) (b : BitVec 4)
  /-- Scales a matrix register by the FP32 value in s. (R154) -/
  | mscl (g : Guard) (m : BitVec 4) (rs : BitVec 6)
  /-- Recompresses a factor register against TOL; rank-deciding. (R157) -/
  | mrcmp (g : Guard) (d : BitVec 4) (a : BitVec 4)
  /-- Converts a register to dense BF16 form. (R154) -/
  | mdns (g : Guard) (d : BitVec 4) (a : BitVec 4)
  /-- Factorises a dense register up to rank cap; rank-deciding. (R157) -/
  | mfac (g : Guard) (d : BitVec 4) (a : BitVec 4) (c : BitVec 7)
  /-- Transposes a register. (R154) -/
  | mtrn (g : Guard) (d : BitVec 4) (a : BitVec 4)
  /-- Returns the rank of a register into s at execution. (R154) -/
  | mrnk (g : Guard) (m : BitVec 4) (rs : BitVec 6)
  /-- Returns the occupancy of a register in granules into s at execution. (R154) -/
  | mocc (g : Guard) (m : BitVec 4) (rs : BitVec 6)
  /-- Applies a factor register to activations on the mx engine, with anchors taken from mx:0. (R161) -/
  | mapl (g : Guard) (d : BitVec 5) (a : BitVec 5) (m : BitVec 4)
  /-- Copies the codes of a region, with row offsets from staging, and moves scales under R402. (R171) -/
  | cpy (g : Guard) (c : BitVec 4) (d : BitVec 5) (rs : BitVec 5)
  /-- Copies a region with transposition. (R171) -/
  | cpt (g : Guard) (c : BitVec 4) (d : BitVec 5) (rs : BitVec 5)
  /-- Quantises into a row-scaled and a column-scaled destination. (R172) -/
  | cpq (g : Guard) (c : BitVec 4) (d : BitVec 5) (rs : BitVec 5) (m : BitVec 2)
  /-- Quantises with scales that software supplies, counting saturated elements. (R173) -/
  | cpqs (g : Guard) (c : BitVec 4) (d : BitVec 5) (rs : BitVec 5) (m : BitVec 2)
  /-- Compresses a region into one bitmask-plus-values block padded to RES bytes. (R174) -/
  | cpz (g : Guard) (c : BitVec 4) (d : BitVec 5) (rs : BitVec 5)
  /-- Expands one compressed block into a region. (R174) -/
  | cpx (g : Guard) (c : BitVec 4) (d : BitVec 5) (rs : BitVec 5)
  /-- Checksummed copy into a shadow buffer, published and optionally arriving at a barrier on a CRC match. (R175) -/
  | cpk (g : Guard) (c : BitVec 4) (d : BitVec 5) (rs : BitVec 5)
  /-- Binds a stream register to a channel and streams the tensor's elements. (R176) -/
  | cpbs (g : Guard) (c : BitVec 4) (z : BitVec 3) (rs : BitVec 5)
  /-- Waits until every earlier command on channel c has completed or been dropped. (R177) -/
  | cpw (g : Guard) (c : BitVec 4)
  /-- Aborts every command on channel c at an element boundary. (R177) -/
  | cpab (g : Guard) (c : BitVec 4)
  /-- Fills every element of hd with the code in cp:0. (R171) -/
  | cpf (g : Guard) (c : BitVec 4) (d : BitVec 5)
  /-- Transfers a region to or from a pod peer or the host. (R178) -/
  | cpr (g : Guard) (c : BitVec 4) (d : BitVec 5) (rs : BitVec 5)
  /-- Gathers rows of ha selected by the index tensor hb. (R179) -/
  | gth (g : Guard) (d : BitVec 5) (a : BitVec 5) (b : BitVec 5)
  /-- Scatters rows of ha to the rows of hd that hb indexes. (R179) -/
  | sct (g : Guard) (d : BitVec 5) (a : BitVec 5) (b : BitVec 5)
  /-- Scatter-add through FA, independent of index order. (R180) -/
  | scta (g : Guard) (d : BitVec 5) (a : BitVec 5) (b : BitVec 5)
  /-- Filters the rows of ha whose mask bit is set. (R179) -/
  | flt (g : Guard) (d : BitVec 5) (a : BitVec 5) (b : BitVec 5)
  /-- Builds a bitmask of |a| > |b|. (R179) -/
  | bmk (g : Guard) (d : BitVec 5) (a : BitVec 5) (b : BitVec 5)
  /-- Counts the set bits of a mask into sd at execution. (R181) -/
  | cnt (g : Guard) (d : BitVec 6) (a : BitVec 5)
  /-- Appends the masked rows of ha to the poste restante queue. (R182) -/
  | dfr (g : Guard) (a : BitVec 5) (b : BitVec 5)
  /-- Drains the oldest entries of a poste restante path into hd and the index tensor ha. (R182) -/
  | dfd (g : Guard) (d : BitVec 5) (a : BitVec 5)
  /-- Arrives at the phase boundary of the level-L scope. (R184) -/
  | phase (g : Guard) (l : BitVec 3)
  /-- Arrives at barrier b in the scope that sy:0 names. (R186) -/
  | bara (g : Guard) (b : BitVec 6)
  /-- Waits until the generation of the task's latest arrival at barrier b completes. (R186) -/
  | barw (g : Guard) (b : BitVec 6)
  /-- Arrives at barrier b and waits for that generation to complete. (R186) -/
  | bar (g : Guard) (b : BitVec 6)
  /-- Swaps the current and shadow buffers of a tensor in one step for the scope. (R187) -/
  | pub (g : Guard) (h : BitVec 5)
  /-- Completes when earlier atomics, publishes and engine writes have taken effect. (R185) -/
  | fence (g : Guard) (l : BitVec 3)
  /-- Opens a transaction. (R188) -/
  | xbeg (g : Guard)
  /-- Commits the transaction's joined actions at one instant, or waits for its abort. (R188) -/
  | xend (g : Guard)
  /-- Aborts the open transaction. (R188) -/
  | xabt (g : Guard)
  /-- Starts an all-reduce collective on group id. (R189) -/
  | collAr (g : Guard) (im : BitVec 8)
  /-- Starts a reduce-scatter collective. (R189) -/
  | collRs (g : Guard) (im : BitVec 8)
  /-- Starts an all-gather collective. (R189) -/
  | collAg (g : Guard) (im : BitVec 8)
  /-- Starts an all-to-all collective. (R189) -/
  | collA2a (g : Guard) (im : BitVec 8)
  /-- Starts a broadcast collective. (R189) -/
  | collBc (g : Guard) (im : BitVec 8)
  /-- Waits until every earlier collective of the task on id has completed. (R189) -/
  | cwt (g : Guard) (im : BitVec 8)
  /-- Validates and plans the query block at sy:0 into plan handle n. (R266) -/
  | plan (g : Guard) (p : BitVec 10)
  /-- Executes the plan in handle n, re-planning or faulting when recorded versions changed. (R266) -/
  | pexec (g : Guard) (p : BitVec 10)
  /-- Waits until every earlier pexec of handle n has committed or failed. (R190) -/
  | pwait (g : Guard) (p : BitVec 10)
  /-- Records an operator, path or split hint for one node of the plan. (R271) -/
  | hint (g : Guard) (p : BitVec 10)
  /-- Sets PINNED on the plan. (R272) -/
  | pin (g : Guard) (p : BitVec 10)
  /-- Clears PINNED on the plan. (R272) -/
  | unpin (g : Guard) (p : BitVec 10)
  /-- Reads one word of a statistics entry into s as one immediate read. (R252) -/
  | statr (g : Guard) (d : BitVec 6) (im : BitVec 12)
  /-- Writes sy:1 into one word of a statistics entry and increments VERSION. (R252) -/
  | statw (g : Guard) (im : BitVec 12)
  /-- Adds 1 to event counter e. (R192) -/
  | evs (g : Guard) (e : BitVec 8)
  /-- Waits until event counter e reaches the threshold in sy:0. (R192) -/
  | evw (g : Guard) (e : BitVec 8)
  /-- A safe point that also counts as a pending request when equal or higher priority work waits. (R192) -/
  | yld (g : Guard)
  /-- A fixed-latency result lands in its destination; a write overtaken by a later-issued write is discarded. (R22) -/
  | resultLanding
  /-- A load, atomic or engine scalar result lands and releases the reads that interlock on it. (R20) -/
  | variableLatencyResult
  /-- A full/empty tile becomes full and the slipped operation waiting in its slip lane executes. (R24) -/
  | slipRelease (lane : Lane)
  /-- An operation waiting 1,048,576 cycles in a slip lane, or an unfilled stream load, is abandoned as a deferred fault with cause 0x50. (R27) -/
  | slipWaitTimeout (lane : Lane)
  /-- The last bundle of a loop body completes, so the trip counts, the ring rotates and fetch goes back to the body or past it. (R85) -/
  | loopEndOfTrip
  /-- Fetching a bundle raises a misaligned, translation or execute-permission fault before any slot commits. (R34) -/
  | fetchFault
  /-- Trap entry waits for in-flight results, then sets tstat, tpc, tval and isav, and enters handler mode. (R371) -/
  | trapEntry
  /-- An EMULATE claim waits for in-flight results, then runs its emulation-store sequence in place of the slot and applies its results. (R353) -/
  | emulationSequence
  /-- An emulation sequence that issues more than 4,096 bundles raises cause 0xD2 to the scheduler. (R356) -/
  | emulationOverrun
  /-- The issue-cycle count since the last pre-emption point reaches 65,537 and raises cause 0x05. (R315) -/
  | safePointDistanceExceeded
  /-- The speculation predicate lands, so the speculation commits its held stores or aborts and restores the checkpoint. (R96) -/
  | speculationResolve
  /-- A conflict, fault, overflow or interruption aborts the open transaction and discards its held actions. (R188) -/
  | transactionAbort (reason : BitVec 4)
  /-- The mx engine executes its next queued command and writes the destination register whole at completion. (R152) -/
  | mxCommandExecute (env : EngineEnv)
  /-- A copy channel executes its next queued command. (R163) -/
  | cpCommandExecute (chan : BitVec 4) (env : EngineEnv)
  /-- The sparse engine executes its next queued command. (R163) -/
  | spCommandExecute (env : EngineEnv)
  /-- The sync engine executes its next command once the one ahead of it has completed. (R163) -/
  | syCommandExecute
  /-- A queued command that has waited 1,048,576 cycles on a full/empty tile raises cause 0x50 as an execution fault. (R201) -/
  | queueFullEmptyTimeout (k : Slot) (chan : BitVec 4)
  /-- An engine finds a failure while executing, stops the command, drops the queue, writes a dead-letter record and raises the cause at the next boundary. (R165) -/
  | executionFault
  /-- A bound channel delivers the next stream element into a stream register buffer. (R202) -/
  | streamElementDelivery (z : BitVec 3)
  /-- Every task of the scope has arrived, so phased writes apply, ranked atomics apply and snapshots are taken. (R217) -/
  | phaseBoundaryComplete (env : BoundaryEnv)
  /-- Every task of the scope has arrived at a barrier, so that generation completes. (R186) -/
  | barrierGenerationComplete (b : BitVec 6)
  /-- After PERIOD, chunks owned by a member that has not issued pass to the next member that has. (R335) -/
  | collectiveOwnershipMove (id : BitVec 8) (chunk : Nat) (issued : List Nat)
  /-- An owner drains its chunk once and sends it to the members, whose destination writes are performed. (R335) -/
  | collectiveComplete (id : BitVec 8) (contribs : List Contribution) (residue : Bool)
  /-- A peer silent for longer than the group's TMO counts as lost, and every member raises cause 0x85. (R331) -/
  | memberTimeout (id : BitVec 8) (member : Nat)
  /-- A pexec is accepted once the previous execution has ended, comparing versions and slots first. (R266) -/
  | pexecAccept (n : BitVec 10)
  /-- At a break the producer records observed rows and density and sets STALE when they are out of bounds. (R268) -/
  | planBreak (n : BitVec 10)
  /-- A block's output buffers are published at one instant and STATE returns to 1. (R249) -/
  | planBlockCommit (n : BitVec 10)
  /-- A core receives slot-binding differences and activates the new plane only when the checksum matches. (R267) -/
  | bindingPlaneUpdate (diff : List Host.Cell) (checksum : Nat)
  /-- A walker resolves a translation miss, coalescing misses to the same page. (R309) -/
  | pageTableWalk (va : Word)
  /-- A host doorbell write lands in the letterbox, merges with an unread entry, or sets the overflow bit. (R279) -/
  | doorbell (ctx : BitVec 12) (die : BitVec 2) (v : Word)
  /-- The front end reads a queue's packets from its cursor until a slot does not hold the expected sequence. (R278) -/
  | frontEndRingRead (die : BitVec 2) (q : BitVec 10)
  /-- Scheduler firmware reads the oldest letterbox entry and marks it read. (R280) -/
  | letterboxRead (die : BitVec 2)
  /-- Firmware retires a letterbox entry and moves the queue's cursor. (R280) -/
  | letterboxRetire (die : BitVec 2) (q : BitVec 10)
  /-- Firmware reads and clears the letterbox overflow mask. (R280) -/
  | overflowMaskReadClear (die : BitVec 2)
  /-- Firmware writes a packet to the launch port, which accepts it or refuses it as a duplicate, a gap or busy. (R282) -/
  | launchPortWrite (die : BitVec 2) (q : BitVec 10) (pkt : Packet)
  /-- Firmware writes a refusal through the launch port, which consumes the sequence number and logs the reason. (R283) -/
  | launchPortRefusalWrite (die : BitVec 2) (q : BitVec 10) (seq : Nat) (reason : BitVec 8)
  /-- An accepted packet whose dependences and conditions hold starts: a launch is checked and placed, or an event is counted. (R286) -/
  | packetStart (die : BitVec 2) (q : BitVec 10) (seq : Nat)
  /-- A die reaches the operating point that a held launch's frequency class needs. (R287) -/
  | operatingPointReached (die : BitVec 2) (fc : BitVec 2)
  /-- The scheduler zeroes a cluster's SRAM before placing a task of another tenant there. (R320) -/
  | clusterSramZeroing (cluster : BitVec 4) (tenant : Nat)
  /-- After end, with queues empty and results landed, the task retires and frees its core. (R240) -/
  | taskRetire (die : BitVec 2) (q : BitVec 10) (seq : Nat) (t : Nat)
  /-- Every task has retired, so a final boundary applies and completion is reported. (R241) -/
  | launchComplete (die : BitVec 2) (q : BitVec 10) (seq : Nat) (env : BoundaryEnv)
  /-- A fault delivered to the scheduler ends the task and logs reason 32. (R372) -/
  | schedulerFaultDelivery (die : BitVec 2) (q : BitVec 10) (seq : Nat) (t : Nat) (cause : BitVec 8)
  /-- A running launch has held its cores for its slice, so pre-emption may be requested. (R294) -/
  | timeSliceExpiry (die : BitVec 2) (q : BitVec 10) (seq : Nat)
  /-- A class is about to miss its 1/64 share in a 100 ms window and is served ahead of higher classes. (R297) -/
  | classFloorOwed (die : BitVec 2) (prio : BitVec 3)
  /-- The scheduler requests pre-emption of every task of a launch. (R295) -/
  | preemptionRequest (die : BitVec 2) (q : BitVec 10) (seq : Nat)
  /-- At a pre-emption point, once everything in flight has landed, the task's whole context is saved. (R299) -/
  | contextSave (error : Bool)
  /-- A saved launch is placed again and its tasks are restored together. (R300) -/
  | contextRestore (die : BitVec 2) (q : BitVec 10) (seq : Nat)
  /-- The scheduler level misses its 2 ms heartbeat, halts or faults, and the monitor restarts it. (R292) -/
  | schedulerWatchdogExpiry (die : BitVec 2)
  /-- A policy plug-in call running longer than 20 µs is abandoned. (R291) -/
  | pluginCallTimeout (die : BitVec 2) (tenant : Nat)
  /-- The monitor drops cached translations and instruction-cache lines of a range and waits for accesses to leave the old mapping. (R310) -/
  | shootdown (ctx : BitVec 12) (lo : Nat) (hi : Nat)
  /-- Mailbox 0x0001 creates a context from its record after checking tables, keys and save areas. (R301) -/
  | createContext (m : Mb) (rec : CtxRecord) (ranges : List RangeEntry) (saves : List (Nat × Nat))
  /-- Mailbox 0x0002 destroys a context. (R400) -/
  | destroyContext (m : Mb) (ctx : BitVec 12)
  /-- Mailbox 0x0003 writes a range entry of a context, or refuses it. (R304) -/
  | writeRangeEntry (m : Mb) (ctx : BitVec 12) (im : BitVec 6) (e : RangeEntry)
  /-- Mailbox 0x0010 writes a submission queue's table entry. (R274) -/
  | writeQueueEntry (m : Mb) (q : BitVec 10) (e : QueueEntry)
  /-- Mailbox 0x0011 enables a queue, setting LASTSEQ to 0 and the cursor to sequence 1. (R274) -/
  | enableQueue (m : Mb) (q : BitVec 10)
  /-- Mailbox 0x0012 disables a queue and ends its unstarted accepted packets. (R284) -/
  | disableQueue (m : Mb) (q : BitVec 10)
  /-- Mailbox 0x0020 checks, maps and registers a signed image in a context, writing its presets. (R314) -/
  | admitImage (m : Mb) (ctx : BitVec 12) (va : Word) (base : Word) (pa : Nat)
  /-- Mailbox 0x0030 writes a context's feature mask, or refuses it. (R316) -/
  | writeFmask (m : Mb) (ctx : BitVec 12) (v : Word)
  /-- Mailbox 0x0031 reads and clears the masked-opcode counter. (R317) -/
  | readClearMaskedCounter (m : Mb) (ctx : BitVec 12)
  /-- Mailbox 0x0040 opens a host window onto a tenant's device memory. (R325) -/
  | openHostWindow (m : Mb) (tenant : Nat) (pa : Nat) (size : Nat) (hdm : Nat)
  /-- Mailbox 0x0041 closes a host window. (R325) -/
  | closeHostWindow (m : Mb) (w : BitVec 6)
  /-- Mailbox 0x0042 writes a host range of a context for cpr. (R326) -/
  | writeHostRange (m : Mb) (ctx : BitVec 12) (im : BitVec 3) (r : HostRange)
  /-- Mailbox 0x0050 binds a context to a job. (R328) -/
  | bindContextJob (m : Mb) (ctx : BitVec 12) (job : BitVec 32)
  /-- Mailbox 0x0051 writes a collective-group entry. (R332) -/
  | writeCollectiveGroup (m : Mb) (ctx : BitVec 12) (id : BitVec 8) (entry : List Byte)
  /-- Mailbox 0x0060 returns a signed postmark of a context. (R368) -/
  | requestPostmark (m : Mb) (ctx : BitVec 12) (nonce : List Byte) (first : Nat)
  /-- A granted debug request halts a task at a bundle boundary after in-flight results land. (R35) -/
  | debugHalt (m : Mb) (ctx : BitVec 12) (g : Option DebugGrant)
  /-- A granted debug request resumes a halted task. (R327) -/
  | debugResume (m : Mb) (ctx : BitVec 12) (g : Option DebugGrant)
  /-- A granted debug request single-steps a halted task. (R35) -/
  | debugStep (m : Mb) (ctx : BitVec 12) (g : Option DebugGrant)
  /-- A granted debug request reads a register of a halted task. (R327) -/
  | debugReadRegister (m : Mb) (ctx : BitVec 12) (g : Option DebugGrant) (r : DebugReg)
  /-- A granted debug request writes a register, updating any matching undo entry and psnap bit. (R36) -/
  | debugWriteRegister (m : Mb) (ctx : BitVec 12) (g : Option DebugGrant) (r : DebugReg) (v : BitVec 256)
  /-- A granted debug request enables bkpt for the context. (R327) -/
  | debugEnableBreakpoints (m : Mb) (ctx : BitVec 12) (g : Option DebugGrant)
  /-- A granted debug request disables bkpt for the context. (R327) -/
  | debugDisableBreakpoints (m : Mb) (ctx : BitVec 12) (g : Option DebugGrant)
  /-- Revokes the context's debug grant. (R327) -/
  | debugRevoke (m : Mb) (ctx : BitVec 12) (g : Option DebugGrant)
  /-- Mailbox 0x0080 sets the package power limit. (R338) -/
  | setPowerLimit (m : Mb) (w : Nat)
  /-- Mailbox 0x0081 moves the package between power states, refusing S2 while launches exist. (R338) -/
  | setPowerState (m : Mb) (st : BitVec 2)
  /-- Mailbox 0x0090 returns a health log record. (R386) -/
  | readHealthLog (m : Mb) (im : Word)
  /-- Mailbox 0x00A0 opens a firmware update by erasing the inactive slot. (R364) -/
  | fwOpen (m : Mb) (target : BitVec 8)
  /-- Mailbox 0x00A1 programs data into the open firmware slot. (R364) -/
  | fwWrite (m : Mb) (off : Nat) (data : List Byte)
  /-- Mailbox 0x00A2 verifies the open slot's firmware image. (R364) -/
  | fwCheck (m : Mb)
  /-- Mailbox 0x00A3 programs a new marker record that makes the checked slot active. (R364) -/
  | fwFlip (m : Mb)
  /-- Mailbox 0x00A4 verifies a patch set, programs a patch copy and flips the marker. (R364) -/
  | stagePatch (m : Mb) (addr : Nat) (len : Nat)
  /-- Mailbox 0x00A5 verifies a patch set and commits it as the current set for later tasks. (R362) -/
  | livePatch (m : Mb) (addr : Nat) (len : Nat)
  /-- Mailbox 0x00A6 returns both marker records, the set measurements and every slot's SFHIT. (R364) -/
  | fwState (m : Mb)
  /-- Mailbox 0x00A7 writes the health log and reboots the package, refused while a launch runs. (R364) -/
  | fwReset (m : Mb)
  /-- Mailbox 0x00A8 loads the empty patch set under R362. (R364) -/
  | clearLive (m : Mb)
  /-- The boot ROM verifies and runs the firmware slot, or recovery, and the monitor loads the patch set, health state and pod identity. (R366) -/
  | boot (failed : List (BitVec 8)) (reports : List SwitchReport)
  /-- An abrupt loss of power loses contexts and counts since the last health record. (R367) -/
  | powerLoss
  /-- An SPDM session sets up IDE keys, after which CXL traffic beyond configuration and mailbox is served. (R321) -/
  | ideEstablish
  /-- A host read through a host window returns stored ciphertext. (R325) -/
  | hostWindowRead (w : BitVec 6) (off : Nat) (len : Nat)
  /-- A host write through a window stores whole 64-byte blocks as given and discards partial ones. (R325) -/
  | hostWindowWrite (w : BitVec 6) (off : Nat) (data : List Byte)
  /-- A scale-up flit arrives and is retried on its link when its CRC fails. (R329) -/
  | flitReceive (plane : BitVec 6) (crcOk : Bool) (payload : List Byte)
  /-- A scale-out data packet in the window with a valid tag is written at its offset, and a message is delivered whole. (R331) -/
  | transportDataReceive (h : TransportHeader) (payload : List Byte) (tagOk : Bool)
  /-- A scale-out acknowledgment packet arrives. (R330) -/
  | transportAckReceive (h : TransportHeader) (tagOk : Bool)
  /-- A scale-out negative acknowledgment packet arrives. (R330) -/
  | transportNackReceive (h : TransportHeader) (tagOk : Bool)
  /-- A scale-out keepalive packet arrives. (R330) -/
  | transportKeepaliveReceive (h : TransportHeader) (tagOk : Bool)
  /-- The sender's doubling timeout expires and unacknowledged packets are retransmitted. (R331) -/
  | retransmitTimeout (conn : Nat)
  /-- The host link is lost, which closes host windows and fails host cpr until it is retrained. (R373) -/
  | hostLinkLost
  /-- An IDE integrity failure refuses all CXL traffic until IDE is re-established. (R373) -/
  | ideIntegrityFailure
  /-- A scale-up plane is lost and traffic moves to the remaining planes. (R373) -/
  | scaleUpPlaneLost (plane : BitVec 6)
  /-- A scale-out port is lost and its path is removed. (R373) -/
  | scaleOutPortLost (port : BitVec 5)
  /-- Junction temperature limits dies to FC3 at 100 °C and forces a shutdown to S3 at 110 °C. (R373) -/
  | overtemperature (celsius : Nat)
  /-- A failed DRAM stack loses contexts on it, sets REPLACE and clears the die's uavail. (R373) -/
  | deviceMemoryStackFailure (die : BitVec 2)
  /-- The scrubber reads memory blocks, correcting what it can and poisoning what it cannot. (R377) -/
  | scrub (addr : Nat) (correctable : Bool)
  /-- An uncorrectable error in a core's state, or a third residue mismatch, loses the core and ends its task. (R378) -/
  | coreLost (core : BitVec 8)
  /-- Every 15 minutes a periodic health record is written to flash. (R385) -/
  | healthLogPeriodic
  /-- A mailbox GO whose MBCMD opcode Table 17-3 does not list completes with STATUS 2. (R324) -/
  | unknownOpcode (m : Mb) (op : BitVec 16)
  /-- A scale-up switch plane comes up, attests with the monitor, agrees its link key, and traffic spreads over it again. (R329) -/
  | switchPlaneUp (plane : BitVec 6)
  /-- The scheduler level writes aperture registers ap0 to ap7 of a context while no task of that context runs. (R208) -/
  | apertureRegisterWrite (ctx : BitVec 12) (im : BitVec 3) (v : Word)
  deriving DecidableEq, Repr

end Sys2Proof
end

