-- ==== Sys2Proof/WellFormed.lean ====
section
/-! DEFINITION. Well-formed instructions: the terms that some word of the spec encodes (R16, R63, R65, R70, R72, R111). -/

namespace Sys2Proof

/-- The slot whose word the row is, or none for an event (Table 1-1). -/
def Instr.slot : Instr → Option Slot
  | .nop _ _ => some .br
  | .nopSlot k _ => some k
  | .b _ _ => some .br
  | .jmp _ _ _ => some .br
  | .call _ _ => some .br
  | .ret _ _ _ => some .br
  | .loop _ _ _ => some .br
  | .loopRot _ _ _ => some .br
  | .loopPre _ _ _ => some .br
  | .loopRotPre _ _ _ => some .br
  | .lbrk _ _ => some .br
  | .pmark _ _ => some .br
  | .pset _ _ _ => some .br
  | .pclr _ _ _ => some .br
  | .pand _ _ _ _ _ => some .br
  | .por _ _ _ _ _ => some .br
  | .pxor _ _ _ _ _ => some .br
  | .pnot _ _ _ _ => some .br
  | .endTask _ _ => some .br
  | .trap _ _ _ => some .br
  | .rett _ _ => some .br
  | .spec _ _ _ => some .br
  | .specx _ _ => some .br
  | .dcpl _ _ => some .br
  | .rjn _ _ => some .br
  | .sread _ _ _ _ => some .br
  | .sreadWm _ _ _ _ => some .br
  | .sreadSrec _ _ _ _ => some .br
  | .sreadSat _ _ _ _ => some .br
  | .swrite _ _ _ _ => some .br
  | .swriteTstat _ _ _ => some .br
  | .swriteTpc _ _ _ => some .br
  | .swriteIsav _ _ _ => some .br
  | .swriteSrec _ _ _ _ => some .br
  | .swriteWm _ _ _ _ => some .br
  | .swriteMtol _ _ _ => some .br
  | .swriteLstat _ _ _ => some .br
  | .swriteSat _ _ _ _ => some .br
  | .bkpt _ _ _ => some .br
  | .add _ _ _ _ => some .sc
  | .sub _ _ _ _ => some .sc
  | .mul _ _ _ _ => some .sc
  | .mulh _ _ _ _ => some .sc
  | .mulhz _ _ _ _ => some .sc
  | .div _ _ _ _ => some .sc
  | .divz _ _ _ _ => some .sc
  | .rem _ _ _ _ => some .sc
  | .remz _ _ _ _ => some .sc
  | .and _ _ _ _ => some .sc
  | .or _ _ _ _ => some .sc
  | .xor _ _ _ _ => some .sc
  | .andn _ _ _ _ => some .sc
  | .shl _ _ _ _ => some .sc
  | .shr _ _ _ _ => some .sc
  | .sar _ _ _ _ => some .sc
  | .rol _ _ _ _ => some .sc
  | .min _ _ _ _ => some .sc
  | .max _ _ _ _ => some .sc
  | .minz _ _ _ _ => some .sc
  | .maxz _ _ _ _ => some .sc
  | .clz _ _ _ => some .sc
  | .ctz _ _ _ => some .sc
  | .popc _ _ _ => some .sc
  | .sel _ _ _ _ _ => some .sc
  | .addi _ _ _ _ => some .sc
  | .andi _ _ _ _ => some .sc
  | .ori _ _ _ _ => some .sc
  | .xori _ _ _ _ => some .sc
  | .shli _ _ _ _ => some .sc
  | .shri _ _ _ _ => some .sc
  | .sari _ _ _ _ => some .sc
  | .li _ _ _ => some .sc
  | .lih _ _ _ => some .sc
  | .cmp _ _ _ _ _ => some .sc
  | .cmpi _ _ _ _ _ => some .sc
  | .ldB _ _ _ _ _ => some .sc
  | .ldBz _ _ _ _ _ => some .sc
  | .ldH _ _ _ _ _ => some .sc
  | .ldHz _ _ _ _ _ => some .sc
  | .ldW _ _ _ _ _ => some .sc
  | .ldWz _ _ _ _ _ => some .sc
  | .ldD _ _ _ _ _ => some .sc
  | .stB _ _ _ _ _ => some .sc
  | .stH _ _ _ _ _ => some .sc
  | .stW _ _ _ _ _ => some .sc
  | .stD _ _ _ _ _ => some .sc
  | .ldh _ _ _ _ _ => some .sc
  | .sth _ _ _ _ _ => some .sc
  | .hmk _ _ _ => some .sc
  | .hset _ _ _ _ => some .sc
  | .hget _ _ _ _ => some .sc
  | .stg _ _ _ _ => some .sc
  | .rng _ _ _ _ => some .sc
  | .cvt _ _ _ _ _ _ => some .sc
  | .faddS _ _ _ _ => some .sc
  | .fmulS _ _ _ _ => some .sc
  | .ffmaS _ _ _ _ => some .sc
  | .fcmp _ _ _ _ _ => some .sc
  | .amoAdd _ _ _ _ _ => some .sc
  | .amoAnd _ _ _ _ _ => some .sc
  | .amoOr _ _ _ _ _ => some .sc
  | .amoXor _ _ _ _ _ => some .sc
  | .amoMax _ _ _ _ _ => some .sc
  | .amoMin _ _ _ _ _ => some .sc
  | .amoXchg _ _ _ _ _ => some .sc
  | .amoCas _ _ _ _ _ => some .sc
  | .amob _ _ _ _ _ => some .sc
  | .amoAddR _ _ _ _ _ => some .sc
  | .amoAndR _ _ _ _ _ => some .sc
  | .amoOrR _ _ _ _ _ => some .sc
  | .amoXorR _ _ _ _ _ => some .sc
  | .amoMaxR _ _ _ _ _ => some .sc
  | .amoMinR _ _ _ _ _ => some .sc
  | .amoXchgR _ _ _ _ _ => some .sc
  | .amoCasR _ _ _ _ _ => some .sc
  | .amobR _ _ _ _ _ => some .sc
  | .apush _ _ _ _ _ => some .ar
  | .ashf _ _ => some .ar
  | .aacc _ _ _ _ _ => some .ar
  | .adrn _ _ _ _ => some .ar
  | .alds _ _ _ _ => some .ar
  | .aswp _ _ => some .ar
  | .asel _ _ => some .ar
  | .acfg _ _ _ => some .ar
  | .acfgImm _ _ _ => some .ar
  | .azr _ _ => some .ar
  | .afac _ _ _ _ _ => some .ar
  | .awm _ _ _ => some .ar
  | .vadd _ _ _ _ => some .ve
  | .vsub _ _ _ _ => some .ve
  | .vmul _ _ _ _ => some .ve
  | .vfma _ _ _ _ _ => some .ve
  | .vfms _ _ _ _ _ => some .ve
  | .vmax _ _ _ _ => some .ve
  | .vmin _ _ _ _ => some .ve
  | .vabs _ _ _ => some .ve
  | .vneg _ _ _ => some .ve
  | .vclamp _ _ _ _ _ => some .ve
  | .vexp _ _ _ => some .ve
  | .vexp2 _ _ _ => some .ve
  | .vlog2 _ _ _ => some .ve
  | .vrcp _ _ _ => some .ve
  | .vrsq _ _ _ => some .ve
  | .vsqrt _ _ _ => some .ve
  | .vtanh _ _ _ => some .ve
  | .vsigm _ _ _ => some .ve
  | .vcmp _ _ _ _ _ => some .ve
  | .vsel _ _ _ _ _ => some .ve
  | .vand _ _ _ _ => some .ve
  | .vor _ _ _ _ => some .ve
  | .vxor _ _ _ _ => some .ve
  | .vshl _ _ _ _ => some .ve
  | .vshr _ _ _ _ => some .ve
  | .vcvt _ _ _ _ => some .ve
  | .vqnt _ _ _ _ => some .ve
  | .vdqnt _ _ _ => some .ve
  | .vcbk _ _ _ => some .ve
  | .vsum _ _ _ => some .ve
  | .vmaxr _ _ _ => some .ve
  | .vminr _ _ _ => some .ve
  | .vscan _ _ _ => some .ve
  | .vperm _ _ _ _ => some .ve
  | .vbcast _ _ _ => some .ve
  | .viota _ _ _ => some .ve
  | .vpopc _ _ _ => some .ve
  | .vcmpr _ _ _ _ => some .ve
  | .vexpd _ _ _ _ => some .ve
  | .vmov _ _ _ => some .ve
  | .vrng _ _ _ _ => some .ve
  | .mld _ _ _ => some .mx
  | .mst _ _ _ => some .mx
  | .mzr _ _ => some .mx
  | .mcpy _ _ _ => some .mx
  | .mmul _ _ _ _ => some .mx
  | .madd _ _ _ _ => some .mx
  | .mscl _ _ _ => some .mx
  | .mrcmp _ _ _ => some .mx
  | .mdns _ _ _ => some .mx
  | .mfac _ _ _ _ => some .mx
  | .mtrn _ _ _ => some .mx
  | .mrnk _ _ _ => some .mx
  | .mocc _ _ _ => some .mx
  | .mapl _ _ _ _ => some .mx
  | .cpy _ _ _ _ => some .cp
  | .cpt _ _ _ _ => some .cp
  | .cpq _ _ _ _ _ => some .cp
  | .cpqs _ _ _ _ _ => some .cp
  | .cpz _ _ _ _ => some .cp
  | .cpx _ _ _ _ => some .cp
  | .cpk _ _ _ _ => some .cp
  | .cpbs _ _ _ _ => some .cp
  | .cpw _ _ => some .cp
  | .cpab _ _ => some .cp
  | .cpf _ _ _ => some .cp
  | .cpr _ _ _ _ => some .cp
  | .gth _ _ _ _ => some .sp
  | .sct _ _ _ _ => some .sp
  | .scta _ _ _ _ => some .sp
  | .flt _ _ _ _ => some .sp
  | .bmk _ _ _ _ => some .sp
  | .cnt _ _ _ => some .sp
  | .dfr _ _ _ => some .sp
  | .dfd _ _ _ => some .sp
  | .phase _ _ => some .sy
  | .bara _ _ => some .sy
  | .barw _ _ => some .sy
  | .bar _ _ => some .sy
  | .pub _ _ => some .sy
  | .fence _ _ => some .sy
  | .xbeg _ => some .sy
  | .xend _ => some .sy
  | .xabt _ => some .sy
  | .collAr _ _ => some .sy
  | .collRs _ _ => some .sy
  | .collAg _ _ => some .sy
  | .collA2a _ _ => some .sy
  | .collBc _ _ => some .sy
  | .cwt _ _ => some .sy
  | .plan _ _ => some .sy
  | .pexec _ _ => some .sy
  | .pwait _ _ => some .sy
  | .hint _ _ => some .sy
  | .pin _ _ => some .sy
  | .unpin _ _ => some .sy
  | .statr _ _ _ => some .sy
  | .statw _ _ => some .sy
  | .evs _ _ => some .sy
  | .evw _ _ => some .sy
  | .yld _ => some .sy
  | .resultLanding => none
  | .variableLatencyResult => none
  | .slipRelease _ => none
  | .slipWaitTimeout _ => none
  | .loopEndOfTrip => none
  | .fetchFault => none
  | .trapEntry => none
  | .emulationSequence => none
  | .emulationOverrun => none
  | .safePointDistanceExceeded => none
  | .speculationResolve => none
  | .transactionAbort _ => none
  | .mxCommandExecute _ => none
  | .cpCommandExecute _ _ => none
  | .spCommandExecute _ => none
  | .syCommandExecute => none
  | .queueFullEmptyTimeout _ _ => none
  | .executionFault => none
  | .streamElementDelivery _ => none
  | .phaseBoundaryComplete _ => none
  | .barrierGenerationComplete _ => none
  | .collectiveOwnershipMove _ _ _ => none
  | .collectiveComplete _ _ _ => none
  | .memberTimeout _ _ => none
  | .pexecAccept _ => none
  | .planBreak _ => none
  | .planBlockCommit _ => none
  | .bindingPlaneUpdate _ _ => none
  | .pageTableWalk _ => none
  | .doorbell _ _ _ => none
  | .frontEndRingRead _ _ => none
  | .letterboxRead _ => none
  | .letterboxRetire _ _ => none
  | .overflowMaskReadClear _ => none
  | .launchPortWrite _ _ _ => none
  | .launchPortRefusalWrite _ _ _ _ => none
  | .packetStart _ _ _ => none
  | .operatingPointReached _ _ => none
  | .clusterSramZeroing _ _ => none
  | .taskRetire _ _ _ _ => none
  | .launchComplete _ _ _ _ => none
  | .schedulerFaultDelivery _ _ _ _ _ => none
  | .timeSliceExpiry _ _ _ => none
  | .classFloorOwed _ _ => none
  | .preemptionRequest _ _ _ => none
  | .contextSave _ => none
  | .contextRestore _ _ _ => none
  | .schedulerWatchdogExpiry _ => none
  | .pluginCallTimeout _ _ => none
  | .shootdown _ _ _ => none
  | .createContext _ _ _ _ => none
  | .destroyContext _ _ => none
  | .writeRangeEntry _ _ _ _ => none
  | .writeQueueEntry _ _ _ => none
  | .enableQueue _ _ => none
  | .disableQueue _ _ => none
  | .admitImage _ _ _ _ _ => none
  | .writeFmask _ _ _ => none
  | .readClearMaskedCounter _ _ => none
  | .openHostWindow _ _ _ _ _ => none
  | .closeHostWindow _ _ => none
  | .writeHostRange _ _ _ _ => none
  | .bindContextJob _ _ _ => none
  | .writeCollectiveGroup _ _ _ _ => none
  | .requestPostmark _ _ _ _ => none
  | .debugHalt _ _ _ => none
  | .debugResume _ _ _ => none
  | .debugStep _ _ _ => none
  | .debugReadRegister _ _ _ _ => none
  | .debugWriteRegister _ _ _ _ _ => none
  | .debugEnableBreakpoints _ _ _ => none
  | .debugDisableBreakpoints _ _ _ => none
  | .debugRevoke _ _ _ => none
  | .setPowerLimit _ _ => none
  | .setPowerState _ _ => none
  | .readHealthLog _ _ => none
  | .fwOpen _ _ => none
  | .fwWrite _ _ _ => none
  | .fwCheck _ => none
  | .fwFlip _ => none
  | .stagePatch _ _ _ => none
  | .livePatch _ _ _ => none
  | .fwState _ => none
  | .fwReset _ => none
  | .clearLive _ => none
  | .boot _ _ => none
  | .powerLoss => none
  | .ideEstablish => none
  | .hostWindowRead _ _ _ => none
  | .hostWindowWrite _ _ _ => none
  | .flitReceive _ _ _ => none
  | .transportDataReceive _ _ _ => none
  | .transportAckReceive _ _ => none
  | .transportNackReceive _ _ => none
  | .transportKeepaliveReceive _ _ => none
  | .retransmitTimeout _ => none
  | .hostLinkLost => none
  | .ideIntegrityFailure => none
  | .scaleUpPlaneLost _ => none
  | .scaleOutPortLost _ => none
  | .overtemperature _ => none
  | .deviceMemoryStackFailure _ => none
  | .scrub _ _ => none
  | .coreLost _ => none
  | .healthLogPeriodic => none
  | .unknownOpcode _ _ => none
  | .switchPlaneUp _ => none
  | .apertureRegisterWrite _ _ _ => none

/-- The guard of a slot word; an event has none and counts as unguarded. -/
def Instr.guard : Instr → Guard
  | .nop g _ => g
  | .nopSlot _ g => g
  | .b g _ => g
  | .jmp g _ _ => g
  | .call g _ => g
  | .ret g _ _ => g
  | .loop g _ _ => g
  | .loopRot g _ _ => g
  | .loopPre g _ _ => g
  | .loopRotPre g _ _ => g
  | .lbrk g _ => g
  | .pmark g _ => g
  | .pset g _ _ => g
  | .pclr g _ _ => g
  | .pand g _ _ _ _ => g
  | .por g _ _ _ _ => g
  | .pxor g _ _ _ _ => g
  | .pnot g _ _ _ => g
  | .endTask g _ => g
  | .trap g _ _ => g
  | .rett g _ => g
  | .spec g _ _ => g
  | .specx g _ => g
  | .dcpl g _ => g
  | .rjn g _ => g
  | .sread g _ _ _ => g
  | .sreadWm g _ _ _ => g
  | .sreadSrec g _ _ _ => g
  | .sreadSat g _ _ _ => g
  | .swrite g _ _ _ => g
  | .swriteTstat g _ _ => g
  | .swriteTpc g _ _ => g
  | .swriteIsav g _ _ => g
  | .swriteSrec g _ _ _ => g
  | .swriteWm g _ _ _ => g
  | .swriteMtol g _ _ => g
  | .swriteLstat g _ _ => g
  | .swriteSat g _ _ _ => g
  | .bkpt g _ _ => g
  | .add g _ _ _ => g
  | .sub g _ _ _ => g
  | .mul g _ _ _ => g
  | .mulh g _ _ _ => g
  | .mulhz g _ _ _ => g
  | .div g _ _ _ => g
  | .divz g _ _ _ => g
  | .rem g _ _ _ => g
  | .remz g _ _ _ => g
  | .and g _ _ _ => g
  | .or g _ _ _ => g
  | .xor g _ _ _ => g
  | .andn g _ _ _ => g
  | .shl g _ _ _ => g
  | .shr g _ _ _ => g
  | .sar g _ _ _ => g
  | .rol g _ _ _ => g
  | .min g _ _ _ => g
  | .max g _ _ _ => g
  | .minz g _ _ _ => g
  | .maxz g _ _ _ => g
  | .clz g _ _ => g
  | .ctz g _ _ => g
  | .popc g _ _ => g
  | .sel g _ _ _ _ => g
  | .addi g _ _ _ => g
  | .andi g _ _ _ => g
  | .ori g _ _ _ => g
  | .xori g _ _ _ => g
  | .shli g _ _ _ => g
  | .shri g _ _ _ => g
  | .sari g _ _ _ => g
  | .li g _ _ => g
  | .lih g _ _ => g
  | .cmp g _ _ _ _ => g
  | .cmpi g _ _ _ _ => g
  | .ldB g _ _ _ _ => g
  | .ldBz g _ _ _ _ => g
  | .ldH g _ _ _ _ => g
  | .ldHz g _ _ _ _ => g
  | .ldW g _ _ _ _ => g
  | .ldWz g _ _ _ _ => g
  | .ldD g _ _ _ _ => g
  | .stB g _ _ _ _ => g
  | .stH g _ _ _ _ => g
  | .stW g _ _ _ _ => g
  | .stD g _ _ _ _ => g
  | .ldh g _ _ _ _ => g
  | .sth g _ _ _ _ => g
  | .hmk g _ _ => g
  | .hset g _ _ _ => g
  | .hget g _ _ _ => g
  | .stg g _ _ _ => g
  | .rng g _ _ _ => g
  | .cvt g _ _ _ _ _ => g
  | .faddS g _ _ _ => g
  | .fmulS g _ _ _ => g
  | .ffmaS g _ _ _ => g
  | .fcmp g _ _ _ _ => g
  | .amoAdd g _ _ _ _ => g
  | .amoAnd g _ _ _ _ => g
  | .amoOr g _ _ _ _ => g
  | .amoXor g _ _ _ _ => g
  | .amoMax g _ _ _ _ => g
  | .amoMin g _ _ _ _ => g
  | .amoXchg g _ _ _ _ => g
  | .amoCas g _ _ _ _ => g
  | .amob g _ _ _ _ => g
  | .amoAddR g _ _ _ _ => g
  | .amoAndR g _ _ _ _ => g
  | .amoOrR g _ _ _ _ => g
  | .amoXorR g _ _ _ _ => g
  | .amoMaxR g _ _ _ _ => g
  | .amoMinR g _ _ _ _ => g
  | .amoXchgR g _ _ _ _ => g
  | .amoCasR g _ _ _ _ => g
  | .amobR g _ _ _ _ => g
  | .apush g _ _ _ _ => g
  | .ashf g _ => g
  | .aacc g _ _ _ _ => g
  | .adrn g _ _ _ => g
  | .alds g _ _ _ => g
  | .aswp g _ => g
  | .asel g _ => g
  | .acfg g _ _ => g
  | .acfgImm g _ _ => g
  | .azr g _ => g
  | .afac g _ _ _ _ => g
  | .awm g _ _ => g
  | .vadd g _ _ _ => g
  | .vsub g _ _ _ => g
  | .vmul g _ _ _ => g
  | .vfma g _ _ _ _ => g
  | .vfms g _ _ _ _ => g
  | .vmax g _ _ _ => g
  | .vmin g _ _ _ => g
  | .vabs g _ _ => g
  | .vneg g _ _ => g
  | .vclamp g _ _ _ _ => g
  | .vexp g _ _ => g
  | .vexp2 g _ _ => g
  | .vlog2 g _ _ => g
  | .vrcp g _ _ => g
  | .vrsq g _ _ => g
  | .vsqrt g _ _ => g
  | .vtanh g _ _ => g
  | .vsigm g _ _ => g
  | .vcmp g _ _ _ _ => g
  | .vsel g _ _ _ _ => g
  | .vand g _ _ _ => g
  | .vor g _ _ _ => g
  | .vxor g _ _ _ => g
  | .vshl g _ _ _ => g
  | .vshr g _ _ _ => g
  | .vcvt g _ _ _ => g
  | .vqnt g _ _ _ => g
  | .vdqnt g _ _ => g
  | .vcbk g _ _ => g
  | .vsum g _ _ => g
  | .vmaxr g _ _ => g
  | .vminr g _ _ => g
  | .vscan g _ _ => g
  | .vperm g _ _ _ => g
  | .vbcast g _ _ => g
  | .viota g _ _ => g
  | .vpopc g _ _ => g
  | .vcmpr g _ _ _ => g
  | .vexpd g _ _ _ => g
  | .vmov g _ _ => g
  | .vrng g _ _ _ => g
  | .mld g _ _ => g
  | .mst g _ _ => g
  | .mzr g _ => g
  | .mcpy g _ _ => g
  | .mmul g _ _ _ => g
  | .madd g _ _ _ => g
  | .mscl g _ _ => g
  | .mrcmp g _ _ => g
  | .mdns g _ _ => g
  | .mfac g _ _ _ => g
  | .mtrn g _ _ => g
  | .mrnk g _ _ => g
  | .mocc g _ _ => g
  | .mapl g _ _ _ => g
  | .cpy g _ _ _ => g
  | .cpt g _ _ _ => g
  | .cpq g _ _ _ _ => g
  | .cpqs g _ _ _ _ => g
  | .cpz g _ _ _ => g
  | .cpx g _ _ _ => g
  | .cpk g _ _ _ => g
  | .cpbs g _ _ _ => g
  | .cpw g _ => g
  | .cpab g _ => g
  | .cpf g _ _ => g
  | .cpr g _ _ _ => g
  | .gth g _ _ _ => g
  | .sct g _ _ _ => g
  | .scta g _ _ _ => g
  | .flt g _ _ _ => g
  | .bmk g _ _ _ => g
  | .cnt g _ _ => g
  | .dfr g _ _ => g
  | .dfd g _ _ => g
  | .phase g _ => g
  | .bara g _ => g
  | .barw g _ => g
  | .bar g _ => g
  | .pub g _ => g
  | .fence g _ => g
  | .xbeg g => g
  | .xend g => g
  | .xabt g => g
  | .collAr g _ => g
  | .collRs g _ => g
  | .collAg g _ => g
  | .collA2a g _ => g
  | .collBc g _ => g
  | .cwt g _ => g
  | .plan g _ => g
  | .pexec g _ => g
  | .pwait g _ => g
  | .hint g _ => g
  | .pin g _ => g
  | .unpin g _ => g
  | .statr g _ _ => g
  | .statw g _ => g
  | .evs g _ => g
  | .evw g _ => g
  | .yld g => g
  | .resultLanding => .always
  | .variableLatencyResult => .always
  | .slipRelease _ => .always
  | .slipWaitTimeout _ => .always
  | .loopEndOfTrip => .always
  | .fetchFault => .always
  | .trapEntry => .always
  | .emulationSequence => .always
  | .emulationOverrun => .always
  | .safePointDistanceExceeded => .always
  | .speculationResolve => .always
  | .transactionAbort _ => .always
  | .mxCommandExecute _ => .always
  | .cpCommandExecute _ _ => .always
  | .spCommandExecute _ => .always
  | .syCommandExecute => .always
  | .queueFullEmptyTimeout _ _ => .always
  | .executionFault => .always
  | .streamElementDelivery _ => .always
  | .phaseBoundaryComplete _ => .always
  | .barrierGenerationComplete _ => .always
  | .collectiveOwnershipMove _ _ _ => .always
  | .collectiveComplete _ _ _ => .always
  | .memberTimeout _ _ => .always
  | .pexecAccept _ => .always
  | .planBreak _ => .always
  | .planBlockCommit _ => .always
  | .bindingPlaneUpdate _ _ => .always
  | .pageTableWalk _ => .always
  | .doorbell _ _ _ => .always
  | .frontEndRingRead _ _ => .always
  | .letterboxRead _ => .always
  | .letterboxRetire _ _ => .always
  | .overflowMaskReadClear _ => .always
  | .launchPortWrite _ _ _ => .always
  | .launchPortRefusalWrite _ _ _ _ => .always
  | .packetStart _ _ _ => .always
  | .operatingPointReached _ _ => .always
  | .clusterSramZeroing _ _ => .always
  | .taskRetire _ _ _ _ => .always
  | .launchComplete _ _ _ _ => .always
  | .schedulerFaultDelivery _ _ _ _ _ => .always
  | .timeSliceExpiry _ _ _ => .always
  | .classFloorOwed _ _ => .always
  | .preemptionRequest _ _ _ => .always
  | .contextSave _ => .always
  | .contextRestore _ _ _ => .always
  | .schedulerWatchdogExpiry _ => .always
  | .pluginCallTimeout _ _ => .always
  | .shootdown _ _ _ => .always
  | .createContext _ _ _ _ => .always
  | .destroyContext _ _ => .always
  | .writeRangeEntry _ _ _ _ => .always
  | .writeQueueEntry _ _ _ => .always
  | .enableQueue _ _ => .always
  | .disableQueue _ _ => .always
  | .admitImage _ _ _ _ _ => .always
  | .writeFmask _ _ _ => .always
  | .readClearMaskedCounter _ _ => .always
  | .openHostWindow _ _ _ _ _ => .always
  | .closeHostWindow _ _ => .always
  | .writeHostRange _ _ _ _ => .always
  | .bindContextJob _ _ _ => .always
  | .writeCollectiveGroup _ _ _ _ => .always
  | .requestPostmark _ _ _ _ => .always
  | .debugHalt _ _ _ => .always
  | .debugResume _ _ _ => .always
  | .debugStep _ _ _ => .always
  | .debugReadRegister _ _ _ _ => .always
  | .debugWriteRegister _ _ _ _ _ => .always
  | .debugEnableBreakpoints _ _ _ => .always
  | .debugDisableBreakpoints _ _ _ => .always
  | .debugRevoke _ _ _ => .always
  | .setPowerLimit _ _ => .always
  | .setPowerState _ _ => .always
  | .readHealthLog _ _ => .always
  | .fwOpen _ _ => .always
  | .fwWrite _ _ _ => .always
  | .fwCheck _ => .always
  | .fwFlip _ => .always
  | .stagePatch _ _ _ => .always
  | .livePatch _ _ _ => .always
  | .fwState _ => .always
  | .fwReset _ => .always
  | .clearLive _ => .always
  | .boot _ _ => .always
  | .powerLoss => .always
  | .ideEstablish => .always
  | .hostWindowRead _ _ _ => .always
  | .hostWindowWrite _ _ _ => .always
  | .flitReceive _ _ _ => .always
  | .transportDataReceive _ _ _ => .always
  | .transportAckReceive _ _ => .always
  | .transportNackReceive _ _ => .always
  | .transportKeepaliveReceive _ _ => .always
  | .retransmitTimeout _ => .always
  | .hostLinkLost => .always
  | .ideIntegrityFailure => .always
  | .scaleUpPlaneLost _ => .always
  | .scaleOutPortLost _ => .always
  | .overtemperature _ => .always
  | .deviceMemoryStackFailure _ => .always
  | .scrub _ _ => .always
  | .coreLost _ => .always
  | .healthLogPeriodic => .always
  | .unknownOpcode _ _ => .always
  | .switchPlaneUp _ => .always
  | .apertureRegisterWrite _ _ _ => .always

/-- The stall count ST of the bundle, from the br formats that carry it (R17, R62). -/
def Instr.st : Instr → Nat
  | .nop _ t => t.toNat
  | .jmp _ t _ => t.toNat
  | .ret _ t _ => t.toNat
  | .lbrk _ t => t.toNat
  | .pmark _ t => t.toNat
  | .pset _ t _ => t.toNat
  | .pclr _ t _ => t.toNat
  | .pand _ t _ _ _ => t.toNat
  | .por _ t _ _ _ => t.toNat
  | .pxor _ t _ _ _ => t.toNat
  | .pnot _ t _ _ => t.toNat
  | .endTask _ t => t.toNat
  | .trap _ t _ => t.toNat
  | .rett _ t => t.toNat
  | .specx _ t => t.toNat
  | .dcpl _ t => t.toNat
  | .rjn _ t => t.toNat
  | .sread _ t _ _ => t.toNat
  | .sreadWm _ t _ _ => t.toNat
  | .sreadSrec _ t _ _ => t.toNat
  | .sreadSat _ t _ _ => t.toNat
  | .swrite _ t _ _ => t.toNat
  | .swriteTstat _ t _ => t.toNat
  | .swriteTpc _ t _ => t.toNat
  | .swriteIsav _ t _ => t.toNat
  | .swriteSrec _ t _ _ => t.toNat
  | .swriteWm _ t _ _ => t.toNat
  | .swriteMtol _ t _ => t.toNat
  | .swriteLstat _ t _ => t.toNat
  | .swriteSat _ t _ _ => t.toNat
  | .bkpt _ t _ => t.toNat
  | _ => 0

/-- The codes of Table 6-5 (R101). -/
def spAssigned (c : Nat) : Bool :=
  c ≤ 4 || (8 ≤ c && c ≤ 0x0E) || (0x10 ≤ c && c ≤ 0x2B) || (0x30 ≤ c && c ≤ 0x3D) || (0x40 ≤ c && c ≤ 0x5C) ||
  (0x60 ≤ c && c ≤ 0x69)

/-- The codes whose sread has a row of its own: srec0 to srec7, wm0 to wm7, sat14 and sat15. -/
def spOwnRead (c : Nat) : Bool :=
  (0x30 ≤ c && c ≤ 0x37) || (0x50 ≤ c && c ≤ 0x57) || (0x68 ≤ c && c ≤ 0x69)

/-- The codes whose swrite has a row of its own: those, tstat, tpc, isav, mtol and lstat. -/
def spOwnWrite (c : Nat) : Bool :=
  spOwnRead c || c == 0 || c == 1 || c == 3 || c == 0x58 || c == 0x5A

/-- Guard 0 with N = 1 is no instruction (R16). -/
def Guard.wf (g : Guard) : Bool := !(g.p == 0 && g.n == 1)

/-- The checks beyond the guard: assigned condition codes (Table 5-4), special-register codes (Table 6-5), the formats
of cvt (R111), channel ranges (Table 5-8), the cap of mfac (R69), and the slot of a nop. -/
def Instr.fieldsWf : Instr → Bool
  | .nopSlot k _ => k != .br
  | .sread _ _ _ c => spAssigned c.toNat && !spOwnRead c.toNat
  | .swrite _ _ _ c => spAssigned c.toNat && !spOwnWrite c.toNat
  | .cmp _ _ c _ _ => c.toNat < 10
  | .fcmp _ _ c _ _ => c.toNat < 8
  | .vcmp _ _ _ _ c => c.toNat < 10
  | .cvt _ _ _ f _ _ => f.toNat ≤ 15 || f.toNat == 22 || f.toNat == 23
  | .mfac _ _ _ c => c.toNat ≤ 64
  | .cpq _ c _ _ _ => c.toNat ≤ 13
  | .cpqs _ c _ _ _ => 14 ≤ c.toNat
  | _ => true

/-- The instruction is one that the encodings of the spec admit. -/
def Instr.wf (i : Instr) : Bool := i.guard.wf && i.fieldsWf

end Sys2Proof
end

