-- ==== Sys2Proof/Decode.lean ====
section
/-! DEFINITION. The decoder of slot words, total on every word and refusing by the step of Table 5-12 that fails, and
the encoder, both from the formats and maps of Tables 5-2 to 5-10. -/

namespace Sys2Proof

/-- Why a word is not an instruction (Table 5-12, R74). -/
inductive DecodeError where
  /-- Steps 1 and 4: guard 0 with N = 1, or an opcode, condition, kind or register code that is unassigned: cause 0x10. -/
  | undefined
  /-- Step 5: a res0 field that is not zero: cause 0x11. -/
  | reserved
  /-- Step 6: a format code that the instruction does not accept: cause 0x13. -/
  | format
  /-- Step 7: an operand field outside the limits of chapter 5: cause 0x14. -/
  | operand
  deriving DecidableEq, Repr

/-- The field of n bits whose lowest bit is bit lo of the word. -/
def fld (n w lo : Nat) : BitVec n := BitVec.ofNat n (w / 2 ^ lo)

/-- The header of a slot word (Table 3-1). -/
def guardOf (w : Nat) : Guard := ⟨fld 4 w 28, fld 1 w 27⟩

/-- The opcode of a slot word, bits [26:20] (Table 3-1). -/
def opcodeOf (w : Nat) : Nat := w / 2 ^ 20 % 128

/-- Accept the instruction where its res0 field, given as a number, is zero (step 5). -/
def ifRes0 (r : Nat) (i : Instr) : Except DecodeError Instr :=
  if r = 0 then .ok i else .error .reserved

/-- The opcode map of the br slot: steps 4 to 7 of Table 5-12 that the word alone decides. -/
def decodeBr (w : Nat) : Except DecodeError Instr :=
  match opcodeOf w with
  | 0 => ifRes0 (w % 2 ^ 16) (.nop (guardOf w) (fld 4 w 16))
  | 1 => .ok (.b (guardOf w) (fld 20 w 0))
  | 2 => ifRes0 (w % 2 ^ 10) (.jmp (guardOf w) (fld 4 w 16) (fld 6 w 10))
  | 3 => .ok (.call (guardOf w) (fld 20 w 0))
  | 4 => ifRes0 (w % 2 ^ 10) (.ret (guardOf w) (fld 4 w 16) (fld 6 w 10))
  | 5 =>
    if fld 2 w 12 = 0 then .ok (.loop (guardOf w) (fld 6 w 14) (fld 12 w 0))
    else if fld 2 w 12 = 2 then .ok (.loopRot (guardOf w) (fld 6 w 14) (fld 12 w 0))
    else if fld 2 w 12 = 1 then .ok (.loopPre (guardOf w) (fld 6 w 14) (fld 12 w 0))
    else .ok (.loopRotPre (guardOf w) (fld 6 w 14) (fld 12 w 0))
  | 6 => ifRes0 (w % 2 ^ 16) (.lbrk (guardOf w) (fld 4 w 16))
  | 7 => ifRes0 (w % 2 ^ 16) (.pmark (guardOf w) (fld 4 w 16))
  | 8 => ifRes0 (w % 2 ^ 12) (.pset (guardOf w) (fld 4 w 16) (fld 4 w 12))
  | 9 => ifRes0 (w % 2 ^ 12) (.pclr (guardOf w) (fld 4 w 16) (fld 4 w 12))
  | 10 => ifRes0 (w % 2 ^ 4) (.pand (guardOf w) (fld 4 w 16) (fld 4 w 12) (fld 4 w 8) (fld 4 w 4))
  | 11 => ifRes0 (w % 2 ^ 4) (.por (guardOf w) (fld 4 w 16) (fld 4 w 12) (fld 4 w 8) (fld 4 w 4))
  | 12 => ifRes0 (w % 2 ^ 4) (.pxor (guardOf w) (fld 4 w 16) (fld 4 w 12) (fld 4 w 8) (fld 4 w 4))
  | 13 => ifRes0 (w % 2 ^ 8) (.pnot (guardOf w) (fld 4 w 16) (fld 4 w 12) (fld 4 w 8))
  | 14 => ifRes0 (w % 2 ^ 16) (.endTask (guardOf w) (fld 4 w 16))
  | 15 => ifRes0 (w / 2 ^ 8 % 2 ^ 8) (.trap (guardOf w) (fld 4 w 16) (fld 8 w 0))
  | 16 => ifRes0 (w % 2 ^ 16) (.rett (guardOf w) (fld 4 w 16))
  | 17 => .ok (.spec (guardOf w) (fld 4 w 16) (fld 16 w 0))
  | 18 => ifRes0 (w % 2 ^ 16) (.specx (guardOf w) (fld 4 w 16))
  | 19 => ifRes0 (w % 2 ^ 16) (.dcpl (guardOf w) (fld 4 w 16))
  | 20 => ifRes0 (w % 2 ^ 16) (.rjn (guardOf w) (fld 4 w 16))
  | 21 =>
    if !spAssigned (w % 1024) then .error .undefined
    else if w % 1024 / 2 ^ 3 = 10 then .ok (.sreadWm (guardOf w) (fld 4 w 16) (fld 6 w 10) (fld 3 w 0))
    else if w % 1024 / 2 ^ 3 = 6 then .ok (.sreadSrec (guardOf w) (fld 4 w 16) (fld 6 w 10) (fld 3 w 0))
    else if w % 1024 / 2 ^ 1 = 52 then .ok (.sreadSat (guardOf w) (fld 4 w 16) (fld 6 w 10) (fld 1 w 0))
    else .ok (.sread (guardOf w) (fld 4 w 16) (fld 6 w 10) (fld 10 w 0))
  | 22 =>
    if !spAssigned (w % 1024) then .error .undefined
    else if w % 1024 = 0 then .ok (.swriteTstat (guardOf w) (fld 4 w 16) (fld 6 w 10))
    else if w % 1024 = 1 then .ok (.swriteTpc (guardOf w) (fld 4 w 16) (fld 6 w 10))
    else if w % 1024 = 3 then .ok (.swriteIsav (guardOf w) (fld 4 w 16) (fld 6 w 10))
    else if w % 1024 / 2 ^ 3 = 6 then .ok (.swriteSrec (guardOf w) (fld 4 w 16) (fld 6 w 10) (fld 3 w 0))
    else if w % 1024 / 2 ^ 3 = 10 then .ok (.swriteWm (guardOf w) (fld 4 w 16) (fld 6 w 10) (fld 3 w 0))
    else if w % 1024 = 88 then .ok (.swriteMtol (guardOf w) (fld 4 w 16) (fld 6 w 10))
    else if w % 1024 = 90 then .ok (.swriteLstat (guardOf w) (fld 4 w 16) (fld 6 w 10))
    else if w % 1024 / 2 ^ 1 = 52 then .ok (.swriteSat (guardOf w) (fld 4 w 16) (fld 6 w 10) (fld 1 w 0))
    else .ok (.swrite (guardOf w) (fld 4 w 16) (fld 6 w 10) (fld 10 w 0))
  | 23 => .ok (.bkpt (guardOf w) (fld 4 w 16) (fld 16 w 0))
  | _ => .error .undefined

/-- The opcode map of the sc slot: steps 4 to 7 of Table 5-12 that the word alone decides. -/
def decodeSc (w : Nat) : Except DecodeError Instr :=
  match opcodeOf w with
  | 0 => ifRes0 (w % 2 ^ 20) (.nopSlot .sc (guardOf w))
  | 1 => ifRes0 (w % 2 ^ 2) (.add (guardOf w) (fld 6 w 14) (fld 6 w 8) (fld 6 w 2))
  | 2 => ifRes0 (w % 2 ^ 2) (.sub (guardOf w) (fld 6 w 14) (fld 6 w 8) (fld 6 w 2))
  | 3 => ifRes0 (w % 2 ^ 2) (.mul (guardOf w) (fld 6 w 14) (fld 6 w 8) (fld 6 w 2))
  | 4 => ifRes0 (w % 2 ^ 2) (.mulh (guardOf w) (fld 6 w 14) (fld 6 w 8) (fld 6 w 2))
  | 5 => ifRes0 (w % 2 ^ 2) (.mulhz (guardOf w) (fld 6 w 14) (fld 6 w 8) (fld 6 w 2))
  | 6 => ifRes0 (w % 2 ^ 2) (.div (guardOf w) (fld 6 w 14) (fld 6 w 8) (fld 6 w 2))
  | 7 => ifRes0 (w % 2 ^ 2) (.divz (guardOf w) (fld 6 w 14) (fld 6 w 8) (fld 6 w 2))
  | 8 => ifRes0 (w % 2 ^ 2) (.rem (guardOf w) (fld 6 w 14) (fld 6 w 8) (fld 6 w 2))
  | 9 => ifRes0 (w % 2 ^ 2) (.remz (guardOf w) (fld 6 w 14) (fld 6 w 8) (fld 6 w 2))
  | 10 => ifRes0 (w % 2 ^ 2) (.and (guardOf w) (fld 6 w 14) (fld 6 w 8) (fld 6 w 2))
  | 11 => ifRes0 (w % 2 ^ 2) (.or (guardOf w) (fld 6 w 14) (fld 6 w 8) (fld 6 w 2))
  | 12 => ifRes0 (w % 2 ^ 2) (.xor (guardOf w) (fld 6 w 14) (fld 6 w 8) (fld 6 w 2))
  | 13 => ifRes0 (w % 2 ^ 2) (.andn (guardOf w) (fld 6 w 14) (fld 6 w 8) (fld 6 w 2))
  | 14 => ifRes0 (w % 2 ^ 2) (.shl (guardOf w) (fld 6 w 14) (fld 6 w 8) (fld 6 w 2))
  | 15 => ifRes0 (w % 2 ^ 2) (.shr (guardOf w) (fld 6 w 14) (fld 6 w 8) (fld 6 w 2))
  | 16 => ifRes0 (w % 2 ^ 2) (.sar (guardOf w) (fld 6 w 14) (fld 6 w 8) (fld 6 w 2))
  | 17 => ifRes0 (w % 2 ^ 2) (.rol (guardOf w) (fld 6 w 14) (fld 6 w 8) (fld 6 w 2))
  | 18 => ifRes0 (w % 2 ^ 2) (.min (guardOf w) (fld 6 w 14) (fld 6 w 8) (fld 6 w 2))
  | 19 => ifRes0 (w % 2 ^ 2) (.max (guardOf w) (fld 6 w 14) (fld 6 w 8) (fld 6 w 2))
  | 20 => ifRes0 (w % 2 ^ 2) (.minz (guardOf w) (fld 6 w 14) (fld 6 w 8) (fld 6 w 2))
  | 21 => ifRes0 (w % 2 ^ 2) (.maxz (guardOf w) (fld 6 w 14) (fld 6 w 8) (fld 6 w 2))
  | 22 => ifRes0 (w % 2 ^ 8) (.clz (guardOf w) (fld 6 w 14) (fld 6 w 8))
  | 23 => ifRes0 (w % 2 ^ 8) (.ctz (guardOf w) (fld 6 w 14) (fld 6 w 8))
  | 24 => ifRes0 (w % 2 ^ 8) (.popc (guardOf w) (fld 6 w 14) (fld 6 w 8))
  | 25 => ifRes0 (w % 2 ^ 1) (.sel (guardOf w) (fld 4 w 16) (fld 5 w 11) (fld 5 w 6) (fld 5 w 1))
  | 26 => .ok (.addi (guardOf w) (fld 6 w 14) (fld 6 w 8) (fld 8 w 0))
  | 27 => .ok (.andi (guardOf w) (fld 6 w 14) (fld 6 w 8) (fld 8 w 0))
  | 28 => .ok (.ori (guardOf w) (fld 6 w 14) (fld 6 w 8) (fld 8 w 0))
  | 29 => .ok (.xori (guardOf w) (fld 6 w 14) (fld 6 w 8) (fld 8 w 0))
  | 30 => ifRes0 (w / 2 ^ 6 % 2 ^ 2) (.shli (guardOf w) (fld 6 w 14) (fld 6 w 8) (fld 6 w 0))
  | 31 => ifRes0 (w / 2 ^ 6 % 2 ^ 2) (.shri (guardOf w) (fld 6 w 14) (fld 6 w 8) (fld 6 w 0))
  | 32 => ifRes0 (w / 2 ^ 6 % 2 ^ 2) (.sari (guardOf w) (fld 6 w 14) (fld 6 w 8) (fld 6 w 0))
  | 33 => .ok (.li (guardOf w) (fld 6 w 14) (fld 14 w 0))
  | 34 => .ok (.lih (guardOf w) (fld 6 w 14) (fld 14 w 0))
  | 35 => if w / 2 ^ 12 % 16 < 10 then .ok (.cmp (guardOf w) (fld 4 w 16) (fld 4 w 12) (fld 6 w 6) (fld 6 w 0)) else .error .undefined
  | 36 => .ok (.cmpi (guardOf w) (fld 4 w 16) (fld 3 w 13) (fld 6 w 7) (fld 7 w 0))
  | 37 => .ok (.ldB (guardOf w) (fld 6 w 14) (fld 6 w 8) (fld 2 w 6) (fld 6 w 0))
  | 38 => .ok (.ldBz (guardOf w) (fld 6 w 14) (fld 6 w 8) (fld 2 w 6) (fld 6 w 0))
  | 39 => .ok (.ldH (guardOf w) (fld 6 w 14) (fld 6 w 8) (fld 2 w 6) (fld 6 w 0))
  | 40 => .ok (.ldHz (guardOf w) (fld 6 w 14) (fld 6 w 8) (fld 2 w 6) (fld 6 w 0))
  | 41 => .ok (.ldW (guardOf w) (fld 6 w 14) (fld 6 w 8) (fld 2 w 6) (fld 6 w 0))
  | 42 => .ok (.ldWz (guardOf w) (fld 6 w 14) (fld 6 w 8) (fld 2 w 6) (fld 6 w 0))
  | 43 => .ok (.ldD (guardOf w) (fld 6 w 14) (fld 6 w 8) (fld 2 w 6) (fld 6 w 0))
  | 44 => .ok (.stB (guardOf w) (fld 6 w 14) (fld 6 w 8) (fld 2 w 6) (fld 6 w 0))
  | 45 => .ok (.stH (guardOf w) (fld 6 w 14) (fld 6 w 8) (fld 2 w 6) (fld 6 w 0))
  | 46 => .ok (.stW (guardOf w) (fld 6 w 14) (fld 6 w 8) (fld 2 w 6) (fld 6 w 0))
  | 47 => .ok (.stD (guardOf w) (fld 6 w 14) (fld 6 w 8) (fld 2 w 6) (fld 6 w 0))
  | 48 => .ok (.ldh (guardOf w) (fld 5 w 15) (fld 6 w 9) (fld 2 w 7) (fld 7 w 0))
  | 49 => .ok (.sth (guardOf w) (fld 5 w 15) (fld 6 w 9) (fld 2 w 7) (fld 7 w 0))
  | 50 => ifRes0 (w % 2 ^ 9) (.hmk (guardOf w) (fld 5 w 15) (fld 6 w 9))
  | 51 => ifRes0 (w % 2 ^ 5) (.hset (guardOf w) (fld 5 w 15) (fld 6 w 9) (fld 4 w 5))
  | 52 => ifRes0 (w % 2 ^ 5) (.hget (guardOf w) (fld 5 w 15) (fld 6 w 9) (fld 4 w 5))
  | 53 => ifRes0 (w % 2 ^ 9) (.stg (guardOf w) (fld 2 w 18) (fld 3 w 15) (fld 6 w 9))
  | 54 => ifRes0 (w % 2 ^ 2) (.rng (guardOf w) (fld 6 w 14) (fld 6 w 8) (fld 6 w 2))
  | 55 =>
    if w / 2 ^ 3 % 32 ≤ 15 ∨ w / 2 ^ 3 % 32 = 22 ∨ w / 2 ^ 3 % 32 = 23 then .ok (.cvt (guardOf w) (fld 6 w 14) (fld 6 w 8) (fld 5 w 3) (fld 2 w 1) (fld 1 w 0)) else .error .format
  | 56 => ifRes0 (w % 2 ^ 2) (.faddS (guardOf w) (fld 6 w 14) (fld 6 w 8) (fld 6 w 2))
  | 57 => ifRes0 (w % 2 ^ 2) (.fmulS (guardOf w) (fld 6 w 14) (fld 6 w 8) (fld 6 w 2))
  | 58 => ifRes0 (w % 2 ^ 2) (.ffmaS (guardOf w) (fld 6 w 14) (fld 6 w 8) (fld 6 w 2))
  | 59 => if w / 2 ^ 12 % 16 < 8 then .ok (.fcmp (guardOf w) (fld 4 w 16) (fld 4 w 12) (fld 6 w 6) (fld 6 w 0)) else .error .undefined
  | 60 => .ok (.amoAdd (guardOf w) (fld 6 w 14) (fld 6 w 8) (fld 6 w 2) (fld 2 w 0))
  | 61 => .ok (.amoAnd (guardOf w) (fld 6 w 14) (fld 6 w 8) (fld 6 w 2) (fld 2 w 0))
  | 62 => .ok (.amoOr (guardOf w) (fld 6 w 14) (fld 6 w 8) (fld 6 w 2) (fld 2 w 0))
  | 63 => .ok (.amoXor (guardOf w) (fld 6 w 14) (fld 6 w 8) (fld 6 w 2) (fld 2 w 0))
  | 64 => .ok (.amoMax (guardOf w) (fld 6 w 14) (fld 6 w 8) (fld 6 w 2) (fld 2 w 0))
  | 65 => .ok (.amoMin (guardOf w) (fld 6 w 14) (fld 6 w 8) (fld 6 w 2) (fld 2 w 0))
  | 66 => .ok (.amoXchg (guardOf w) (fld 6 w 14) (fld 6 w 8) (fld 6 w 2) (fld 2 w 0))
  | 67 => .ok (.amoCas (guardOf w) (fld 6 w 14) (fld 6 w 8) (fld 6 w 2) (fld 2 w 0))
  | 68 => .ok (.amob (guardOf w) (fld 6 w 14) (fld 6 w 8) (fld 6 w 2) (fld 2 w 0))
  | 69 => .ok (.amoAddR (guardOf w) (fld 6 w 14) (fld 6 w 8) (fld 6 w 2) (fld 2 w 0))
  | 70 => .ok (.amoAndR (guardOf w) (fld 6 w 14) (fld 6 w 8) (fld 6 w 2) (fld 2 w 0))
  | 71 => .ok (.amoOrR (guardOf w) (fld 6 w 14) (fld 6 w 8) (fld 6 w 2) (fld 2 w 0))
  | 72 => .ok (.amoXorR (guardOf w) (fld 6 w 14) (fld 6 w 8) (fld 6 w 2) (fld 2 w 0))
  | 73 => .ok (.amoMaxR (guardOf w) (fld 6 w 14) (fld 6 w 8) (fld 6 w 2) (fld 2 w 0))
  | 74 => .ok (.amoMinR (guardOf w) (fld 6 w 14) (fld 6 w 8) (fld 6 w 2) (fld 2 w 0))
  | 75 => .ok (.amoXchgR (guardOf w) (fld 6 w 14) (fld 6 w 8) (fld 6 w 2) (fld 2 w 0))
  | 76 => .ok (.amoCasR (guardOf w) (fld 6 w 14) (fld 6 w 8) (fld 6 w 2) (fld 2 w 0))
  | 77 => .ok (.amobR (guardOf w) (fld 6 w 14) (fld 6 w 8) (fld 6 w 2) (fld 2 w 0))
  | _ => .error .undefined

/-- The opcode map of the ar slot: steps 4 to 7 of Table 5-12 that the word alone decides. -/
def decodeAr (w : Nat) : Except DecodeError Instr :=
  match opcodeOf w with
  | 0 => ifRes0 (w % 2 ^ 20) (.nopSlot .ar (guardOf w))
  | 1 => ifRes0 (w % 2 ^ 4) (.apush (guardOf w) (fld 5 w 15) (fld 6 w 9) (fld 2 w 7) (fld 3 w 4))
  | 2 => ifRes0 (w / 2 ^ 4 % 2 ^ 16) (.ashf (guardOf w) (fld 4 w 0))
  | 3 => ifRes0 (w % 2 ^ 4) (.aacc (guardOf w) (fld 5 w 15) (fld 6 w 9) (fld 2 w 7) (fld 3 w 4))
  | 4 => ifRes0 (w % 2 ^ 4 + w / 2 ^ 7 % 2 ^ 2) (.adrn (guardOf w) (fld 5 w 15) (fld 6 w 9) (fld 3 w 4))
  | 5 => ifRes0 (w % 2 ^ 7) (.alds (guardOf w) (fld 5 w 15) (fld 6 w 9) (fld 2 w 7))
  | 6 => ifRes0 (w % 2 ^ 18) (.aswp (guardOf w) (fld 2 w 18))
  | 7 => ifRes0 (w % 2 ^ 18) (.asel (guardOf w) (fld 2 w 18))
  | 8 =>
    if fld 1 w 10 = 0 then ifRes0 (w % 2 ^ 10) (.acfg (guardOf w) (fld 3 w 17) (fld 6 w 11))
    else ifRes0 (w / 2 ^ 11 % 2 ^ 6) (.acfgImm (guardOf w) (fld 3 w 17) (fld 10 w 0))
  | 9 => ifRes0 (w % 2 ^ 17) (.azr (guardOf w) (fld 3 w 17))
  | 10 => ifRes0 (w % 2 ^ 10) (.afac (guardOf w) (fld 4 w 16) (fld 2 w 14) (fld 3 w 11) (fld 1 w 10))
  | 11 => ifRes0 (w % 2 ^ 11) (.awm (guardOf w) (fld 3 w 17) (fld 6 w 11))
  | _ => .error .undefined

/-- The opcode map of the ve slot: steps 4 to 7 of Table 5-12 that the word alone decides. -/
def decodeVe (w : Nat) : Except DecodeError Instr :=
  match opcodeOf w with
  | 0 => ifRes0 (w % 2 ^ 20) (.nopSlot .ve (guardOf w))
  | 1 => ifRes0 (w % 2 ^ 5) (.vadd (guardOf w) (fld 5 w 15) (fld 5 w 10) (fld 5 w 5))
  | 2 => ifRes0 (w % 2 ^ 5) (.vsub (guardOf w) (fld 5 w 15) (fld 5 w 10) (fld 5 w 5))
  | 3 => ifRes0 (w % 2 ^ 5) (.vmul (guardOf w) (fld 5 w 15) (fld 5 w 10) (fld 5 w 5))
  | 4 => .ok (.vfma (guardOf w) (fld 5 w 15) (fld 5 w 10) (fld 5 w 5) (fld 5 w 0))
  | 5 => .ok (.vfms (guardOf w) (fld 5 w 15) (fld 5 w 10) (fld 5 w 5) (fld 5 w 0))
  | 6 => ifRes0 (w % 2 ^ 5) (.vmax (guardOf w) (fld 5 w 15) (fld 5 w 10) (fld 5 w 5))
  | 7 => ifRes0 (w % 2 ^ 5) (.vmin (guardOf w) (fld 5 w 15) (fld 5 w 10) (fld 5 w 5))
  | 8 => ifRes0 (w % 2 ^ 10) (.vabs (guardOf w) (fld 5 w 15) (fld 5 w 10))
  | 9 => ifRes0 (w % 2 ^ 10) (.vneg (guardOf w) (fld 5 w 15) (fld 5 w 10))
  | 10 => .ok (.vclamp (guardOf w) (fld 5 w 15) (fld 5 w 10) (fld 5 w 5) (fld 5 w 0))
  | 11 => ifRes0 (w % 2 ^ 10) (.vexp (guardOf w) (fld 5 w 15) (fld 5 w 10))
  | 12 => ifRes0 (w % 2 ^ 10) (.vexp2 (guardOf w) (fld 5 w 15) (fld 5 w 10))
  | 13 => ifRes0 (w % 2 ^ 10) (.vlog2 (guardOf w) (fld 5 w 15) (fld 5 w 10))
  | 14 => ifRes0 (w % 2 ^ 10) (.vrcp (guardOf w) (fld 5 w 15) (fld 5 w 10))
  | 15 => ifRes0 (w % 2 ^ 10) (.vrsq (guardOf w) (fld 5 w 15) (fld 5 w 10))
  | 16 => ifRes0 (w % 2 ^ 10) (.vsqrt (guardOf w) (fld 5 w 15) (fld 5 w 10))
  | 17 => ifRes0 (w % 2 ^ 10) (.vtanh (guardOf w) (fld 5 w 15) (fld 5 w 10))
  | 18 => ifRes0 (w % 2 ^ 10) (.vsigm (guardOf w) (fld 5 w 15) (fld 5 w 10))
  | 19 => if w % 16 < 10 then ifRes0 (w / 2 ^ 4 % 2 ^ 1) (.vcmp (guardOf w) (fld 5 w 15) (fld 5 w 10) (fld 5 w 5) (fld 4 w 0)) else .error .undefined
  | 20 => .ok (.vsel (guardOf w) (fld 5 w 15) (fld 5 w 10) (fld 5 w 5) (fld 5 w 0))
  | 21 => ifRes0 (w % 2 ^ 5) (.vand (guardOf w) (fld 5 w 15) (fld 5 w 10) (fld 5 w 5))
  | 22 => ifRes0 (w % 2 ^ 5) (.vor (guardOf w) (fld 5 w 15) (fld 5 w 10) (fld 5 w 5))
  | 23 => ifRes0 (w % 2 ^ 5) (.vxor (guardOf w) (fld 5 w 15) (fld 5 w 10) (fld 5 w 5))
  | 24 => ifRes0 (w % 2 ^ 5) (.vshl (guardOf w) (fld 5 w 15) (fld 5 w 10) (fld 5 w 5))
  | 25 => ifRes0 (w % 2 ^ 5) (.vshr (guardOf w) (fld 5 w 15) (fld 5 w 10) (fld 5 w 5))
  | 26 => ifRes0 (w % 2 ^ 3 + w / 2 ^ 5 % 2 ^ 5) (.vcvt (guardOf w) (fld 5 w 15) (fld 5 w 10) (fld 2 w 3))
  | 27 => ifRes0 (w % 2 ^ 3 + w / 2 ^ 5 % 2 ^ 5) (.vqnt (guardOf w) (fld 5 w 15) (fld 5 w 10) (fld 2 w 3))
  | 28 => ifRes0 (w % 2 ^ 10) (.vdqnt (guardOf w) (fld 5 w 15) (fld 5 w 10))
  | 29 => ifRes0 (w % 2 ^ 10) (.vcbk (guardOf w) (fld 5 w 15) (fld 5 w 10))
  | 30 => ifRes0 (w % 2 ^ 10) (.vsum (guardOf w) (fld 5 w 15) (fld 5 w 10))
  | 31 => ifRes0 (w % 2 ^ 10) (.vmaxr (guardOf w) (fld 5 w 15) (fld 5 w 10))
  | 32 => ifRes0 (w % 2 ^ 10) (.vminr (guardOf w) (fld 5 w 15) (fld 5 w 10))
  | 33 => ifRes0 (w % 2 ^ 10) (.vscan (guardOf w) (fld 5 w 15) (fld 5 w 10))
  | 34 => ifRes0 (w % 2 ^ 5) (.vperm (guardOf w) (fld 5 w 15) (fld 5 w 10) (fld 5 w 5))
  | 35 => ifRes0 (w % 2 ^ 9) (.vbcast (guardOf w) (fld 5 w 15) (fld 6 w 9))
  | 36 => ifRes0 (w % 2 ^ 9) (.viota (guardOf w) (fld 5 w 15) (fld 6 w 9))
  | 37 => ifRes0 (w % 2 ^ 10) (.vpopc (guardOf w) (fld 5 w 15) (fld 5 w 10))
  | 38 => ifRes0 (w % 2 ^ 5) (.vcmpr (guardOf w) (fld 5 w 15) (fld 5 w 10) (fld 5 w 5))
  | 39 => ifRes0 (w % 2 ^ 5) (.vexpd (guardOf w) (fld 5 w 15) (fld 5 w 10) (fld 5 w 5))
  | 40 => ifRes0 (w % 2 ^ 10) (.vmov (guardOf w) (fld 5 w 15) (fld 5 w 10))
  | 41 => ifRes0 (w % 2 ^ 3) (.vrng (guardOf w) (fld 5 w 15) (fld 6 w 9) (fld 6 w 3))
  | _ => .error .undefined

/-- The opcode map of the mx slot: steps 4 to 7 of Table 5-12 that the word alone decides. -/
def decodeMx (w : Nat) : Except DecodeError Instr :=
  match opcodeOf w with
  | 0 => ifRes0 (w % 2 ^ 20) (.nopSlot .mx (guardOf w))
  | 1 => ifRes0 (w % 2 ^ 11) (.mld (guardOf w) (fld 4 w 16) (fld 5 w 11))
  | 2 => ifRes0 (w % 2 ^ 11) (.mst (guardOf w) (fld 4 w 16) (fld 5 w 11))
  | 3 => ifRes0 (w % 2 ^ 16) (.mzr (guardOf w) (fld 4 w 16))
  | 4 => ifRes0 (w % 2 ^ 12) (.mcpy (guardOf w) (fld 4 w 16) (fld 4 w 12))
  | 5 => ifRes0 (w % 2 ^ 8) (.mmul (guardOf w) (fld 4 w 16) (fld 4 w 12) (fld 4 w 8))
  | 6 => ifRes0 (w % 2 ^ 8) (.madd (guardOf w) (fld 4 w 16) (fld 4 w 12) (fld 4 w 8))
  | 7 => ifRes0 (w % 2 ^ 10) (.mscl (guardOf w) (fld 4 w 16) (fld 6 w 10))
  | 8 => ifRes0 (w % 2 ^ 12) (.mrcmp (guardOf w) (fld 4 w 16) (fld 4 w 12))
  | 9 => ifRes0 (w % 2 ^ 12) (.mdns (guardOf w) (fld 4 w 16) (fld 4 w 12))
  | 10 =>
    if w % 2 ^ 5 ≠ 0 then .error .reserved
    else if w / 2 ^ 5 % 128 ≤ 64 then .ok (.mfac (guardOf w) (fld 4 w 16) (fld 4 w 12) (fld 7 w 5)) else .error .operand
  | 11 => ifRes0 (w % 2 ^ 12) (.mtrn (guardOf w) (fld 4 w 16) (fld 4 w 12))
  | 12 => ifRes0 (w % 2 ^ 10) (.mrnk (guardOf w) (fld 4 w 16) (fld 6 w 10))
  | 13 => ifRes0 (w % 2 ^ 10) (.mocc (guardOf w) (fld 4 w 16) (fld 6 w 10))
  | 14 => ifRes0 (w % 2 ^ 6) (.mapl (guardOf w) (fld 5 w 15) (fld 5 w 10) (fld 4 w 6))
  | _ => .error .undefined

/-- The opcode map of the cp slot: steps 4 to 7 of Table 5-12 that the word alone decides. -/
def decodeCp (w : Nat) : Except DecodeError Instr :=
  match opcodeOf w with
  | 0 => ifRes0 (w % 2 ^ 20) (.nopSlot .cp (guardOf w))
  | 1 => ifRes0 (w % 2 ^ 6) (.cpy (guardOf w) (fld 4 w 16) (fld 5 w 11) (fld 5 w 6))
  | 2 => ifRes0 (w % 2 ^ 6) (.cpt (guardOf w) (fld 4 w 16) (fld 5 w 11) (fld 5 w 6))
  | 3 =>
    if w % 2 ^ 4 ≠ 0 then .error .reserved
    else if w / 2 ^ 16 % 16 ≤ 13 then .ok (.cpq (guardOf w) (fld 4 w 16) (fld 5 w 11) (fld 5 w 6) (fld 2 w 4)) else .error .operand
  | 4 =>
    if w % 2 ^ 4 ≠ 0 then .error .reserved
    else if 14 ≤ w / 2 ^ 16 % 16 then .ok (.cpqs (guardOf w) (fld 4 w 16) (fld 5 w 11) (fld 5 w 6) (fld 2 w 4)) else .error .operand
  | 5 => ifRes0 (w % 2 ^ 6) (.cpz (guardOf w) (fld 4 w 16) (fld 5 w 11) (fld 5 w 6))
  | 6 => ifRes0 (w % 2 ^ 6) (.cpx (guardOf w) (fld 4 w 16) (fld 5 w 11) (fld 5 w 6))
  | 7 => ifRes0 (w % 2 ^ 6) (.cpk (guardOf w) (fld 4 w 16) (fld 5 w 11) (fld 5 w 6))
  | 8 => ifRes0 (w % 2 ^ 8) (.cpbs (guardOf w) (fld 4 w 16) (fld 3 w 13) (fld 5 w 8))
  | 9 => ifRes0 (w % 2 ^ 16) (.cpw (guardOf w) (fld 4 w 16))
  | 10 => ifRes0 (w % 2 ^ 16) (.cpab (guardOf w) (fld 4 w 16))
  | 11 => ifRes0 (w % 2 ^ 11) (.cpf (guardOf w) (fld 4 w 16) (fld 5 w 11))
  | 12 => ifRes0 (w % 2 ^ 6) (.cpr (guardOf w) (fld 4 w 16) (fld 5 w 11) (fld 5 w 6))
  | _ => .error .undefined

/-- The opcode map of the sp slot: steps 4 to 7 of Table 5-12 that the word alone decides. -/
def decodeSp (w : Nat) : Except DecodeError Instr :=
  match opcodeOf w with
  | 0 => ifRes0 (w % 2 ^ 20) (.nopSlot .sp (guardOf w))
  | 1 => ifRes0 (w % 2 ^ 5) (.gth (guardOf w) (fld 5 w 15) (fld 5 w 10) (fld 5 w 5))
  | 2 => ifRes0 (w % 2 ^ 5) (.sct (guardOf w) (fld 5 w 15) (fld 5 w 10) (fld 5 w 5))
  | 3 => ifRes0 (w % 2 ^ 5) (.scta (guardOf w) (fld 5 w 15) (fld 5 w 10) (fld 5 w 5))
  | 4 => ifRes0 (w % 2 ^ 5) (.flt (guardOf w) (fld 5 w 15) (fld 5 w 10) (fld 5 w 5))
  | 5 => ifRes0 (w % 2 ^ 5) (.bmk (guardOf w) (fld 5 w 15) (fld 5 w 10) (fld 5 w 5))
  | 6 => ifRes0 (w % 2 ^ 9) (.cnt (guardOf w) (fld 6 w 14) (fld 5 w 9))
  | 7 => ifRes0 (w % 2 ^ 5 + w / 2 ^ 15 % 2 ^ 5) (.dfr (guardOf w) (fld 5 w 10) (fld 5 w 5))
  | 8 => ifRes0 (w % 2 ^ 10) (.dfd (guardOf w) (fld 5 w 15) (fld 5 w 10))
  | _ => .error .undefined

/-- The opcode map of the sy slot: steps 4 to 7 of Table 5-12 that the word alone decides. -/
def decodeSy (w : Nat) : Except DecodeError Instr :=
  match opcodeOf w with
  | 0 => ifRes0 (w % 2 ^ 20) (.nopSlot .sy (guardOf w))
  | 1 => ifRes0 (w % 2 ^ 17) (.phase (guardOf w) (fld 3 w 17))
  | 2 => ifRes0 (w % 2 ^ 14) (.bara (guardOf w) (fld 6 w 14))
  | 3 => ifRes0 (w % 2 ^ 14) (.barw (guardOf w) (fld 6 w 14))
  | 4 => ifRes0 (w % 2 ^ 14) (.bar (guardOf w) (fld 6 w 14))
  | 5 => ifRes0 (w % 2 ^ 15) (.pub (guardOf w) (fld 5 w 15))
  | 6 => ifRes0 (w % 2 ^ 17) (.fence (guardOf w) (fld 3 w 17))
  | 7 => ifRes0 (w % 2 ^ 20) (.xbeg (guardOf w))
  | 8 => ifRes0 (w % 2 ^ 20) (.xend (guardOf w))
  | 9 => ifRes0 (w % 2 ^ 20) (.xabt (guardOf w))
  | 10 =>
    if w / 2 ^ 16 % 16 = 0 then ifRes0 (w % 2 ^ 8) (.collAr (guardOf w) (fld 8 w 8))
    else if w / 2 ^ 16 % 16 = 1 then ifRes0 (w % 2 ^ 8) (.collRs (guardOf w) (fld 8 w 8))
    else if w / 2 ^ 16 % 16 = 2 then ifRes0 (w % 2 ^ 8) (.collAg (guardOf w) (fld 8 w 8))
    else if w / 2 ^ 16 % 16 = 3 then ifRes0 (w % 2 ^ 8) (.collA2a (guardOf w) (fld 8 w 8))
    else if w / 2 ^ 16 % 16 = 4 then ifRes0 (w % 2 ^ 8) (.collBc (guardOf w) (fld 8 w 8))
    else .error .undefined
  | 11 => ifRes0 (w % 2 ^ 8 + w / 2 ^ 16 % 2 ^ 4) (.cwt (guardOf w) (fld 8 w 8))
  | 12 => ifRes0 (w % 2 ^ 10) (.plan (guardOf w) (fld 10 w 10))
  | 13 => ifRes0 (w % 2 ^ 10) (.pexec (guardOf w) (fld 10 w 10))
  | 14 => ifRes0 (w % 2 ^ 10) (.pwait (guardOf w) (fld 10 w 10))
  | 15 => ifRes0 (w % 2 ^ 10) (.hint (guardOf w) (fld 10 w 10))
  | 16 => ifRes0 (w % 2 ^ 10) (.pin (guardOf w) (fld 10 w 10))
  | 17 => ifRes0 (w % 2 ^ 10) (.unpin (guardOf w) (fld 10 w 10))
  | 18 => ifRes0 (w % 2 ^ 2) (.statr (guardOf w) (fld 6 w 14) (fld 12 w 2))
  | 19 => ifRes0 (w % 2 ^ 2 + w / 2 ^ 14 % 2 ^ 6) (.statw (guardOf w) (fld 12 w 2))
  | 20 => ifRes0 (w % 2 ^ 12) (.evs (guardOf w) (fld 8 w 12))
  | 21 => ifRes0 (w % 2 ^ 12) (.evw (guardOf w) (fld 8 w 12))
  | 22 => ifRes0 (w % 2 ^ 20) (.yld (guardOf w))
  | _ => .error .undefined

/-- The instruction that a word is in a slot, or the check that fails: step 1 (R16), then the slot's map (R74). -/
def decodeWord (k : Slot) (word : BitVec 32) : Except DecodeError Instr :=
  let w := word.toNat
  if (guardOf w).wf = false then .error .undefined
  else match k with
    | .br => decodeBr w
    | .sc => decodeSc w
    | .ar => decodeAr w
    | .ve => decodeVe w
    | .mx => decodeMx w
    | .cp => decodeCp w
    | .sp => decodeSp w
    | .sy => decodeSy w

/-- The header with the operand bits below it (Table 3-1). -/
def word (g : Guard) (op low : Nat) : BitVec 32 :=
  BitVec.ofNat 32 (g.p.toNat * 2 ^ 28 + g.n.toNat * 2 ^ 27 + op * 2 ^ 20 + low)

/-- A field's value at its place in the word. -/
def at_ {n : Nat} (x : BitVec n) (lo : Nat) : Nat := x.toNat * 2 ^ lo

/-- The word of a well-formed instruction (Tables 5-2 to 5-10); an event has none and takes 0. -/
def encode : Instr → BitVec 32
  | .nop g t => word g 0 (at_ t 16)
  | .nopSlot _ g => word g 0 (0)
  | .b g o => word g 1 (at_ o 0)
  | .jmp g t a => word g 2 (at_ t 16 + at_ a 10)
  | .call g o => word g 3 (at_ o 0)
  | .ret g t a => word g 4 (at_ t 16 + at_ a 10)
  | .loop g rs l => word g 5 (at_ rs 14 + at_ l 0)
  | .loopRot g rs l => word g 5 (8192 + at_ rs 14 + at_ l 0)
  | .loopPre g rs l => word g 5 (4096 + at_ rs 14 + at_ l 0)
  | .loopRotPre g rs l => word g 5 (12288 + at_ rs 14 + at_ l 0)
  | .lbrk g t => word g 6 (at_ t 16)
  | .pmark g t => word g 7 (at_ t 16)
  | .pset g t d => word g 8 (at_ t 16 + at_ d 12)
  | .pclr g t d => word g 9 (at_ t 16 + at_ d 12)
  | .pand g t d a b => word g 10 (at_ t 16 + at_ d 12 + at_ a 8 + at_ b 4)
  | .por g t d a b => word g 11 (at_ t 16 + at_ d 12 + at_ a 8 + at_ b 4)
  | .pxor g t d a b => word g 12 (at_ t 16 + at_ d 12 + at_ a 8 + at_ b 4)
  | .pnot g t d a => word g 13 (at_ t 16 + at_ d 12 + at_ a 8)
  | .endTask g t => word g 14 (at_ t 16)
  | .trap g t c => word g 15 (at_ t 16 + at_ c 0)
  | .rett g t => word g 16 (at_ t 16)
  | .spec g p o => word g 17 (at_ p 16 + at_ o 0)
  | .specx g t => word g 18 (at_ t 16)
  | .dcpl g t => word g 19 (at_ t 16)
  | .rjn g t => word g 20 (at_ t 16)
  | .sread g t d c => word g 21 (at_ t 16 + at_ d 10 + at_ c 0)
  | .sreadWm g t d w => word g 21 (80 + at_ t 16 + at_ d 10 + at_ w 0)
  | .sreadSrec g t d r => word g 21 (48 + at_ t 16 + at_ d 10 + at_ r 0)
  | .sreadSat g t d x => word g 21 (104 + at_ t 16 + at_ d 10 + at_ x 0)
  | .swrite g t rs c => word g 22 (at_ t 16 + at_ rs 10 + at_ c 0)
  | .swriteTstat g t rs => word g 22 (at_ t 16 + at_ rs 10)
  | .swriteTpc g t rs => word g 22 (1 + at_ t 16 + at_ rs 10)
  | .swriteIsav g t rs => word g 22 (3 + at_ t 16 + at_ rs 10)
  | .swriteSrec g t rs r => word g 22 (48 + at_ t 16 + at_ rs 10 + at_ r 0)
  | .swriteWm g t rs w => word g 22 (80 + at_ t 16 + at_ rs 10 + at_ w 0)
  | .swriteMtol g t rs => word g 22 (88 + at_ t 16 + at_ rs 10)
  | .swriteLstat g t rs => word g 22 (90 + at_ t 16 + at_ rs 10)
  | .swriteSat g t rs x => word g 22 (104 + at_ t 16 + at_ rs 10 + at_ x 0)
  | .bkpt g t k => word g 23 (at_ t 16 + at_ k 0)
  | .add g d a b => word g 1 (at_ d 14 + at_ a 8 + at_ b 2)
  | .sub g d a b => word g 2 (at_ d 14 + at_ a 8 + at_ b 2)
  | .mul g d a b => word g 3 (at_ d 14 + at_ a 8 + at_ b 2)
  | .mulh g d a b => word g 4 (at_ d 14 + at_ a 8 + at_ b 2)
  | .mulhz g d a b => word g 5 (at_ d 14 + at_ a 8 + at_ b 2)
  | .div g d a b => word g 6 (at_ d 14 + at_ a 8 + at_ b 2)
  | .divz g d a b => word g 7 (at_ d 14 + at_ a 8 + at_ b 2)
  | .rem g d a b => word g 8 (at_ d 14 + at_ a 8 + at_ b 2)
  | .remz g d a b => word g 9 (at_ d 14 + at_ a 8 + at_ b 2)
  | .and g d a b => word g 10 (at_ d 14 + at_ a 8 + at_ b 2)
  | .or g d a b => word g 11 (at_ d 14 + at_ a 8 + at_ b 2)
  | .xor g d a b => word g 12 (at_ d 14 + at_ a 8 + at_ b 2)
  | .andn g d a b => word g 13 (at_ d 14 + at_ a 8 + at_ b 2)
  | .shl g d a b => word g 14 (at_ d 14 + at_ a 8 + at_ b 2)
  | .shr g d a b => word g 15 (at_ d 14 + at_ a 8 + at_ b 2)
  | .sar g d a b => word g 16 (at_ d 14 + at_ a 8 + at_ b 2)
  | .rol g d a b => word g 17 (at_ d 14 + at_ a 8 + at_ b 2)
  | .min g d a b => word g 18 (at_ d 14 + at_ a 8 + at_ b 2)
  | .max g d a b => word g 19 (at_ d 14 + at_ a 8 + at_ b 2)
  | .minz g d a b => word g 20 (at_ d 14 + at_ a 8 + at_ b 2)
  | .maxz g d a b => word g 21 (at_ d 14 + at_ a 8 + at_ b 2)
  | .clz g d a => word g 22 (at_ d 14 + at_ a 8)
  | .ctz g d a => word g 23 (at_ d 14 + at_ a 8)
  | .popc g d a => word g 24 (at_ d 14 + at_ a 8)
  | .sel g p d a b => word g 25 (at_ p 16 + at_ d 11 + at_ a 6 + at_ b 1)
  | .addi g d a im => word g 26 (at_ d 14 + at_ a 8 + at_ im 0)
  | .andi g d a im => word g 27 (at_ d 14 + at_ a 8 + at_ im 0)
  | .ori g d a im => word g 28 (at_ d 14 + at_ a 8 + at_ im 0)
  | .xori g d a im => word g 29 (at_ d 14 + at_ a 8 + at_ im 0)
  | .shli g d a im => word g 30 (at_ d 14 + at_ a 8 + at_ im 0)
  | .shri g d a im => word g 31 (at_ d 14 + at_ a 8 + at_ im 0)
  | .sari g d a im => word g 32 (at_ d 14 + at_ a 8 + at_ im 0)
  | .li g d im => word g 33 (at_ d 14 + at_ im 0)
  | .lih g d im => word g 34 (at_ d 14 + at_ im 0)
  | .cmp g p c a b => word g 35 (at_ p 16 + at_ c 12 + at_ a 6 + at_ b 0)
  | .cmpi g p c a im => word g 36 (at_ p 16 + at_ c 13 + at_ a 7 + at_ im 0)
  | .ldB g d a k o => word g 37 (at_ d 14 + at_ a 8 + at_ k 6 + at_ o 0)
  | .ldBz g d a k o => word g 38 (at_ d 14 + at_ a 8 + at_ k 6 + at_ o 0)
  | .ldH g d a k o => word g 39 (at_ d 14 + at_ a 8 + at_ k 6 + at_ o 0)
  | .ldHz g d a k o => word g 40 (at_ d 14 + at_ a 8 + at_ k 6 + at_ o 0)
  | .ldW g d a k o => word g 41 (at_ d 14 + at_ a 8 + at_ k 6 + at_ o 0)
  | .ldWz g d a k o => word g 42 (at_ d 14 + at_ a 8 + at_ k 6 + at_ o 0)
  | .ldD g d a k o => word g 43 (at_ d 14 + at_ a 8 + at_ k 6 + at_ o 0)
  | .stB g d a k o => word g 44 (at_ d 14 + at_ a 8 + at_ k 6 + at_ o 0)
  | .stH g d a k o => word g 45 (at_ d 14 + at_ a 8 + at_ k 6 + at_ o 0)
  | .stW g d a k o => word g 46 (at_ d 14 + at_ a 8 + at_ k 6 + at_ o 0)
  | .stD g d a k o => word g 47 (at_ d 14 + at_ a 8 + at_ k 6 + at_ o 0)
  | .ldh g h a k o => word g 48 (at_ h 15 + at_ a 9 + at_ k 7 + at_ o 0)
  | .sth g h a k o => word g 49 (at_ h 15 + at_ a 9 + at_ k 7 + at_ o 0)
  | .hmk g h rs => word g 50 (at_ h 15 + at_ rs 9)
  | .hset g h rs f => word g 51 (at_ h 15 + at_ rs 9 + at_ f 5)
  | .hget g h rs f => word g 52 (at_ h 15 + at_ rs 9 + at_ f 5)
  | .stg g e im a => word g 53 (at_ e 18 + at_ im 15 + at_ a 9)
  | .rng g d a b => word g 54 (at_ d 14 + at_ a 8 + at_ b 2)
  | .cvt g d a f m x => word g 55 (at_ d 14 + at_ a 8 + at_ f 3 + at_ m 1 + at_ x 0)
  | .faddS g d a b => word g 56 (at_ d 14 + at_ a 8 + at_ b 2)
  | .fmulS g d a b => word g 57 (at_ d 14 + at_ a 8 + at_ b 2)
  | .ffmaS g d a b => word g 58 (at_ d 14 + at_ a 8 + at_ b 2)
  | .fcmp g p c a b => word g 59 (at_ p 16 + at_ c 12 + at_ a 6 + at_ b 0)
  | .amoAdd g d a b k => word g 60 (at_ d 14 + at_ a 8 + at_ b 2 + at_ k 0)
  | .amoAnd g d a b k => word g 61 (at_ d 14 + at_ a 8 + at_ b 2 + at_ k 0)
  | .amoOr g d a b k => word g 62 (at_ d 14 + at_ a 8 + at_ b 2 + at_ k 0)
  | .amoXor g d a b k => word g 63 (at_ d 14 + at_ a 8 + at_ b 2 + at_ k 0)
  | .amoMax g d a b k => word g 64 (at_ d 14 + at_ a 8 + at_ b 2 + at_ k 0)
  | .amoMin g d a b k => word g 65 (at_ d 14 + at_ a 8 + at_ b 2 + at_ k 0)
  | .amoXchg g d a b k => word g 66 (at_ d 14 + at_ a 8 + at_ b 2 + at_ k 0)
  | .amoCas g d a b k => word g 67 (at_ d 14 + at_ a 8 + at_ b 2 + at_ k 0)
  | .amob g d a b k => word g 68 (at_ d 14 + at_ a 8 + at_ b 2 + at_ k 0)
  | .amoAddR g d a b k => word g 69 (at_ d 14 + at_ a 8 + at_ b 2 + at_ k 0)
  | .amoAndR g d a b k => word g 70 (at_ d 14 + at_ a 8 + at_ b 2 + at_ k 0)
  | .amoOrR g d a b k => word g 71 (at_ d 14 + at_ a 8 + at_ b 2 + at_ k 0)
  | .amoXorR g d a b k => word g 72 (at_ d 14 + at_ a 8 + at_ b 2 + at_ k 0)
  | .amoMaxR g d a b k => word g 73 (at_ d 14 + at_ a 8 + at_ b 2 + at_ k 0)
  | .amoMinR g d a b k => word g 74 (at_ d 14 + at_ a 8 + at_ b 2 + at_ k 0)
  | .amoXchgR g d a b k => word g 75 (at_ d 14 + at_ a 8 + at_ b 2 + at_ k 0)
  | .amoCasR g d a b k => word g 76 (at_ d 14 + at_ a 8 + at_ b 2 + at_ k 0)
  | .amobR g d a b k => word g 77 (at_ d 14 + at_ a 8 + at_ b 2 + at_ k 0)
  | .apush g h rs l t => word g 1 (at_ h 15 + at_ rs 9 + at_ l 7 + at_ t 4)
  | .ashf g b => word g 2 (at_ b 0)
  | .aacc g h rs l t => word g 3 (at_ h 15 + at_ rs 9 + at_ l 7 + at_ t 4)
  | .adrn g h rs t => word g 4 (at_ h 15 + at_ rs 9 + at_ t 4)
  | .alds g h rs l => word g 5 (at_ h 15 + at_ rs 9 + at_ l 7)
  | .aswp g l => word g 6 (at_ l 18)
  | .asel g l => word g 7 (at_ l 18)
  | .acfg g t rs => word g 8 (at_ t 17 + at_ rs 11)
  | .acfgImm g t im => word g 8 (1024 + at_ t 17 + at_ im 0)
  | .azr g t => word g 9 (at_ t 17)
  | .afac g m l t p => word g 10 (at_ m 16 + at_ l 14 + at_ t 11 + at_ p 10)
  | .awm g t rs => word g 11 (at_ t 17 + at_ rs 11)
  | .vadd g d a b => word g 1 (at_ d 15 + at_ a 10 + at_ b 5)
  | .vsub g d a b => word g 2 (at_ d 15 + at_ a 10 + at_ b 5)
  | .vmul g d a b => word g 3 (at_ d 15 + at_ a 10 + at_ b 5)
  | .vfma g d a b c => word g 4 (at_ d 15 + at_ a 10 + at_ b 5 + at_ c 0)
  | .vfms g d a b c => word g 5 (at_ d 15 + at_ a 10 + at_ b 5 + at_ c 0)
  | .vmax g d a b => word g 6 (at_ d 15 + at_ a 10 + at_ b 5)
  | .vmin g d a b => word g 7 (at_ d 15 + at_ a 10 + at_ b 5)
  | .vabs g d a => word g 8 (at_ d 15 + at_ a 10)
  | .vneg g d a => word g 9 (at_ d 15 + at_ a 10)
  | .vclamp g d a b c => word g 10 (at_ d 15 + at_ a 10 + at_ b 5 + at_ c 0)
  | .vexp g d a => word g 11 (at_ d 15 + at_ a 10)
  | .vexp2 g d a => word g 12 (at_ d 15 + at_ a 10)
  | .vlog2 g d a => word g 13 (at_ d 15 + at_ a 10)
  | .vrcp g d a => word g 14 (at_ d 15 + at_ a 10)
  | .vrsq g d a => word g 15 (at_ d 15 + at_ a 10)
  | .vsqrt g d a => word g 16 (at_ d 15 + at_ a 10)
  | .vtanh g d a => word g 17 (at_ d 15 + at_ a 10)
  | .vsigm g d a => word g 18 (at_ d 15 + at_ a 10)
  | .vcmp g d a b c => word g 19 (at_ d 15 + at_ a 10 + at_ b 5 + at_ c 0)
  | .vsel g d a b c => word g 20 (at_ d 15 + at_ a 10 + at_ b 5 + at_ c 0)
  | .vand g d a b => word g 21 (at_ d 15 + at_ a 10 + at_ b 5)
  | .vor g d a b => word g 22 (at_ d 15 + at_ a 10 + at_ b 5)
  | .vxor g d a b => word g 23 (at_ d 15 + at_ a 10 + at_ b 5)
  | .vshl g d a b => word g 24 (at_ d 15 + at_ a 10 + at_ b 5)
  | .vshr g d a b => word g 25 (at_ d 15 + at_ a 10 + at_ b 5)
  | .vcvt g d a m => word g 26 (at_ d 15 + at_ a 10 + at_ m 3)
  | .vqnt g d a m => word g 27 (at_ d 15 + at_ a 10 + at_ m 3)
  | .vdqnt g d a => word g 28 (at_ d 15 + at_ a 10)
  | .vcbk g d a => word g 29 (at_ d 15 + at_ a 10)
  | .vsum g d a => word g 30 (at_ d 15 + at_ a 10)
  | .vmaxr g d a => word g 31 (at_ d 15 + at_ a 10)
  | .vminr g d a => word g 32 (at_ d 15 + at_ a 10)
  | .vscan g d a => word g 33 (at_ d 15 + at_ a 10)
  | .vperm g d a b => word g 34 (at_ d 15 + at_ a 10 + at_ b 5)
  | .vbcast g d a => word g 35 (at_ d 15 + at_ a 9)
  | .viota g d a => word g 36 (at_ d 15 + at_ a 9)
  | .vpopc g d a => word g 37 (at_ d 15 + at_ a 10)
  | .vcmpr g d a b => word g 38 (at_ d 15 + at_ a 10 + at_ b 5)
  | .vexpd g d a b => word g 39 (at_ d 15 + at_ a 10 + at_ b 5)
  | .vmov g d a => word g 40 (at_ d 15 + at_ a 10)
  | .vrng g d a b => word g 41 (at_ d 15 + at_ a 9 + at_ b 3)
  | .mld g m h => word g 1 (at_ m 16 + at_ h 11)
  | .mst g m h => word g 2 (at_ m 16 + at_ h 11)
  | .mzr g d => word g 3 (at_ d 16)
  | .mcpy g d a => word g 4 (at_ d 16 + at_ a 12)
  | .mmul g d a b => word g 5 (at_ d 16 + at_ a 12 + at_ b 8)
  | .madd g d a b => word g 6 (at_ d 16 + at_ a 12 + at_ b 8)
  | .mscl g m rs => word g 7 (at_ m 16 + at_ rs 10)
  | .mrcmp g d a => word g 8 (at_ d 16 + at_ a 12)
  | .mdns g d a => word g 9 (at_ d 16 + at_ a 12)
  | .mfac g d a c => word g 10 (at_ d 16 + at_ a 12 + at_ c 5)
  | .mtrn g d a => word g 11 (at_ d 16 + at_ a 12)
  | .mrnk g m rs => word g 12 (at_ m 16 + at_ rs 10)
  | .mocc g m rs => word g 13 (at_ m 16 + at_ rs 10)
  | .mapl g d a m => word g 14 (at_ d 15 + at_ a 10 + at_ m 6)
  | .cpy g c d rs => word g 1 (at_ c 16 + at_ d 11 + at_ rs 6)
  | .cpt g c d rs => word g 2 (at_ c 16 + at_ d 11 + at_ rs 6)
  | .cpq g c d rs m => word g 3 (at_ c 16 + at_ d 11 + at_ rs 6 + at_ m 4)
  | .cpqs g c d rs m => word g 4 (at_ c 16 + at_ d 11 + at_ rs 6 + at_ m 4)
  | .cpz g c d rs => word g 5 (at_ c 16 + at_ d 11 + at_ rs 6)
  | .cpx g c d rs => word g 6 (at_ c 16 + at_ d 11 + at_ rs 6)
  | .cpk g c d rs => word g 7 (at_ c 16 + at_ d 11 + at_ rs 6)
  | .cpbs g c z rs => word g 8 (at_ c 16 + at_ z 13 + at_ rs 8)
  | .cpw g c => word g 9 (at_ c 16)
  | .cpab g c => word g 10 (at_ c 16)
  | .cpf g c d => word g 11 (at_ c 16 + at_ d 11)
  | .cpr g c d rs => word g 12 (at_ c 16 + at_ d 11 + at_ rs 6)
  | .gth g d a b => word g 1 (at_ d 15 + at_ a 10 + at_ b 5)
  | .sct g d a b => word g 2 (at_ d 15 + at_ a 10 + at_ b 5)
  | .scta g d a b => word g 3 (at_ d 15 + at_ a 10 + at_ b 5)
  | .flt g d a b => word g 4 (at_ d 15 + at_ a 10 + at_ b 5)
  | .bmk g d a b => word g 5 (at_ d 15 + at_ a 10 + at_ b 5)
  | .cnt g d a => word g 6 (at_ d 14 + at_ a 9)
  | .dfr g a b => word g 7 (at_ a 10 + at_ b 5)
  | .dfd g d a => word g 8 (at_ d 15 + at_ a 10)
  | .phase g l => word g 1 (at_ l 17)
  | .bara g b => word g 2 (at_ b 14)
  | .barw g b => word g 3 (at_ b 14)
  | .bar g b => word g 4 (at_ b 14)
  | .pub g h => word g 5 (at_ h 15)
  | .fence g l => word g 6 (at_ l 17)
  | .xbeg g => word g 7 (0)
  | .xend g => word g 8 (0)
  | .xabt g => word g 9 (0)
  | .collAr g im => word g 10 (at_ im 8)
  | .collRs g im => word g 10 (65536 + at_ im 8)
  | .collAg g im => word g 10 (131072 + at_ im 8)
  | .collA2a g im => word g 10 (196608 + at_ im 8)
  | .collBc g im => word g 10 (262144 + at_ im 8)
  | .cwt g im => word g 11 (at_ im 8)
  | .plan g p => word g 12 (at_ p 10)
  | .pexec g p => word g 13 (at_ p 10)
  | .pwait g p => word g 14 (at_ p 10)
  | .hint g p => word g 15 (at_ p 10)
  | .pin g p => word g 16 (at_ p 10)
  | .unpin g p => word g 17 (at_ p 10)
  | .statr g d im => word g 18 (at_ d 14 + at_ im 2)
  | .statw g im => word g 19 (at_ im 2)
  | .evs g e => word g 20 (at_ e 12)
  | .evw g e => word g 21 (at_ e 12)
  | .yld g => word g 22 (0)
  | .resultLanding => 0
  | .variableLatencyResult => 0
  | .slipRelease _ => 0
  | .slipWaitTimeout _ => 0
  | .loopEndOfTrip => 0
  | .fetchFault => 0
  | .trapEntry => 0
  | .emulationSequence => 0
  | .emulationOverrun => 0
  | .safePointDistanceExceeded => 0
  | .speculationResolve => 0
  | .transactionAbort _ => 0
  | .mxCommandExecute _ => 0
  | .cpCommandExecute _ _ => 0
  | .spCommandExecute _ => 0
  | .syCommandExecute => 0
  | .queueFullEmptyTimeout _ _ => 0
  | .executionFault => 0
  | .streamElementDelivery _ => 0
  | .phaseBoundaryComplete _ => 0
  | .barrierGenerationComplete _ => 0
  | .collectiveOwnershipMove _ _ _ => 0
  | .collectiveComplete _ _ _ => 0
  | .memberTimeout _ _ => 0
  | .pexecAccept _ => 0
  | .planBreak _ => 0
  | .planBlockCommit _ => 0
  | .bindingPlaneUpdate _ _ => 0
  | .pageTableWalk _ => 0
  | .doorbell _ _ _ => 0
  | .frontEndRingRead _ _ => 0
  | .letterboxRead _ => 0
  | .letterboxRetire _ _ => 0
  | .overflowMaskReadClear _ => 0
  | .launchPortWrite _ _ _ => 0
  | .launchPortRefusalWrite _ _ _ _ => 0
  | .packetStart _ _ _ => 0
  | .operatingPointReached _ _ => 0
  | .clusterSramZeroing _ _ => 0
  | .taskRetire _ _ _ _ => 0
  | .launchComplete _ _ _ _ => 0
  | .schedulerFaultDelivery _ _ _ _ _ => 0
  | .timeSliceExpiry _ _ _ => 0
  | .classFloorOwed _ _ => 0
  | .preemptionRequest _ _ _ => 0
  | .contextSave _ => 0
  | .contextRestore _ _ _ => 0
  | .schedulerWatchdogExpiry _ => 0
  | .pluginCallTimeout _ _ => 0
  | .shootdown _ _ _ => 0
  | .createContext _ _ _ _ => 0
  | .destroyContext _ _ => 0
  | .writeRangeEntry _ _ _ _ => 0
  | .writeQueueEntry _ _ _ => 0
  | .enableQueue _ _ => 0
  | .disableQueue _ _ => 0
  | .admitImage _ _ _ _ _ => 0
  | .writeFmask _ _ _ => 0
  | .readClearMaskedCounter _ _ => 0
  | .openHostWindow _ _ _ _ _ => 0
  | .closeHostWindow _ _ => 0
  | .writeHostRange _ _ _ _ => 0
  | .bindContextJob _ _ _ => 0
  | .writeCollectiveGroup _ _ _ _ => 0
  | .requestPostmark _ _ _ _ => 0
  | .debugHalt _ _ _ => 0
  | .debugResume _ _ _ => 0
  | .debugStep _ _ _ => 0
  | .debugReadRegister _ _ _ _ => 0
  | .debugWriteRegister _ _ _ _ _ => 0
  | .debugEnableBreakpoints _ _ _ => 0
  | .debugDisableBreakpoints _ _ _ => 0
  | .debugRevoke _ _ _ => 0
  | .setPowerLimit _ _ => 0
  | .setPowerState _ _ => 0
  | .readHealthLog _ _ => 0
  | .fwOpen _ _ => 0
  | .fwWrite _ _ _ => 0
  | .fwCheck _ => 0
  | .fwFlip _ => 0
  | .stagePatch _ _ _ => 0
  | .livePatch _ _ _ => 0
  | .fwState _ => 0
  | .fwReset _ => 0
  | .clearLive _ => 0
  | .boot _ _ => 0
  | .powerLoss => 0
  | .ideEstablish => 0
  | .hostWindowRead _ _ _ => 0
  | .hostWindowWrite _ _ _ => 0
  | .flitReceive _ _ _ => 0
  | .transportDataReceive _ _ _ => 0
  | .transportAckReceive _ _ => 0
  | .transportNackReceive _ _ => 0
  | .transportKeepaliveReceive _ _ => 0
  | .retransmitTimeout _ => 0
  | .hostLinkLost => 0
  | .ideIntegrityFailure => 0
  | .scaleUpPlaneLost _ => 0
  | .scaleOutPortLost _ => 0
  | .overtemperature _ => 0
  | .deviceMemoryStackFailure _ => 0
  | .scrub _ _ => 0
  | .coreLost _ => 0
  | .healthLogPeriodic => 0
  | .unknownOpcode _ _ => 0
  | .switchPlaneUp _ => 0
  | .apertureRegisterWrite _ _ _ => 0

/-- The lowest-numbered slot of the list in which the word is an instruction. -/
def firstSlot (w : BitVec 32) : List Slot → Option (Slot × Instr)
  | [] => none
  | k :: ks =>
    match decodeWord k w with
    | .ok i => some (k, i)
    | .error _ => firstSlot w ks

/-- The slot word that a table word of at most 32 bits is, or the word of a whole bundle's slot that is not a nop: a table
row is one slot word, and the row's number alone does not name its slot, so the lowest-numbered slot in which the word is
an instruction is taken (log 5). -/
def tableSlotWord (nbits w : Nat) : Option (Slot × Instr) :=
  if nbits ≤ 32 then firstSlot (BitVec.ofNat 32 (w % 2 ^ nbits)) Slot.all
  else
    (Slot.all.filterMap fun k =>
      match decodeWord k (BitVec.ofNat 32 (w / 2 ^ (32 * k.idx))) with
      | .ok i => if BitVec.ofNat 32 (w / 2 ^ (32 * k.idx)) = 0 then none else some (k, i)
      | .error _ => none).head?

/-- The instruction the decoder reads from a table word (log 5 for the choice of its slot). -/
def decodeTableWord (nbits w : Nat) : Option Instr := (tableSlotWord nbits w).map (·.2)

end Sys2Proof
end

