-- ==== Sys2Proof/Config.lean ====
section
/-! DEFINITION. What an implementation fixes and the spec leaves open: the free values of the model, constants with no body, so that nothing proved can rest on a value of one. -/

namespace Sys2Proof.Config

/-- Whether a byte of a stopped, aborted or failed command's destination holds the value the command would have written
(true) or its prior value (false): draw number n (R165, R177, R229, R379). DESIGN CHOICE (log 6). -/
opaque freeByteIsNew : Nat → Bool

/-- A free bit pattern, draw number n, for a value to which the spec gives no rule (R221 for racing writes). DESIGN CHOICE (log 6). -/
opaque freeWord : Nat → Word

/-- A byte of the SLH-DSA-SHA2-192s signature that the holder of a public key's private half makes of a message: key, message,
byte number. The scheme is named by R313 and R359 and defined outside the spec (log 8). -/
opaque signatureByte : List Byte → List Byte → Nat → Byte

/-- The signature, 16,224 bytes long (R359). -/
def signatureOf (key msg : List Byte) : List Byte := (List.range 16224).map (signatureByte key msg)

/-- Do other bytes verify as a signature of a message under a key (log 8)? -/
opaque alsoVerifies : List Byte → List Byte → List Byte → Bool

/-- Whether a signature (third argument) of a message (second) verifies under a public key (first): its holder's does, and
which others do is a free value (log 8). -/
def signatureVerifies (key msg sig : List Byte) : Bool := sig == signatureOf key msg || alsoVerifies key msg sig

/-- The device identity signature over a postmark (R368, log 8). -/
opaque identityByte : List Byte → Nat → Byte

/-- The signature's bytes: one of SLH-DSA-SHA2-192s is 16,224 bytes long (R359). -/
def identitySignature (bs : List Byte) : List Byte := (List.range 16224).map (identityByte bs)

/-- The device certificate that follows a postmark (R368, log 8). -/
opaque deviceCertificate : List Byte

/-- AES-256-XTS of one aligned 64-byte block: key number, generation of that key, physical block address, plain bytes, and
which byte of the 64 (R318, log 8). -/
opaque xtsEncryptByte : Nat → Nat → Nat → List Byte → Nat → Byte

/-- The 64 stored bytes of a block. -/
def xtsEncrypt (key gen addr : Nat) (bs : List Byte) : List Byte := (List.range 64).map (xtsEncryptByte key gen addr bs)

/-- The inverse direction, for stored ciphertext that a host window wrote (R318, R325, log 8). -/
opaque xtsDecryptByte : Nat → Nat → Nat → List Byte → Nat → Byte

/-- The 64 plain bytes of a block. -/
def xtsDecrypt (key gen addr : Nat) (bs : List Byte) : List Byte := (List.range 64).map (xtsDecryptByte key gen addr bs)

/-- The die, 0 to 3, whose DRAM stack holds a physical page number: the spec gives each die 96 GiB (R6) and no map of
physical addresses to dies. DESIGN CHOICE (log 12). -/
opaque dieOfPage : Nat → BitVec 2

/-- Does another core of a fused row fault at the bundle, which releases the row (R238)? Draw number n. DESIGN CHOICE (log 16). -/
opaque rowReleased : Nat → Bool

/-- Do the other cores of a fused row stand at the safe point too, so that the row stops there as one (R239)? Draw number n. DESIGN
CHOICE (log 16). -/
opaque rowStops : Nat → Bool

/-- Does another follower of a released row differ from the leader at its rjn, which leaves every core of the row unfused
(R100)? Draw number n. DESIGN CHOICE (log 16). -/
opaque rowDiffers : Nat → Bool

/-- A word of the leader of a fused row, as a follower sees it at a bundle's entry: a register, its predicates, or the
address after its rjn (R99, R100). Draw number n. DESIGN CHOICE (log 16). -/
opaque leaderWord : Nat → Word

/-- Has the leader executed end while a follower waits at rjn (R100)? Draw number n. DESIGN CHOICE (log 16). -/
opaque leaderEnded : Nat → Bool

/-- The number from which the reserve of a compressed tensor's blocks comes where a query block names the tensor: its ID and
the address of its buffer (R258, R259). DESIGN CHOICE (log 13). -/
opaque blockReserve : Nat → Nat → Nat

/-- The code of an element of a contraction under FACTOR whose weight takes more than one tile of a matrix register: numbers that
name the operands (extents, formats, codes and scales of activation and weight, TOL, anchor, format), and the element's number.
R256 does not say how such a weight is factorised. DESIGN CHOICE (log 14). -/
opaque factorCode : List Nat → Nat → Nat

/-- Does a plan hold the result of a break in compressed form (R270)? Draw number n. DESIGN CHOICE (log 56). -/
opaque holdsCompressed : Nat → Bool

/-- The fastest frequency class that a package power limit in watts leaves (R338). DESIGN CHOICE (log 17). -/
opaque fcOfLimit : Nat → BitVec 2

/-- SHA-256 (R313, R359, R385), named by the spec and defined outside it (log 8). -/
opaque shaByte : List Byte → Nat → Byte

/-- The 32 bytes of the digest. -/
def sha256 (bs : List Byte) : List Byte := (List.range 32).map (shaByte bs)

/-- The first nonce that the monitor issues for debug grants of context n; later ones count on from it (R327, log 8, log 22). -/
opaque monitorNonce : Nat → Word

/-- The checksum of a binding plane, to which R267 gives no form. DESIGN CHOICE (log 15). -/
opaque bindingChecksum : List (Nat × Byte) → Nat

/-- The public part of Polori's image key, the operator-library key and the operator approval key (R314, R359, log 8). -/
opaque imageKey : List Byte
opaque operatorLibraryKey : List Byte
opaque approvalKey : List Byte

/-- The SHA-256 of the operator approval key, which the monitor is provisioned with (R359). -/
def approvalKeyDigest : List Byte := sha256 approvalKey

end Sys2Proof.Config
end

