-- ==== Sys2Proof/Machine/State.lean ====
section
/-! DEFINITION. The state of the machine: one core of the package with its engines and its task, the memories, the contexts, the front end, the monitor, the links and the health logic. Plain data throughout. -/

namespace Sys2Proof.Machine

/-- Why the machine is stuck. -/
inductive Fault where
  /-- Raised by step where the input list of the state holds a slot instruction, and by runWord on an event: only a bundle
  issues a slot instruction, nothing outside the machine can bring one, and no slot word is an event (safe: neither exists). -/
  | notAnEvent
  deriving DecidableEq, Repr

/-- Why an instruction or event has no meaning here. -/
inductive Refusal where
  /-- Raised by an arm of exec that has no meaning yet (safe). -/
  | notModelled (mnemonic : String)
  /-- Raised by the meaning of an event that cannot come about in the state it is given, such as the release of a slip
  lane that holds nothing (safe: no such step of the device exists). -/
  | notEnabled (mnemonic : String)
  deriving DecidableEq, Repr

/-- An exact number: NaN, an infinity, or (-1)^neg * m * 2^e; zero keeps its sign (R38). -/
inductive Num where
  | nan
  | inf (neg : Bool)
  | fin (neg : Bool) (m : Nat) (e : Int)
  deriving DecidableEq, Repr

/-- The destination of a result in flight (R19, R22). A scalar is named by its cell: 0 to 47, or 48 + ring cell (R339). ex and
ep are the private registers of an emulation sequence (Table 23-6). -/
inductive Dst where
  | s (cell : BitVec 6)
  | p (i : Nat)
  | h (i : BitVec 5)
  | stg (i : BitVec 5)
  | lsel
  | sp (code : Nat)
  | ex (i : Nat)
  | ep (i : Nat)
  deriving DecidableEq, Repr

/-- A result in flight: due is the architectural cycle at which it lands, var marks a variable latency (R19, R20). -/
structure InFlight where
  dst  : Dst
  val  : BitVec 256
  due  : Nat
  slot : Nat
  addr : Word
  var  : Bool
  deriving DecidableEq, Repr

/-- The registers that a bundle's operands come from. Cells of s: 0 to 47 are s0 to s47, 48 + c is ring cell c (R86).
stg holds mx:0 to sy:7 in order. mtol stands here because an mx command captures it at bundle entry (R14, R147). -/
structure Regs where
  s    : Vector Word 64
  rpos : BitVec 4
  p    : BitVec 16
  h    : Vector (BitVec 256) 32
  stg  : Vector Word 32
  lsel : BitVec 2
  mtol : Word
  deriving DecidableEq, Repr

/-- A loop entry (R83, R85, R88): its body runs from first to last; stop marks a taken pre-emption drain, with the number
of iterations started. -/
structure LoopEntry where
  first : Word
  last  : Word
  n     : Nat
  e     : Nat
  trip  : Nat
  rot   : Bool
  pre   : Bool
  stop  : Option Nat
  deriving DecidableEq, Repr

/-- An undo-list entry (Table 3-5, R32). -/
structure UndoEntry where
  cls : BitVec 3
  idx : BitVec 12
  val : BitVec 256
  deriving DecidableEq, Repr

/-- An execution fault that waits for its trap (R165). -/
structure PendFault where
  slot  : Nat
  cause : Nat
  tval  : Word
  deriving DecidableEq, Repr

/-- The bundle in progress: address after it, effects that wait for its completion, and the working undo list and psnap
(R28, R29). -/
structure Bundle where
  next   : Word
  taken  : Bool
  undo   : List UndoEntry
  psnap  : BitVec 16
  lbrk   : Bool
  ended  : Bool
  rett   : Bool
  safe   : Bool
  push   : Option LoopEntry
  dcpl   : Bool
  rejoin : Bool
  spec   : Option (BitVec 4 × Word)
  abort  : Bool
  stopped : Bool      -- a fault of the bundle has been delivered: no later slot executes
  stall  : Bool       -- a slot waits at issue: the bundle has not issued
  resumed : Bool      -- the undo list and psnap are those of a resumed bundle
  drained : Bool      -- the drain of a pre-emptible loop has ended before it: the save comes first (R88)
  blind  : Option Nat -- its fetch met an uncorrectable error that a fault slot suppressed: the draw from which its words come (R357)
  deriving DecidableEq, Repr

/-- A precise fault of a slot whose bundle has committed its lower slots, while trap entry waits (R21, R97): slot, cause,
tval, and whether it is offered to the fault slots. -/
structure Due where
  slot  : Nat
  cause : Nat
  tval  : Word
  offer : Bool
  deriving DecidableEq, Repr

/-- The trap state of the task (R28 to R33, R371). -/
structure Trap where
  tstat   : Word
  tpc     : Word
  tval    : Word
  isav    : Word
  psnap   : BitVec 16
  undo    : List UndoEntry
  handler : Bool
  entry   : Option Word
  pend    : List PendFault
  due     : Option Due
  split   : Bundle          -- what the committed slots of the split bundle left to its completion
  dlaIdx  : BitVec 4
  bar     : Option Word     -- the record of an interrupted bar (R186)
  deriving DecidableEq, Repr

/-- A tensor's descriptor as an instruction captures it, with the buffer its view names and the codebook entries it uses
(R195, R302). -/
structure TBase where
  id     : Nat
  base   : Nat
  fmt    : Nat
  layout : Nat
  nd     : Nat
  dims   : List Nat
  strs   : List Nat
  cbi    : Nat
  cb     : List (BitVec 16)
  anchor : BitVec 10
  deriving DecidableEq, Repr

/-- A captured tensor operand: descriptor, region of the handle, scale tensor, and for an aperture view the source and the
permutation tensor (R196 to R209). -/
structure Tens where
  d     : TBase
  ext   : List Nat
  org   : List Int
  res   : Nat
  acls  : Nat
  view  : Nat
  scale : Option TBase
  xform : Nat
  src   : Option TBase
  srcScale : Option TBase
  perm  : Option TBase
  deriving DecidableEq, Repr

/-- A latch plane (R123): K', N, decoded weights by row and column, and the scale of each (Table 7-1). -/
structure Plane where
  kp : Nat
  n  : Nat
  fmt : Nat
  w  : List (List Num)
  sc : List (List Num)
  deriving DecidableEq, Repr

/-- The last row operation (R126): opcode, captured handle value (with its alias class), latch field, tile, last row offset. -/
structure LastRow where
  op   : Nat
  hv   : BitVec 256
  l    : BitVec 2
  tile : BitVec 3
  off  : Nat
  deriving DecidableEq, Repr

/-- The array state of a core (Table 7-1). Plane 2l is the active plane of latch l, 2l + 1 its shadow; acc is keyed by
tile * 16384 + row * 128 + column and lists the elements that are not zero. -/
structure ArrayState where
  planes : Vector Plane 8
  acc    : SMap (BitVec 128)
  anchor : Vector (BitVec 10) 8
  fscale : Vector (Option (List (BitVec 32))) 8
  last   : Option LastRow
  upset  : List Nat     -- keys of elements whose residue no longer matches (R50, log 80)
  deriving DecidableEq, Repr

/-- A matrix register (R144): factor form with s and the columns of U and V, or a dense array by rows; poison is the mark
of R162. -/
structure MReg where
  dense  : Bool
  s      : List (BitVec 32)
  u      : List (List (BitVec 16))
  v      : List (List (BitVec 16))
  arr    : List (List (BitVec 16))
  poison : Bool
  deriving DecidableEq, Repr

/-- A command in an engine queue with everything it captured at issue (R14, R163, R195). mres is what an mx command that
is not rank-deciding will leave: register, dense form, rank (R346). cnt lists the full/empty tiles it counts in (R200), no its
number in issue order. -/
structure Cmd where
  i    : Instr
  slot : Nat
  chan : Nat
  addr : Word
  word : BitVec 32
  stg  : List Word
  x    : Word
  ts   : List Tens
  hd   : BitVec 256
  cell : BitVec 7
  mres : Option (Nat × Bool × Nat)
  image : Option (Bool × Nat)
  cnt  : List Nat
  wids  : List Nat     -- the tensors it writes, for which a later pub waits (R187)
  void  : Bool         -- a pub whose latest earlier writer failed or was aborted: it does nothing (R187)
  no    : Nat
  joined : Bool         -- a cpk whose publish and arrival joined a transaction (R188)
  deriving DecidableEq, Repr

/-- A stream register (R176, R202, Table 10-6). -/
structure Stream where
  bound : Bool
  chan  : BitVec 4
  src   : Option Tens
  pos   : Nat
  ended : Bool
  taken : BitVec 32
  buf   : List Word
  waits : List (BitVec 7 × Word)   -- loads that wait for an element, oldest first: cell and bundle address
  page  : Option RangeEntry        -- the translation that the command holds of the page it reads (R310)
  deriving DecidableEq, Repr

/-- An entry of the poste restante queue (R182). -/
structure Poste where
  index : BitVec 16
  path  : BitVec 4
  vals  : List (BitVec 32)
  deriving DecidableEq, Repr

/-- An operation that waits in a slip lane, with the registers it read and the tensors its handles named at issue (R24,
R195), its issue cycle, the numbers of its bundle and of the next engine command in issue order (R25, R26, R132), and its part in
a transaction (R188). -/
structure Slipped where
  i    : Instr
  regs : Regs
  addr : Word
  ts   : List (BitVec 5 × Tens)
  at_  : Nat
  nth  : Nat
  no   : Nat
  shift : Nat    -- end-of-trip steps of rotating loops since its issue (R89)
  joins : Bool   -- it issued inside an open transaction (R188)
  dead  : Bool   -- that transaction has aborted: what it would have joined is discarded (R188)
  deriving DecidableEq, Repr

/-- A ranked atomic that waits for its boundary (R114 to R117): op is its opcode less 0x45. -/
structure Ranked where
  op   : Nat
  addr : Nat
  sb   : Word
  cmp  : Word
  cell : BitVec 7
  armed : Option Nat   -- number of the phase command that applies it, once the task has issued that (R116)
  deriving DecidableEq, Repr

/-- A compare that waits for a ranked atomic's value (R95): its predicate (16 + i for epi), condition, and its operands, each a value or the
cell it waits for; nth is its bundle's number. -/
structure CmpWait where
  pd   : Nat
  cond : Nat
  a    : Sum Word (BitVec 7)
  b    : Sum Word (BitVec 7)
  nth  : Nat
  deriving DecidableEq, Repr

/-- A held store (R97): its bytes by home address, and whether they lie in the context's descriptor table (R188). -/
structure Held where
  cells : List Host.Cell
  desc  : Bool
  deriving DecidableEq, Repr

/-- The active speculation (R96), until its predicate lands: pred names the predicate where its value is shifted to (R89),
beyond p15 too; val is that value once it has landed. -/
structure Spec where
  pred  : Nat
  val   : Option Bool
  shift : Nat              -- end-of-trip steps of rotating loops since the checkpoint
  cmps  : List CmpWait     -- the pending compares at the checkpoint, as they stood
  target : Word
  regs  : Regs
  loops : List LoopEntry
  held  : List Held
  infl  : List InFlight    -- results in flight at the checkpoint, or landing late from before it
  nth   : Nat              -- number of the spec bundle in issue order
  deriving DecidableEq, Repr

/-- An action that joined a transaction (R188). A pub names its tensor's latest earlier writer, as its number plus 1. -/
inductive Joined where
  | pub (id w : Nat)
  | statw (id word : Nat) (v : Word)
  | bara (b level w : Nat)
  | store (cells : List Host.Cell)
  | atomic (addr : Nat) (v : Word)
  deriving DecidableEq, Repr

/-- The transaction state (R188, Table 9-12). -/
structure Txn where
  act    : Bool
  acts   : List Joined
  commit : Bool
  reason : BitVec 4
  count  : Nat
  deriving DecidableEq, Repr

/-- A barrier as the task sees it (R186): whether an incomplete generation of a scope that holds the task stands, and at
which level, whether the task's arrival stands in it, and whether an arrival since the last completed barw was issued. -/
structure Barrier where
  level   : Nat
  begun   : Bool
  arrived : Bool
  issued  : Bool
  deriving DecidableEq, Repr

/-- A collective that the task has started (R189, R334): id, kind, captured operands, moved ownership of chunks, members and
the task's own index. -/
structure Coll where
  id    : Nat
  kind  : Nat
  addr  : Word
  word  : BitVec 32
  src   : Tens
  dst   : Tens
  codes : List Nat
  owner : List (Nat × Nat)
  lost  : List Nat
  hd    : BitVec 256
  n     : Nat
  self  : Nat
  deriving DecidableEq, Repr

/-- An emulation sequence in progress (R353, Table 23-6): the claimed slot and word, patch slot, position, bundles issued,
and the private registers. -/
structure Emu where
  slot  : Nat
  word  : BitVec 32
  patch : Nat
  start : Nat
  len   : Nat
  pos   : Nat
  issued : Nat
  ex    : Vector Word 8
  ep    : BitVec 4
  bun   : Bundle          -- the claimed bundle, while the sequence's own bundles run
  deriving DecidableEq, Repr

/-- A failure that an engine has met and that EXECUTION_FAULT handles (R165). -/
structure Failing where
  cmd    : Cmd
  cause  : Nat
  tries  : Nat
  detail : Word
  deriving DecidableEq, Repr

/-- The place of a task in its launch (R233) and what it started under. -/
structure TaskInfo where
  running : Bool
  ctx     : Nat
  die     : Nat
  queue   : Nat
  seq     : Nat
  t       : Nat
  nlev    : Nat
  ranks   : List Nat
  extents : List Nat
  mscopes : List Nat
  part    : Word
  dla     : Nat
  patch   : PatchSet
  idempotent : Bool
  loopBounds : List (Nat × Nat)   -- address of the loop bundle, greatest T (R315)
  deriving DecidableEq, Repr

/-- The fused row as this core sees it (R99, R237): row rank, skew, and the leader's registers at the bundle's entry when
this core is a follower. What another core of the row holds or does is a free value (log 16). -/
structure Fused where
  fused  : Bool
  ever   : Bool
  rank   : Nat
  skew   : Nat
  leader : Option Regs
  gone   : Nat           -- how many other tasks of the row it has seen end (R238)
  deriving DecidableEq, Repr

/-- The core: everything a context save keeps (R299), with the state of the bundle in progress. -/
structure Core where
  r        : Regs
  pc       : Word
  bun      : Bundle
  view     : Option Regs
  held     : Option (List (BitVec 5 × Tens))   -- while a slipped operation executes: what its handles named
  resume   : Option Nat
  tripAt   : Option Word     -- the completed bundle whose end-of-trip steps are still to apply (R85)
  inflight : List InFlight
  now      : Nat
  bundles  : Nat
  sinceSafe : Nat
  loops    : List LoopEntry
  drain    : Bool
  trap     : Trap
  srec     : Vector Word 8
  wm       : Vector Word 8
  sat      : Vector Word 2
  arr      : ArrayState
  m        : Vector MReg 16
  mxq      : List Cmd
  cpq      : List Cmd
  spq      : List Cmd
  syq      : List Cmd
  failing  : Option Failing
  cmdNo    : Nat                 -- number of the next engine command
  writers  : SMap (Nat × Bool)   -- latest issued writer of each tensor, and whether it failed or was aborted (R187)
  cpFlags  : List (Nat × Word × BitVec 6)   -- flags of completed cp commands that an earlier incomplete one holds back (R376)
  counts   : SMap Nat
  z        : Vector Stream 8
  poste    : List Poste
  lanes    : List (List Slipped)
  ranked   : List Ranked
  cmps     : List CmpWait
  spec     : Option Spec
  txn      : Txn
  bars     : SMap Barrier
  upsets   : List Nat            -- slots whose next drain of their own meets a residue mismatch (R50, log 80)
  mismatch : Option PendFault    -- a mismatch that a drain of the issue pipe has found (R379)
  barRec   : Option Word
  xendRec  : Option Word         -- the bundle whose xend stalls (R188)
  phaseAt  : Option Nat
  far      : List Host.Cell      -- phased writes of other tasks to memory beyond every boundary so far (R234)
  colls    : List Coll
  info     : TaskInfo
  fused    : Fused
  emu      : Option Emu
  ended    : Bool
  halted   : Bool
  haltAsked : Bool     -- a halt that waits for the next boundary and for what is in flight (R35)
  stepOnce : Bool
  bkptTag  : BitVec 16
  bkptSkip : Bool
  preempt  : Bool
  fresh    : Nat
  deriving DecidableEq, Repr

/-- An admitted image of a context (R314). -/
structure Image where
  base    : Nat
  kind    : Nat
  pop     : Nat
  entries : List Nat
  handler : Option Nat
  idem    : List Nat
  bounds  : List (Nat × Nat)
  feats   : List Nat
  meas    : List Byte
  nmreg   : Nat
  deriving DecidableEq, Repr

/-- A node record of a query block (Table 14-2). -/
structure PlanNode where
  op     : Nat
  flags  : Nat
  nin    : Nat
  ncons  : Nat
  out    : Nat
  anchor : BitVec 10
  ofmt   : Nat
  sub    : Nat
  param  : Nat
  ins    : List Nat
  cons   : List Nat
  deriving DecidableEq, Repr

/-- A contraction order: a leaf tensor, or a product of two parts by a physical operator (R256, R261). -/
inductive Order where
  | leaf (id : Nat)
  | prod (op : Nat) (l r : Order)
  deriving DecidableEq, Repr

/-- A hint held on a plan handle (R271). -/
structure Hint where
  node : Nat
  kind : Nat
  val  : BitVec 8
  deriving DecidableEq, Repr

/-- What a plan chose (R260): operator and paths of each node, chain orders by topmost node, costs, S, and the estimates it
used by tensor: rows and density (R253, R268). -/
structure PlanChoice where
  opcs   : List Nat
  paths  : List (List Nat)
  orders : List (Nat × Order)
  cost   : Nat
  bytes  : Nat
  slots  : Nat
  est    : List (Nat × Nat × Nat)
  deriving DecidableEq, Repr

/-- An execution of a plan: where its pexec stood and its number, the nodes still to run in post-order, the tensors as
acceptance found them, the codes by tensor ID (4096 + ID and 8192 + ID: its scales by element along the innermost and along
dimension 0; 12288 + ID: what its buffer held), the rows to write at the commit, the observations so far, and the nodes up to
the next break whose operator launches have run again, once for each time (R249, R269, R380). -/
structure PlanRun where
  no    : Nat
  addr  : Word
  word  : BitVec 32
  todo  : List Nat
  ds    : List (Nat × Tens)
  outs  : List (Nat × List Nat)
  rows  : List (Nat × Nat)
  brk   : List (Nat × Nat × Nat)
  reruns : List Nat
  deriving DecidableEq, Repr

/-- A plan handle (R265, Table 14-6). -/
structure PlanHandle where
  state   : Nat
  pinned  : Bool
  replans : Nat
  qaddr   : Nat
  block   : List PlanNode
  choice  : PlanChoice
  vers    : List (Nat × Nat)
  uavail  : Word
  hints   : List Hint
  run     : Option PlanRun
  deriving DecidableEq, Repr

/-- A context with what the monitor and the plan engine keep for it (R301 to R317, R265, R326 to R332). -/
structure Context where
  recd    : CtxRecord
  ranges  : SMap RangeEntry
  saves   : List (Nat × Nat)     -- core, and the address of its save area (R298)
  aps     : Vector Word 8
  events  : SMap Word
  masked  : Word
  images  : List Image
  pops    : List Nat
  hranges : SMap HostRange
  job     : Option (BitVec 32)
  grant   : Option DebugGrant
  bkpts   : Bool
  plans   : SMap PlanHandle
  deriving DecidableEq, Repr

/-- A submission queue (R274, R281, R282, R288). -/
structure Queue where
  e        : QueueEntry
  lastSeq  : Nat
  curSeg   : Nat
  curSeq   : Nat
  fails    : Nat
  done     : Nat
  ended    : List Nat
  disabling : Bool
  read     : List Packet      -- packets that the front end has read and firmware has not written to the port (R278)
  taken    : Nat              -- packets of the current segment taken (R277)
  deriving DecidableEq, Repr

/-- A letterbox entry (R279, R280). -/
structure LetterEntry where
  die  : Nat
  q    : Nat
  seq  : Nat
  read : Bool
  deriving DecidableEq, Repr

/-- A task of a launch as the scheduler sees it: its core (one of another package of the pod at 256 * (pod index + 1) on), and whether it has ended, retired or been saved. -/
structure TaskRow where
  t       : Nat
  core    : Nat
  ended   : Bool
  retired : Bool
  saved   : Bool
  fused   : Bool      -- its row is fused, as far as this package knows (R239)
  deriving DecidableEq, Repr

/-- An entry of the launch table (R285) through its life. -/
structure Launch where
  die     : Nat
  q       : Nat
  seq     : Nat
  pkt     : Packet
  ctx     : Nat
  started : Bool
  preempt : Bool
  saved   : Bool
  recd    : LaunchRecord
  tasks   : List TaskRow
  failed  : Option Nat
  reruns  : Nat
  patch   : PatchSet              -- the set that its tasks run under since their start or restore (R362)
  sliced  : Bool                  -- it has held its cores for its slice (R294)
  ranked  : List ForeignRanked    -- pending ranked atomics of its tasks that have left the modelled core (R241)
  far     : List Host.Cell        -- phased writes that no boundary so far has reached (R234, R241)
  deriving DecidableEq, Repr

/-- A saved context: its launch and task, the core's state, its pool image, and its snapshot (R217, R299). -/
structure SavedTask where
  die  : Nat
  q    : Nat
  seq  : Nat
  t    : Nat
  core : Core
  pool : List Host.Cell
  snap : List Host.Cell   -- memory as the task last saw it (R217)
  poison : List Nat       -- the marked blocks of both (R210)
  deriving DecidableEq, Repr

/-- What another package of a pod group reports to the schedulers of the group (R401): the job, its pod index, its available
and its free cores, and whether its context of the job holds the launch's image. -/
structure PackageReport where
  job   : BitVec 32
  pkg   : Nat
  avail : List Nat
  free  : List Nat
  image : Bool
  deriving DecidableEq, Repr

/-- A policy plug-in of a tenant (R290, R291): its memory protection regions, base and size, and whether it is disabled. -/
structure Plugin where
  regions : List (Nat × Nat)
  off     : Bool
  deriving DecidableEq, Repr

/-- The front end, letterbox and scheduler (R274 to R300), over all four dies; queue keys are die * 1024 + queue. -/
structure FrontEnd where
  queues   : SMap Queue
  letters  : List LetterEntry
  overflow : List Nat
  dups     : Vector Nat 4
  launches : List Launch
  point    : Vector (BitVec 2) 4
  owed     : List (Nat × Nat)
  restarts : Vector Nat 4
  clusters : SMap Nat          -- tenant to which each cluster's SRAM last belonged (R320)
  saved    : List SavedTask
  handling : List Nat          -- queues whose overflow bit firmware has read and not yet handled (R280)
  waiting  : List (Nat × List Byte)   -- host writes of the front end that wait for the link (R373)
  shares   : SMap (Nat × Nat)         -- core time over weight of each queue, as a fraction (R293)
  group    : List PackageReport       -- reports of the other packages of the pod (R401)
  plugins  : SMap Plugin              -- policy plug-ins by tenant (R290)
  confine  : Option (List (Nat × Nat))   -- the memory that the monitor leaves the scheduler level, base and size; none: all (R290)
  causes   : List Nat                 -- causes that the scheduler level has received of a level below or of a save, oldest first (R290, R299)
  deriving DecidableEq, Repr

/-- The registers of one mailbox and its last response (Table 17-2). -/
structure Mailbox where
  cmd  : Word
  ctl  : Word
  sts  : Word
  tag  : BitVec 16           -- TAG of the command in progress
  resp : List Byte
  area : List Host.Cell      -- the payload area, by offset from 0x1000 (R323)
  deriving DecidableEq, Repr

/-- A mailbox command in progress: its die and tag, its opcode, and the payload as GO found it (R323). -/
structure MailCmd where
  mb   : Mb
  op   : Nat
  area : List Host.Cell
  deriving DecidableEq, Repr

/-- A host window (R325). -/
structure HostWindow where
  tenant : Nat
  pa     : Nat
  size   : Nat
  hdm    : Nat
  deriving DecidableEq, Repr

/-- A marker record (Table 23-10); a slot is none where no valid record stands. -/
structure Marker where
  seq    : Nat
  active : Bool
  patch  : Nat
  fwmeas : List Byte
  psmeas : List Byte
  deriving DecidableEq, Repr

/-- The flash, its open update and the fuses (R363 to R367). -/
structure Flash where
  markers  : Vector (Option Marker) 2
  slotA    : List Byte
  slotB    : List Byte
  patch0   : List Byte
  patch1   : List Byte
  opened   : Option Bool          -- the open slot: false A, true B
  checked  : Option (List Byte)
  floorFw  : Nat
  floorPs  : Nat
  recovery : Bool
  fwver    : Nat
  fwmeas   : List Byte
  running  : Bool
  fails    : Option Nat           -- a flash write, or its read-back, fails after as many that succeed (Table 23-8)
  unstaged : Nat                  -- boots whose monitor has logged that it loaded the empty set for the one named (R366)
  deriving DecidableEq, Repr

/-- The monitor: contexts, mailboxes, keys, host windows, patch sets (R301 to R328, R347, R362). -/
structure Monitor where
  ctxs    : SMap Context
  mail    : Vector Mailbox 4
  keyOwner : SMap Nat            -- key ID to tenant
  keyGen  : SMap Nat
  windows : SMap HostWindow
  sfCur   : PatchSet
  sfPrev  : Option PatchSet
  sfHits  : SMap Nat
  tlb     : List (Nat × Nat × Nat × Nat)   -- context, virtual base, size, page-table entry (R309, R310)
  resident : List (Nat × List Byte)        -- overlays: context and measurement (R242)
  flash   : Flash
  causes  : List Nat                       -- causes that the monitor level has received, oldest first (R369)
  nonces  : SMap Nat                       -- debug nonces of each context number that are spent (R327)
  due     : List MailCmd                   -- mailbox commands that the host has started and nothing has served yet (R323)
  deriving DecidableEq, Repr

/-- A scale-out connection (R330, R331). -/
structure Conn where
  id      : Nat
  peer    : Nat × Nat   -- pod and package index of the other package (R328, R330)
  job     : Option (BitVec 32)   -- the job that the connection serves; none before it is set up (R330)
  echoes  : Nat         -- packets that echoed congestion (Table 17-4)
  next    : Nat
  seen    : List Nat
  acked   : Nat
  unacked : List Nat
  timeout : Nat
  bad     : Nat
  msgs    : List (Nat × Nat × List Host.Cell × Option Nat)
  out     : Nat         -- number of the next packet that the package sends
  deriving DecidableEq, Repr

/-- The host link, scale-up and scale-out (R321, R329 to R331, R401). -/
structure Links where
  ide    : Bool
  linkUp : Bool
  planes : BitVec 64
  ports  : BitVec 32
  badFlits : SMap Nat
  flits  : List (Nat × List Byte)
  conns  : List Conn
  pod    : Option (Nat × Nat)       -- pod index and pod number
  hostRead : List Byte              -- what the last read through a host window returned (R325)
  io       : Option Word            -- how the last CXL.io request completed: its value, or unsupported request (R321)
  deriving DecidableEq, Repr

/-- A health record (Table 24-5), as its fields. -/
structure HealthRecord where
  seq    : Nat
  kind   : Nat
  replace : Bool
  spare  : BitVec 16
  subst  : List Nat
  uavail : List Word
  poh    : Nat
  ce     : List Nat       -- four counts a die
  ue     : List Nat
  res    : List Nat
  tmax   : Nat
  deriving DecidableEq, Repr

/-- Health, power and the log (R338, R373, R377 to R386). -/
structure Health where
  uavail  : Vector Word 4
  replace : Bool
  spare   : BitVec 16
  subst   : Vector Nat 16
  ce      : SMap Nat
  ue      : SMap Nat
  resid   : SMap Nat
  poh     : Nat
  tmax    : Nat
  log     : List HealthRecord
  power   : Nat
  limit   : Nat
  maxFc   : Nat
  deriving DecidableEq, Repr

/-- The binding planes of the core (R267). -/
structure Binding where
  active   : Bool
  plane0   : List Host.Cell
  plane1   : List Host.Cell
  resend   : Bool
  deriving DecidableEq, Repr

/-- An immediate effect of another task of the launch (R218). -/
inductive PeerAct where
  | publish (id : Nat) (cells : List Host.Cell)   -- the swap of a tensor, with what its new buffer holds (R220)
  | statw (id word : Nat) (v : Word)
  | arrive (b level : Nat)                        -- in a scope that holds the task (R186)
  | event (e : Nat)
  | table (cells : List Host.Cell)                -- joined stores into the descriptor table, at the commit (R221, R222)
  | atomic (addr : Nat) (v : Word)                -- the word that an atomic leaves
  deriving DecidableEq, Repr

/-- What a placing package of the pod asks of this one for a launch of its own (R401). -/
inductive GroupAct where
  | bind (ctx : Nat) (recd : LaunchRecord) (tasks : List (Nat × Nat))   -- tasks with the cores chosen for them
  | retire (t : Nat)                                                    -- a task of it on another core has retired
  | preempt
  | save (error : Bool)
  | restore (tasks : List (Nat × Nat))
  | done
  deriving DecidableEq, Repr

/-- A firmware level of the control complex (Table 15-8); policy plug-ins are a tenant's. -/
inductive FwLevel where
  | monitor
  | scheduler
  | policy (tenant : Nat)
  deriving DecidableEq, Repr

/-- What the levels own (Table 15-8). -/
inductive FwResource where
  | keys | sortingFrame | fmask | memoryProtection | saveRanges | lastSeq
  | queueTable | letterbox | launchPort | launchTable | placement | slices | apertures
  | memory (addr : Nat)
  deriving DecidableEq, Repr

/-- What happens outside the modelled core beside the events of the opcode table (log 84). -/
inductive Outside where
  | idle                                                          -- the core's own next step comes first
  | peer (acts : List PeerAct)                                    -- one position in the immediate order (R218, R222)
  | group (die q seq : Nat) (act : GroupAct)                      -- die is 4 or more: 4 * (pod index + 1) + the die there
  | report (r : PackageReport)
  | hostIo (bar2 : Bool) (off : Nat) (data : Option Word)         -- a CXL.io read, or a write of data (R321, R322)
  | payload (die : BitVec 2) (off : Nat) (bs : List Byte)         -- the host writes a mailbox payload (R323)
  | pte (addr : Nat) (v : Word)                                   -- the monitor writes a page-table entry (R306, R310)
  | remote (ctx va : Nat) (bs : List Byte)                        -- a peer's cpr writes memory of a context (R178, R227)
  | coreTime (die q n : Nat)                                      -- core time that launches of a queue have used (R293)
  | connect (conn pod pkg : Nat) (job : BitVec 32)                -- the monitors of two packages set up a connection for a job (R330)
  | send (conn n : Nat)                                           -- the package sends n packets of a connection (R331)
  | memRetry (addr n : Nat)                                       -- failed link transfers of a block of device memory (R377)
  | hour                                                          -- an hour with power on (Table 24-5)
  | flashFails (n : Nat)                                          -- the flash write after n more fails (Table 23-8, DETAIL 10)
  | upset (key : Nat)                                             -- an accumulator element loses its residue (R50)
  | upsetDrain (slot : Nat)                                       -- so does the sum of a slot's next drain (R50)
  | control (die : BitVec 2) (l : FwLevel) (r : FwResource)       -- firmware of a level touches a resource (R290)
  | controlWord (die : BitVec 2) (l : FwLevel) (slot : Nat) (w : BitVec 32)   -- a word that a control core decodes (R291)
  | plugin (tenant : Nat) (regions : List (Nat × Nat))            -- the monitor loads a plug-in (R290, R291)
  | confine (regions : Option (List (Nat × Nat)))                 -- the monitor sets the scheduler's confinement (R290)
  | saved (x : SavedTask)                                         -- what the save area of another core holds (R299)
  deriving DecidableEq, Repr

/-- The machine: the core with its task, memory by home address, writes of other agents that the task's snapshot does not
hold yet (R217), poisoned 64-byte blocks (R210) and those of them that such a write has cleaned, the tag of the key under which
each block of device memory stands (R318), and the shared blocks of the package. me is the package index of the modelled core,
inputs the events that arrive next, world what else the outside does (log 4, log 84). -/
structure State where
  inputs : List Instr
  world  : List Outside
  c      : Core
  mem    : List Host.Cell
  outer  : List Host.Cell
  poison : List Nat
  cleaned : List Nat
  keyed  : SMap Nat
  mon    : Monitor
  fe     : FrontEnd
  links  : Links
  health : Health
  bind   : Binding
  me     : Nat
  deriving DecidableEq, Repr

/-- No bundle in progress. -/
def Bundle.idle : Bundle :=
  ⟨0, false, [], 1, false, false, false, false, none, false, false, none, false, false, false, false, false, none⟩

/-- Registers at the start of a task but for its arguments (R236); p0 reads as true (R80). -/
def Regs.start : Regs :=
  ⟨Vector.replicate 64 0, 0, 1, Vector.replicate 32 0, Vector.replicate 32 0, 0, 0⟩

/-- An empty latch plane (Table 7-1). -/
def Plane.empty : Plane := ⟨0, 0, 0, [], []⟩

/-- The array state at launch (Table 7-1). -/
def ArrayState.start : ArrayState :=
  ⟨Vector.replicate 8 Plane.empty, [], Vector.replicate 8 0, Vector.replicate 8 none, none, []⟩

/-- A matrix register at launch: factor form of rank 0 (R144). -/
def MReg.zero : MReg := ⟨false, [], [], [], [], false⟩

/-- An unbound stream register (R204). -/
def Stream.unbound : Stream := ⟨false, 0, none, 0, false, 0, [], [], none⟩

/-- No patch slot in use. -/
def PatchSet.empty : PatchSet := ⟨[], [], [], 0⟩

/-- No task: ranks 0 and extents 1 (R101), the partition word at the Reset column of Table 10-1. -/
def TaskInfo.none : TaskInfo :=
  ⟨false, 0, 0, 0, 0, 0, 0, [], [], [], 0, 0, PatchSet.empty, false, []⟩

/-- A core at the start of a task, before the task's own values (R236). -/
def Core.start : Core where
  r := Regs.start
  pc := 0
  bun := Bundle.idle
  view := none
  held := none
  resume := none
  tripAt := none
  inflight := []
  now := 0
  bundles := 0
  sinceSafe := 0
  loops := []
  drain := false
  trap := ⟨0, 0, 0, 0, 1, [], false, none, [], none, Bundle.idle, 0, none⟩
  srec := Vector.replicate 8 0
  wm := Vector.replicate 8 0
  sat := Vector.replicate 2 0
  arr := ArrayState.start
  m := Vector.replicate 16 MReg.zero
  mxq := []
  cpq := []
  spq := []
  syq := []
  failing := none
  cmdNo := 0
  writers := []
  cpFlags := []
  counts := []
  z := Vector.replicate 8 Stream.unbound
  poste := []
  lanes := [[], [], []]
  ranked := []
  cmps := []
  spec := none
  txn := ⟨false, [], false, 0, 0⟩
  bars := []
  upsets := []
  mismatch := none
  barRec := none
  xendRec := none
  phaseAt := none
  far := []
  colls := []
  info := TaskInfo.none
  fused := ⟨false, false, 0, 0, none, 0⟩
  emu := none
  ended := false
  halted := false
  haltAsked := false
  stepOnce := false
  bkptTag := 0
  bkptSkip := false
  preempt := false
  fresh := 0

/-- The machine right after power-on, before its boot ROM has run (R366): every register at its Reset column, or at the
value log 1 names; nothing stored, no context, no task. -/
def State.reset : State where
  inputs := []
  world := []
  c := Core.start
  mem := []
  outer := []
  poison := []
  cleaned := []
  keyed := []
  mon :=
    { ctxs := [], mail := Vector.replicate 4 ⟨0, 0, 0, 0, [], []⟩, keyOwner := [], keyGen := [], windows := [],
      sfCur := PatchSet.empty, sfPrev := none, sfHits := [], tlb := [], resident := [],
      flash := ⟨Vector.replicate 2 none, [], [], [], [], none, none, 0, 0, false, 0, [], false, none, 0⟩, causes := [], nonces := [], due := [] }
  fe :=
    { queues := [], letters := [], overflow := [], dups := Vector.replicate 4 0, launches := [],
      point := Vector.replicate 4 0, owed := [], restarts := Vector.replicate 4 0, clusters := [],
      saved := [], handling := [], waiting := [], shares := [], group := [], plugins := [], confine := none, causes := [] }
  links := ⟨false, false, 0, 0, [], [], [], none, [], none⟩
  health :=
    { uavail := Vector.replicate 4 (BitVec.allOnes 64), replace := false, spare := 0, subst := Vector.replicate 16 0,
      ce := [], ue := [], resid := [], poh := 0, tmax := 0, log := [], power := 0, limit := 4200, maxFc := 0 }
  bind := ⟨false, [], [], false⟩
  me := 0

end Sys2Proof.Machine
end

