-- ==== Sys2Proof/Machine/Formats.lean ====
section
/-! DEFINITION. Number formats, exact arithmetic and rounding: decode, rnd and the arithmetic of exact numbers (R37 to R48, R56, R57, R399). -/

namespace Sys2Proof.Machine

/-- The flags of Table 4-5 as bits 5 to 0: SAT, NV, DZ, OV, UF, NX. -/
abbrev Flags := BitVec 6

def flagSAT : Flags := 32
def flagNV : Flags := 16
def flagDZ : Flags := 8
def flagOV : Flags := 4
def flagUF : Flags := 2
def flagNX : Flags := 1

/-- A value before rounding: NaN, an infinity, or (-1)^neg * num / den with den > 0. -/
inductive Ex where
  | nan
  | inf (neg : Bool)
  | q (neg : Bool) (num den : Nat)
  deriving DecidableEq, Repr

/-- A dyadic number as a quotient. -/
def Num.ex : Num → Ex
  | .nan => .nan
  | .inf n => .inf n
  | .fin n m e => if 0 ≤ e then .q n (m * 2 ^ e.toNat) 1 else .q n m (2 ^ (-e).toNat)

/-- A zero of either sign. -/
def Num.isZero : Num → Bool
  | .fin _ 0 _ => true
  | _ => false

def Num.isNan : Num → Bool
  | .nan => true
  | _ => false

def Num.isInf : Num → Bool
  | .inf _ => true
  | _ => false

/-- The sign bit; a NaN counts as positive. -/
def Num.sign : Num → Bool
  | .nan => false
  | .inf n => n
  | .fin n _ _ => n

/-- Plus zero. -/
def Num.zero : Num := .fin false 0 0

/-- One. -/
def Num.one : Num := .fin false 1 0

/-- An integer as a number. -/
def Num.ofInt (i : Int) : Num := .fin (decide (i < 0)) i.natAbs 0

def Num.neg : Num → Num
  | .nan => .nan
  | .inf n => .inf (!n)
  | .fin n m e => .fin (!n) m e

def Num.abs : Num → Num
  | .nan => .nan
  | .inf _ => .inf false
  | .fin _ m e => .fin false m e

/-- The signed mantissa of a finite number at exponent e0 ≤ e; 0 for the others. -/
def Num.at (x : Num) (e0 : Int) : Int :=
  match x with
  | .fin n m e => let v : Int := (m : Int) * 2 ^ (e - e0).toNat; if n then -v else v
  | _ => 0

/-- The exponent of a finite number; 0 for the others. -/
def Num.expo : Num → Int
  | .fin _ _ e => e
  | _ => 0

/-- The exact sum under round to nearest's signs of zero (R57): opposite zeros and exact cancellation give +0, infinities of
opposite signs give NaN. -/
def Num.add (x y : Num) : Num :=
  match x, y with
  | .nan, _ => .nan
  | _, .nan => .nan
  | .inf a, .inf b => if a = b then .inf a else .nan
  | .inf a, _ => .inf a
  | _, .inf b => .inf b
  | .fin a m e, .fin b m' e' =>
    if m = 0 ∧ m' = 0 then .fin (a && b) 0 0
    else
      let e0 := min e e'
      let v := Num.at (.fin a m e) e0 + Num.at (.fin b m' e') e0
      .fin (decide (v < 0)) v.natAbs e0

/-- The exact product (R57): 0 times infinity is NaN, signs combine by XOR. -/
def Num.mul (x y : Num) : Num :=
  match x, y with
  | .nan, _ => .nan
  | _, .nan => .nan
  | .inf a, .inf b => .inf (a != b)
  | .inf a, .fin b m _ => if m = 0 then .nan else .inf (a != b)
  | .fin a m _, .inf b => if m = 0 then .nan else .inf (a != b)
  | .fin a m e, .fin b m' e' => .fin (a != b) (m * m') (e + e')

/-- Numerical comparison of two numbers that are not NaN: less, equal, greater; zeros of both signs are equal. -/
def Num.cmp (x y : Num) : Ordering :=
  match x, y with
  | .inf a, .inf b => if a = b then .eq else if a then .lt else .gt
  | .inf a, _ => if a then .lt else .gt
  | _, .inf b => if b then .gt else .lt
  | x, y =>
    let e0 := min x.expo y.expo
    compare (x.at e0) (y.at e0)

/-- The greater, with -0 < +0 and NaN from either operand (Table 7-6). -/
def Num.maxN (x y : Num) : Num :=
  if x.isNan || y.isNan then .nan
  else match Num.cmp x y with
    | .lt => y
    | .gt => x
    | .eq => if x.sign then y else x

/-- The lesser, with -0 < +0 and NaN from either operand (Table 7-6). -/
def Num.minN (x y : Num) : Num :=
  if x.isNan || y.isNan then .nan
  else match Num.cmp x y with
    | .lt => x
    | .gt => y
    | .eq => if x.sign then x else y

/-- A floating-point format of Table 4-1: exponent bits, mantissa bits, bias, infinity, largest finite value as
maxM * 2 ^ maxE, and its canonical NaN where it has one (R39). -/
structure FpFmt where
  ebits : Nat
  mbits : Nat
  bias  : Nat
  hasInf : Bool
  maxM  : Nat
  maxE  : Int
  nan   : Option Nat
  deriving DecidableEq, Repr

/-- Table 4-1; codes above 6 take the row of FP32, and no caller asks for one. -/
def fpFmt : Nat → FpFmt
  | 1 => ⟨8, 7, 127, true, 255, 120, some 0x7FC0⟩
  | 2 => ⟨5, 10, 15, true, 2047, 5, some 0x7E00⟩
  | 3 => ⟨5, 2, 15, true, 7, 13, some 0x7E⟩
  | 4 => ⟨4, 3, 7, false, 14, 5, some 0x7F⟩
  | 5 => ⟨3, 4, 3, false, 31, 0, none⟩
  | 6 => ⟨2, 5, 1, false, 63, -3, none⟩
  | _ => ⟨8, 23, 127, true, 2 ^ 24 - 1, 104, some 0x7FC00000⟩

/-- The width in bits of a format's codes (Tables 4-1 to 4-3). -/
def fmtWidth : Nat → Nat
  | 0 => 32 | 1 => 16 | 2 => 16 | 3 => 8 | 4 => 8 | 5 => 8 | 6 => 8
  | 7 => 16 | 8 => 8 | 9 => 4 | 10 => 2 | 11 => 16 | 12 => 8 | 13 => 4 | 14 => 2 | 15 => 1
  | 16 => 2 | 17 => 3 | 18 => 4 | 19 => 5 | 20 => 6 | 21 => 8 | 22 => 8 | _ => 4

/-- Codes in one packed 32-bit word (R43). -/
def codesPerWord (fmt : Nat) : Nat := 32 / fmtWidth fmt

/-- The least and greatest value of an integer format (Table 4-2). -/
def intRange : Nat → Int × Int
  | 7 => (-32768, 32767)
  | 8 => (-128, 127)
  | 9 => (-8, 7)
  | 10 => (-2, 1)
  | 11 => (0, 65535)
  | 12 => (0, 255)
  | 13 => (0, 15)
  | 14 => (-1, 1)
  | _ => (-1, 1)

/-- A two's complement reading of the low w bits. -/
def signedOf (w c : Nat) : Int := if c < 2 ^ (w - 1) then (c : Int) else (c : Int) - 2 ^ w

/-- The value of a floating-point code (R38). -/
def decodeFp (f : FpFmt) (c : Nat) : Num :=
  let s := decide (c / 2 ^ (f.ebits + f.mbits) % 2 = 1)
  let e := c / 2 ^ f.mbits % 2 ^ f.ebits
  let m := c % 2 ^ f.mbits
  if e = 2 ^ f.ebits - 1 ∧ f.hasInf then (if m = 0 then .inf s else .nan)
  else if e = 2 ^ f.ebits - 1 ∧ m = 2 ^ f.mbits - 1 ∧ f.nan.isSome then .nan
  else if e = 0 then .fin s m (1 - f.bias - f.mbits)
  else .fin s (2 ^ f.mbits + m) ((e : Int) - f.bias - f.mbits)

/-- 2 ^ (k / 8) rounded to BF16 with ties to even (R42): the significand n in 128 to 255 whose half-steps enclose
the eighth root. -/
def pow2Eighths (k : Int) : Num :=
  let r := (k % 8).toNat
  let n := ((List.range 129).find? fun j => decide (2 ^ r * 256 ^ 8 < (2 * (128 + j) + 1) ^ 8)).getD 0 + 128
  .fin false n (k / 8 - 7)

/-- decode of Table 4-8: the value of a code of a format, with the codebook entries it uses (R38, R40 to R42). -/
def decodeNum (fmt : Nat) (cb : List (BitVec 16)) (c : Nat) : Num :=
  if fmt ≤ 6 then decodeFp (fpFmt fmt) c
  else if fmt ≤ 10 then .ofInt (signedOf (fmtWidth fmt) c)
  else if fmt ≤ 13 then .ofInt c
  else if fmt = 14 then (if c = 1 then .ofInt 1 else if c = 3 then .ofInt (-1) else .ofInt 0)
  else if fmt = 15 then (if c = 0 then .ofInt 1 else .ofInt (-1))
  else if fmt ≤ 21 then decodeFp (fpFmt 1) ((cb[c]?).getD 0).toNat
  else if fmt = 22 then
    let v := if c % 128 = 0 then Num.zero else pow2Eighths ((c % 128 : Nat) - 64)
    if c / 128 % 2 = 1 then v.neg else v
  else
    let v := if c % 8 = 0 then Num.zero else pow2Eighths (4 * ((c % 8 : Nat) - 4))
    if c / 8 % 2 = 1 then v.neg else v

/-- The integer of a code of format 7 to 13, without any scale (R138, R141, R179). -/
def intOfCode (fmt c : Nat) : Int := if fmt ≤ 10 then signedOf (fmtWidth fmt) c else (c : Int)

/-- num / den rounded to an integer magnitude by mode (R46: 0 RNE, 1 RTZ, 2 RDN, 3 RUP), neg being its sign. -/
def roundQ (mode : Nat) (neg : Bool) (num den : Nat) : Nat :=
  let q := num / den
  let r := num % den
  if mode = 0 then (if 2 * r > den ∨ (2 * r = den ∧ q % 2 = 1) then q + 1 else q)
  else if mode = 1 then q
  else if mode = 2 then (if neg ∧ r ≠ 0 then q + 1 else q)
  else (if !neg ∧ r ≠ 0 then q + 1 else q)

/-- The quotient scaled by 2 ^ (-e). -/
def scaleQ (num den : Nat) (e : Int) : Nat × Nat :=
  if 0 ≤ e then (num, den * 2 ^ e.toNat) else (num * 2 ^ (-e).toNat, den)

/-- The floor of the binary logarithm of num / den, both positive. -/
def ilogQ (num den : Nat) : Int :=
  let e : Int := (Nat.log2 num : Int) - Nat.log2 den
  let (a, b) := scaleQ num den e
  if b ≤ a then e else e - 1

/-- A finite quotient rounded to the precision of a floating-point format with the exponent range extended above: the
result is n * 2 ^ q (R47). -/
def roundFp (f : FpFmt) (mode : Nat) (neg : Bool) (num den : Nat) : Nat × Int :=
  let q := max (ilogQ num den) (1 - f.bias) - f.mbits
  let (a, b) := scaleQ num den q
  let n := roundQ mode neg a b
  if n = 2 ^ (f.mbits + 1) then (2 ^ f.mbits, q + 1) else (n, q)

/-- The code of n * 2 ^ q in a floating-point format. -/
def encodeFp (f : FpFmt) (neg : Bool) (n : Nat) (q : Int) : Nat :=
  let s := if neg then 2 ^ (f.ebits + f.mbits) else 0
  if n < 2 ^ f.mbits then s + n
  else s + (q + f.mbits + f.bias).toNat * 2 ^ f.mbits + (n - 2 ^ f.mbits)

/-- The code of the largest finite value. -/
def largestFp (f : FpFmt) (neg : Bool) : Nat := encodeFp f neg f.maxM f.maxE

/-- The code of an infinity. -/
def infFp (f : FpFmt) (neg : Bool) : Nat :=
  (if neg then 2 ^ (f.ebits + f.mbits) else 0) + (2 ^ f.ebits - 1) * 2 ^ f.mbits

/-- Is n * 2 ^ q greater than m * 2 ^ e? -/
def gtScaled (n : Nat) (q : Int) (m : Nat) (e : Int) : Bool :=
  let e0 := min q e
  decide (m * 2 ^ (e - e0).toNat < n * 2 ^ (q - e0).toNat)

/-- Conversion to a floating-point format: rows FP32 to E2M5 of Table 4-4, with the flags of R48. -/
def rndFp (f : FpFmt) (mode : Nat) (x : Ex) : Nat × Flags :=
  match x with
  | .nan => match f.nan with
    | some c => (c, 0)
    | none => (0, flagNV)
  | .inf n => if f.hasInf then (infFp f n, 0) else (largestFp f n, flagSAT)
  | .q neg num den =>
    if num = 0 then (encodeFp f neg 0 0, 0)
    else
      let (n, q) := roundFp f mode neg num den
      let (a, b) := scaleQ num den q
      let inexact := decide (n * b ≠ a)
      if gtScaled n q f.maxM f.maxE then
        if f.hasInf then
          let toInf := mode = 0 ∨ (mode = 2 ∧ neg) ∨ (mode = 3 ∧ !neg)
          (if toInf then infFp f neg else largestFp f neg, flagOV ||| flagNX)
        else (largestFp f neg, flagOV ||| flagSAT ||| flagNX)
      else
        let tiny := decide (ilogQ num den < 1 - f.bias)
        (encodeFp f neg n q,
          (if inexact then flagNX else 0) ||| (if inexact && tiny then flagUF else 0))

/-- Conversion to an integer format 7 to 13, or with mode RNE to TRN2: the integer value with its flags (Table 4-4). -/
def rndInt (lo hi : Int) (mode : Nat) (x : Ex) : Int × Flags :=
  match x with
  | .nan => (0, flagNV)
  | .inf n => (if n then lo else hi, flagSAT)
  | .q neg num den =>
    let n : Int := (roundQ mode neg num den : Nat)
    let v := if neg then -n else n
    if v < lo then (lo, flagOV ||| flagSAT ||| flagNX)
    else if hi < v then (hi, flagOV ||| flagSAT ||| flagNX)
    else (v, if num % den = 0 then 0 else flagNX)

/-- The code of an integer in w bits. -/
def codeOfInt (w : Nat) (v : Int) : Nat := (v % (2 ^ w : Int)).toNat

/-- The distance of two quotients, as a quotient; signs apply. -/
def distQ (neg : Bool) (num den : Nat) (neg' : Bool) (num' den' : Nat) : Nat × Nat :=
  let a : Int := if neg then -((num * den' : Nat) : Int) else ((num * den' : Nat) : Int)
  let b : Int := if neg' then -((num' * den : Nat) : Int) else ((num' * den : Nat) : Int)
  ((a - b).natAbs, den * den')

/-- The finite candidate of least exact distance, ties to the lower code: the list rises in code (Table 4-4, R399). -/
def nearest (neg : Bool) (num den : Nat) : List (Nat × Num) → Option (Nat × Nat × Nat)
  | [] => none
  | (c, x) :: cs =>
    let rest := nearest neg num den cs
    match x.ex with
    | .q n' num' den' =>
      let (a, b) := distQ neg num den n' num' den'
      match rest with
      | none => some (c, a, b)
      | some (c', a', b') => if a * b' ≤ a' * b then some (c, a, b) else some (c', a', b')
    | _ => rest

/-- The greatest (sgn false) or least finite candidate, ties to the lower code. -/
def extremum (least : Bool) : List (Nat × Num) → Option (Nat × Num)
  | [] => none
  | (c, x) :: cs =>
    match x, extremum least cs with
    | .fin _ _ _, none => some (c, x)
    | .fin _ _ _, some (c', y) =>
      let o := Num.cmp x y
      if o = .eq ∨ o = (if least then .lt else .gt) then some (c, x) else some (c', y)
    | _, r => r

/-- The codes of a format 16 to 23 with their values, rising. -/
def candidates (fmt : Nat) (cb : List (BitVec 16)) : List (Nat × Num) :=
  (List.range (2 ^ fmtWidth fmt)).map fun c => (c, decodeNum fmt cb c)

/-- The lowest code whose value passes the test. -/
def lowestCode (p : Num → Bool) (l : List (Nat × Num)) : Option Nat := (l.find? fun x => p x.2).map (·.1)

/-- Conversion to a codebook or logarithmic format (Table 4-4, R399). An infinite source that takes a finite entry sets NX
(DEDUCED from "any inexact result sets NX", log 11). -/
def rndCb (fmt : Nat) (cb : List (BitVec 16)) (x : Ex) : Nat × Flags :=
  let cs := candidates fmt cb
  let noNan := cs.filter fun c => !c.2.isNan
  match x with
  | .nan => match lowestCode Num.isNan cs with
    | some c => if noNan.isEmpty then (0, 0) else (c, 0)
    | none => (0, flagNV)
  | .inf n =>
    if noNan.isEmpty then (0, flagNV)
    else match lowestCode (fun v => decide (v = .inf n)) noNan with
      | some c => (c, 0)
      | none => match extremum n noNan with
        | some (c, _) => (c, flagNX)
        | none => ((noNan.head?.map (·.1)).getD 0, flagNX)
  | .q neg num den =>
    if noNan.isEmpty then (0, flagNV)
    else match nearest neg num den noNan with
      | some (c, d, _) => (c, if d = 0 then 0 else flagNX)
      | none =>
        match lowestCode (fun v => decide (v = .inf neg)) noNan with
        | some c => (c, flagOV ||| flagNX)
        | none => ((lowestCode Num.isInf noNan).getD 0, flagOV ||| flagNX)

/-- rnd of Table 4-8: the code of x in a format under a mode, with the flags raised (R47, R48). Formats 14 to 23 ignore
the mode (R46). BIN1 takes the sign bit; for an infinity Table 4-4 lists no flag, and none is set (log 82). -/
def rndEx (fmt : Nat) (cb : List (BitVec 16)) (mode : Nat) (x : Ex) : Nat × Flags :=
  if fmt ≤ 6 then rndFp (fpFmt fmt) mode x
  else if fmt ≤ 14 then
    let r := intRange fmt
    let (v, fl) := rndInt r.1 r.2 (if fmt = 14 then 0 else mode) x
    (codeOfInt (fmtWidth fmt) v, fl)
  else if fmt = 15 then
    match x with
    | .nan => (0, flagNV)
    | .inf n => (if n then 1 else 0, 0)
    | .q neg num den => (if neg then 1 else 0, if num = den then 0 else flagNX)
  else rndCb fmt cb x

/-- rnd of a dyadic number. -/
def rndNum (fmt : Nat) (cb : List (BitVec 16)) (mode : Nat) (x : Num) : Nat × Flags := rndEx fmt cb mode x.ex

/-- rne to FP32 and back: the value and the flags. -/
def rneFp32 (x : Num) : Num × Flags :=
  let (c, fl) := rndNum 0 [] 0 x
  (decodeNum 0 [] c, fl)

/-- rne to BF16 and back. -/
def rneBf16 (x : Num) : Num × Flags :=
  let (c, fl) := rndNum 1 [] 0 x
  (decodeNum 1 [] c, fl)

/-- NV where an operation made a NaN from operands that hold none (Table 4-5). -/
def nvOf (operandNan : Bool) (r : Num) : Flags := if r.isNan && !operandNan then flagNV else 0

/-- x / d exactly, for a divisor that is finite and not zero; any other divisor makes it NaN with NV (R135). -/
def divScale (x d : Num) : Ex × Flags :=
  match d with
  | .fin n m e =>
    if m = 0 then (.nan, flagNV)
    else match x with
      | .nan => (.nan, 0)
      | .inf n' => (.inf (n != n'), 0)
      | .fin n' m' e' =>
        match scaleQ m' m (e - e') with
        | (a, b) => (.q (n != n') a b, 0)
  | _ => (.nan, flagNV)

/-- The integer square root by bits from bit k down. -/
def isqrtFrom (n : Nat) : Nat → Nat → Nat
  | 0, r => r
  | k + 1, r => isqrtFrom n k (if (r + 2 ^ k) * (r + 2 ^ k) ≤ n then r + 2 ^ k else r)

/-- The floor of the square root. -/
def isqrt (n : Nat) : Nat := isqrtFrom n (Nat.log2 n / 2 + 1) 0

/-- A floor r at resolution den of an exact value: where the value is not r / den itself it lies strictly inside the step,
and the step's middle rounds as it does. -/
def stickyQ (neg : Bool) (r den : Nat) (exact : Bool) : Ex :=
  if exact then .q neg r den else .q neg (2 * r + 1) (2 * den)

/-- The square root of a positive m * 2 ^ e, to 128 bits and more. -/
def sqrtEx (m : Nat) (e : Int) : Ex :=
  let (m, e) := if e % 2 = 0 then (m, e) else (2 * m, e - 1)
  let big := m * 2 ^ 256
  let r := isqrt big
  match stickyQ false r 1 (r * r == big) with
  | .q _ a b => let (a, b) := scaleQ a b (128 - e / 2); .q false a b
  | x => x

/-- One over the square root of a positive m * 2 ^ e. -/
def rsqrtEx (m : Nat) (e : Int) : Ex :=
  let (m, e) := if e % 2 = 0 then (m, e) else (2 * m, e - 1)
  let t := Nat.log2 m + 128
  let r := isqrt (2 ^ (2 * t) / m)
  match stickyQ false r 1 (r * r * m == 2 ^ (2 * t)) with
  | .q _ a b => let (a, b) := scaleQ a b (t + e / 2); .q false a b
  | x => x

end Sys2Proof.Machine
end

