-- ==== Sys2Proof/Machine/Regs.lean ====
section
/-! DEFINITION. Registers: reading operands at bundle entry, results in flight and their landing, the undo list, flags into the sticky records (R19 to R23, R28, R33, R80, R86, R375). -/

namespace Sys2Proof.Machine

/-- The ring cell that a scalar name designates (R86): names below 48 are their own cells. -/
def cellOf (rpos : BitVec 4) (r : BitVec 6) : BitVec 6 :=
  if r.toNat < 48 then r else BitVec.ofNat 6 (48 + (r.toNat - 48 + 16 - rpos.toNat) % 16)

/-- The name that reaches a cell, the inverse of cellOf. -/
def nameOf (rpos : BitVec 4) (c : BitVec 6) : BitVec 6 :=
  if c.toNat < 48 then c else BitVec.ofNat 6 (48 + (c.toNat - 48 + rpos.toNat) % 16)

/-- A cell of the scalar registers. -/
def Regs.cell (x : Regs) (c : BitVec 6) : Word := x.s[c.toNat]'c.isLt

def Regs.setCell (x : Regs) (c : BitVec 6) (v : Word) : Regs := { x with s := x.s.set c.toNat v c.isLt }

/-- A scalar register by name; s0 reads zero (R80). -/
def Regs.rdS (x : Regs) (r : BitVec 6) : Word := if r = 0 then 0 else x.cell (cellOf x.rpos r)

/-- A predicate; p0 reads true (R80). -/
def Regs.rdP (x : Regs) (i : BitVec 4) : Bool := if i = 0 then true else x.p.getLsbD i.toNat

/-- Set one bit of the predicates. -/
def setBit16 (p : BitVec 16) (i : Nat) (b : Bool) : BitVec 16 :=
  if b then p ||| ((1 : BitVec 16) <<< i) else p &&& ~~~((1 : BitVec 16) <<< i)

def Regs.setP (x : Regs) (i : Nat) (b : Bool) : Regs := if i = 0 then x else { x with p := setBit16 x.p i b }

def Regs.rdH (x : Regs) (i : BitVec 5) : BitVec 256 := x.h[i.toNat]'i.isLt

def Regs.setH (x : Regs) (i : BitVec 5) (v : BitVec 256) : Regs := { x with h := x.h.set i.toNat v i.isLt }

def Regs.rdStg (x : Regs) (i : BitVec 5) : Word := x.stg[i.toNat]'i.isLt

def Regs.setStg (x : Regs) (i : BitVec 5) (v : Word) : Regs := { x with stg := x.stg.set i.toNat v i.isLt }

/-- Replace the core. -/
def State.onC (f : Core → Core) (s : State) : State := { s with c := f s.c }

/-- The registers that the operands of the executing slot come from: those at bundle entry, or for a resumed bundle the
view of R33, or for a released operation what it held (R24). -/
def State.src (s : State) : Regs := s.c.view.getD s.c.r

/-- A scalar operand; s56 to s63 are the private registers inside an emulation sequence (R353). -/
def State.rdS (s : State) (r : BitVec 6) : Word :=
  match s.c.emu with
  | none => s.src.rdS r
  | some e => if 56 ≤ r.toNat then (e.ex[r.toNat - 56]?).getD 0 else s.src.rdS r

/-- A predicate operand; p12 to p15 are private inside an emulation sequence (R353). -/
def State.rdP (s : State) (i : BitVec 4) : Bool :=
  match s.c.emu with
  | none => s.src.rdP i
  | some e => if 12 ≤ i.toNat then e.ep.getLsbD (i.toNat - 12) else s.src.rdP i

def State.rdH (s : State) (i : BitVec 5) : BitVec 256 := s.src.rdH i

/-- A staging register, as a command captures it at bundle entry (R14). -/
def State.rdStg (s : State) (i : BitVec 5) : Word := s.src.rdStg i

/-- The registers that the br slot takes its guard, loop count and branch target from: the leader's in a fused row (R99). -/
def State.brSrc (s : State) : Regs :=
  if s.c.fused.fused then s.c.fused.leader.getD s.src else s.src

/-- A scalar operand of jmp, ret and loop (R99). -/
def State.brS (s : State) (r : BitVec 6) : Word :=
  match s.c.fused.fused, s.c.fused.leader with
  | true, some x => x.rdS r
  | _, _ => s.rdS r

/-- The guard of a slot word: the predicate, negated where N = 1 (R15, R16); the br slot of a fused row takes the
leader's (R99). -/
def guardHolds (k : Slot) (g : Guard) (s : State) : Bool :=
  let v :=
    match k, s.c.fused.fused, s.c.fused.leader with
    | .br, true, some x => x.rdP g.p
    | _, _, _ => s.rdP g.p
  v != (g.n == 1)

/-- Results that are due in the list from here on name the destination. -/
def dueLater (now : Nat) (d : Dst) (l : List InFlight) : Bool := l.any fun e => decide (e.due ≤ now) && e.dst == d

/-- What remains in flight: results not yet due, but for those that a later-issued landed write overtakes (R22). Two slots of one
bundle that write one destination with different landing cycles count as issued in slot order, so that the lower slot's later
landing is discarded: the spec settles the same landing cycle alone (DESIGN CHOICE, log 96). -/
def stillFlying (now : Nat) : List InFlight → List InFlight
  | [] => []
  | e :: l => if e.due ≤ now ∨ dueLater now e.dst l then stillFlying now l else e :: stillFlying now l

/-- What an swrite of a watermark does when it lands (R131, Table 7-4): HIT clears where 1 is written, HROW is the
hardware's, LEVEL and EN are as written. -/
def landWm (wm : Vector Word 8) (t : Nat) (v : Word) : Vector Word 8 :=
  if h : t < 8 then
    let old := wm[t]
    wm.set t ((old &&& 0x8000000000000000 &&& ~~~v) ||| (old &&& 0x007F000000000000) ||| (v &&& 0xFF)) h
  else wm

/-- Put one landed value in its place. -/
def landOne (c : Core) (d : Dst) (v : BitVec 256) : Core :=
  match d with
  | .s cell => if cell = 0 then c else { c with r := c.r.setCell cell (v.setWidth 64) }
  | .p i => { c with r := c.r.setP i (v.getLsbD 0) }
  | .h i => { c with r := c.r.setH i v }
  | .stg i => { c with r := c.r.setStg i (v.setWidth 64) }
  | .lsel => { c with r := { c.r with lsel := v.setWidth 2 } }
  | .sp code =>
    if code = 0x5A then { c with r := { c.r with rpos := v.setWidth 4 } }
    else if code = 0x58 then { c with r := { c.r with mtol := v.setWidth 64 } }
    else if 0x50 ≤ code ∧ code ≤ 0x57 then { c with wm := landWm c.wm (code - 0x50) (v.setWidth 64) }
    else c
  | .ex i => { c with emu := c.emu.map fun e => { e with ex := if h : i < 8 then e.ex.set i (v.setWidth 64) h else e.ex } }
  | .ep i => { c with emu := c.emu.map fun e =>
      { e with ep := if v.getLsbD 0 then e.ep ||| ((1 : BitVec 4) <<< i) else e.ep &&& ~~~((1 : BitVec 4) <<< i) } }

/-- Land the results of the list that are due, in issue order (R22). -/
def landList (now : Nat) : List InFlight → Core → Core
  | [], c => c
  | e :: l, c => landList now l (if e.due ≤ now then landOne c e.dst e.val else c)

/-- Land every result that is due at the current architectural cycle. -/
def landDue (c : Core) : Core :=
  { landList c.now c.inflight c with inflight := stillFlying c.now c.inflight }

/-- Land everything in flight, as trap entry, debug halt, pre-emption and an emulation sequence wait for (R21). -/
def landAll (c : Core) : Core :=
  { landList (c.inflight.foldl (fun m e => max m e.due) 0) c.inflight c with inflight := [] }

/-- Writes of a destination that a later-issued write has overtaken are discarded (R22). -/
def dropFlying (d : Dst) (s : State) : State := s.onC fun c => { c with inflight := c.inflight.filter fun e => e.dst != d }

/-- Put a result in flight: it lands lat architectural cycles after this bundle (R19). -/
def post (k : Slot) (d : Dst) (v : BitVec 256) (lat : Nat) (s : State) : State :=
  s.onC fun c => { c with inflight := c.inflight ++ [⟨d, v, c.now + lat, k.idx, c.pc, false⟩] }

/-- Put a variable-latency result in flight: its readers interlock until the next bundle boundary lands it (R20). -/
def postVar (k : Slot) (d : Dst) (v : BitVec 256) (s : State) : State :=
  s.onC fun c => { c with inflight := c.inflight ++ [⟨d, v, c.now + 1, k.idx, c.pc, true⟩] }

/-- A result that lands outside its bundle: of an engine, a stream, a ranked atomic or a released operation. A checkpoint
takes in the value that a write from before it lands (R96). -/
def landLate (e : InFlight) (s : State) : State :=
  s.onC fun c =>
    { c with
      inflight := c.inflight ++ [e]
      spec := c.spec.map fun x => { x with infl := x.infl ++ [e] } }

/-- Save a prior value in the undo list (R28): only a bundle in progress keeps one, and a sequence's private writes none. -/
def pushUndo (cls : BitVec 3) (idx : BitVec 12) (v : BitVec 256) (s : State) : State :=
  if s.c.emu.isSome then s
  else s.onC fun c => { c with bun := { c.bun with undo := c.bun.undo ++ [⟨cls, idx, v⟩] } }

/-- A write of a scalar register (R19, R28, R80, R86). -/
def writeS (k : Slot) (r : BitVec 6) (v : Word) (lat : Nat) (s : State) : State :=
  if r = 0 then s
  else if s.c.emu.isSome && decide (56 ≤ r.toNat) then post k (.ex (r.toNat - 56)) (v.setWidth 256) lat s
  else
    let cell := cellOf s.src.rpos r
    post k (.s cell) (v.setWidth 256) lat (pushUndo 0 (r.setWidth 12) ((s.c.r.cell cell).setWidth 256) s)

/-- A write of a scalar register by a variable-latency operation (R20). -/
def writeVar (k : Slot) (r : BitVec 6) (v : Word) (s : State) : State :=
  if r = 0 then s
  else if s.c.emu.isSome && decide (56 ≤ r.toNat) then postVar k (.ex (r.toNat - 56)) (v.setWidth 256) s
  else
    let cell := cellOf s.src.rpos r
    postVar k (.s cell) (v.setWidth 256) (pushUndo 0 (r.setWidth 12) ((s.c.r.cell cell).setWidth 256) s)

/-- The undo entry of a scalar destination whose value comes later (R28). -/
def undoS (r : BitVec 6) (s : State) : State :=
  if r = 0 then s else pushUndo 0 (r.setWidth 12) ((s.c.r.cell (cellOf s.src.rpos r)).setWidth 256) s

/-- A write of a predicate: no undo entry, since psnap holds all sixteen (R28, R80). -/
def writeP (k : Slot) (i : BitVec 4) (b : Bool) (lat : Nat) (s : State) : State :=
  if i = 0 then s
  else if s.c.emu.isSome && decide (12 ≤ i.toNat) then post k (.ep (i.toNat - 12)) (if b then 1 else 0) lat s
  else post k (.p i.toNat) (if b then 1 else 0) lat s

/-- A write of a handle register. -/
def writeH (k : Slot) (i : BitVec 5) (v : BitVec 256) (lat : Nat) (s : State) : State :=
  post k (.h i) v lat (pushUndo 1 (i.setWidth 12) (s.c.r.rdH i) s)

/-- A write of a staging register: its undo index is engine slot * 8 + register, 32 to 63 (Table 3-5). -/
def writeStg (k : Slot) (i : BitVec 5) (v : Word) (lat : Nat) (s : State) : State :=
  post k (.stg i) (v.setWidth 256) lat (pushUndo 2 (32 + i.setWidth 12) ((s.c.r.rdStg i).setWidth 256) s)

/-- OR flags into the sticky record of a slot; the first flags set V and BADDR (R375). -/
def orFlags (k : Nat) (addr : Word) (fl : BitVec 6) (s : State) : State :=
  if fl = 0 then s
  else s.onC fun c =>
    if h : k < 8 then
      let old := c.srec[k]
      let base := if old.getLsbD 63 then old else (1 <<< 63) ||| ((addr >>> 5 &&& 0x7FFFFFFFFFFF) <<< 6) ||| (old &&& 63)
      { c with srec := c.srec.set k (base ||| fl.setWidth 64) h }
    else c

/-- The cell of a scalar destination whose value comes later: 0 to 47, 48 + ring cell, or 64 + i for exi of an emulation
sequence (R86, R353). -/
def destCell (s : State) (r : BitVec 6) : BitVec 7 :=
  if r = 0 then 0
  else if s.c.emu.isSome && decide (56 ≤ r.toNat) then BitVec.ofNat 7 (r.toNat + 8)
  else (cellOf s.src.rpos r).setWidth 7

/-- The destination that such a cell is. -/
def cellDst (c : BitVec 7) : Dst := if c.toNat < 64 then .s (c.setWidth 6) else .ex (c.toNat - 64)

/-- Flags of an operation of the issue pipe, whose bundle is the current one. -/
def raiseFlags (k : Slot) (fl : BitVec 6) (s : State) : State := orFlags k.idx s.c.pc fl s

/-- The view of R33: predicates from psnap, every register with an undo entry at the latest such entry. -/
def undoView (x : Regs) (psnap : BitVec 16) : List UndoEntry → Regs
  | [] => { x with p := psnap }
  | u :: us =>
    let x' :=
      if u.cls = 0 then x.setCell (cellOf x.rpos (u.idx.setWidth 6)) (u.val.setWidth 64)
      else if u.cls = 1 then x.setH (u.idx.setWidth 5) u.val
      else if u.cls = 2 then x.setStg (u.idx.setWidth 5) (u.val.setWidth 64)
      else if u.cls = 4 then { x with lsel := u.val.setWidth 2 }
      else if u.idx = 0x58 then { x with mtol := u.val.setWidth 64 }
      else if u.idx = 0x5A then { x with rpos := (u.val >>> 36).setWidth 4 }
      else x
    undoView x' psnap us

end Sys2Proof.Machine
end

