-- ==== Sys2Proof/Machine/Memory.lean ====
section
/-! DEFINITION. Memory by home address in one canonical form, and address resolution: windows, range entries, page tables (R2, R193, R194, R210, R303 to R309, R319). -/

namespace Sys2Proof.Machine

/-- The byte at a home address: an unlisted address reads as zero (DESIGN CHOICE, log 2). -/
def memGet (m : List Host.Cell) (a : Nat) : Byte := (SMap.get? m a).getD 0

/-- Write one byte; writing zero takes the entry out, so that equal memories are equal lists. -/
def memSet (m : List Host.Cell) (a : Nat) (b : Byte) : List Host.Cell :=
  if b = 0 then SMap.del m a else SMap.put m a b

/-- The canonical form: addresses rise strictly and no listed byte is zero. -/
def Memory.wf (m : List Host.Cell) : Bool := SMap.risesFrom 0 m && m.all fun c => c.2 != 0

/-- Write a list of bytes at their addresses. -/
def memSetAll (l : List Host.Cell) (m : List Host.Cell) : List Host.Cell := l.foldl (fun m c => memSet m c.1 c.2) m

/-- The n bytes from an address on. -/
def memBytes (m : List Host.Cell) (a n : Nat) : List Byte := (List.range n).map fun i => memGet m (a + i)

/-- Little-endian value of bytes (R2). -/
def leNat : List Byte → Nat
  | [] => 0
  | b :: bs => b.toNat + 256 * leNat bs

/-- The n little-endian bytes of a number (R2). -/
def natLe : Nat → Nat → List Byte
  | 0, _ => []
  | n + 1, v => BitVec.ofNat 8 v :: natLe n (v / 256)

/-- Bytes at successive addresses. -/
def cellsAt (a : Nat) (bs : List Byte) : List Host.Cell := bs.zipIdx.map fun x => (a + x.2, x.1)

/-- Home addresses: device memory is its physical address; cluster SRAM, the pool's scratchpad and host memory stand in
disjoint ranges above it. -/
def clusterHome (off : Nat) : Nat := 2 ^ 48 + off
def poolHome (off : Nat) : Nat := 2 ^ 49 + off
def hostHome (a : Nat) : Nat := 2 ^ 64 + a

/-- Device memory that a mapping reaches under a key stands at its physical address, tagged with the key and the key's
generation; tag 0 is the device's own key (R318). -/
def tagHome (tag a : Nat) : Nat := tag * 2 ^ 80 + a
def homeTag (a : Nat) : Nat := a / 2 ^ 80
def homePhys (a : Nat) : Nat := a % 2 ^ 80

/-- The tag of a block that holds bytes which the host stored as they were (R325). -/
def rawTag : Nat := 64

/-- The 64-byte block of a home address. -/
def homeBlock (a : Nat) : Nat := homePhys a / 64

def isPoolHome (a : Nat) : Bool := decide (2 ^ 49 ≤ a) && decide (a < 2 ^ 50)
def isClusterHome (a : Nat) : Bool := decide (2 ^ 48 ≤ a) && decide (a < 2 ^ 49)

/-- Fields of the partition word (Table 10-1). -/
def partMrg (p : Word) : Nat := p.toNat % 128
def partAcct (p : Word) : Nat := p.toNat / 256 % 8

/-- Is the word a partition (R193)? -/
def partOk (p : Word) : Bool :=
  decide (p.toNat / 2 ^ 11 = 0) && !p.getLsbD 7 && decide (4 ≤ partMrg p) && decide (partMrg p ≤ 123)
    && decide (partMrg p + 4 * (partAcct p + 1) + 1 ≤ 128)

/-- Bytes of the scratchpad (R193). -/
def padBytes (p : Word) : Nat := (128 - partMrg p - 4 * (partAcct p + 1)) * 65536

/-- What an access does (Table 16-5, KIND). -/
inductive Acc where
  | read | write | fetch | atomic
  deriving DecidableEq, Repr

def Acc.code : Acc → Nat
  | .read => 0 | .write => 1 | .fetch => 2 | .atomic => 3

/-- tval of Table 16-5. -/
def tvalVa (k : Acc) (srce va : Nat) : Word := BitVec.ofNat 64 (k.code * 2 ^ 54 + srce * 2 ^ 52 + va % 2 ^ 52)

/-- Why an address does not resolve: a permission fault or a translation fault, with its tval. -/
structure TransFault where
  perm : Bool
  tval : Word
  deriving DecidableEq, Repr

/-- The cause of a fault of the issue pipe (R303). -/
def TransFault.cause (f : TransFault) (k : Acc) : Nat :=
  if k = .fetch then (if f.perm then 0x31 else 0x30) else (if f.perm then 0x34 else 0x33)

/-- An 8-byte entry of a page table, one immediate read of physical memory (R309). -/
def pteAt (m : List Host.Cell) (a : Nat) : Nat := leNat (memBytes m a 8)

def pteAddr (e : Nat) : Nat := e / 2 ^ 12 % 2 ^ 36 * 2 ^ 12
def pteKey (e : Nat) : Nat := e / 2 ^ 58
def pteBit (e i : Nat) : Bool := decide (e / 2 ^ i % 2 = 1)

/-- The size that a leaf at a level maps (Table 16-3). -/
def pageSize (lvl : Nat) (cont : Bool) : Nat :=
  if lvl = 0 then (if cont then 65536 else 4096) else 4096 * 512 ^ lvl

/-- Members of a 64 KiB group agree in CONT, V, R, W, X and KEY, and their ADDRs are consecutive from 64 KiB aligned on
(R307). -/
def contGroupOk (m : List Host.Cell) (table idx : Nat) : Bool :=
  let first := pteAt m (table + 8 * (idx / 16 * 16))
  decide (pteAddr first % 65536 = 0) &&
  (List.range 16).all fun j =>
    let e := pteAt m (table + 8 * (idx / 16 * 16 + j))
    pteBit e 5 && decide (e % 16 = first % 16) && decide (pteKey e = pteKey first)
      && decide (pteAddr e = pteAddr first + 4096 * j)

/-- The walk at one level (R306, R307): the leaf that an address meets in a table, as virtual base, size and entry, none where
the entry is invalid, and what below finds in the next table. The entry of a 64 KiB page is its group's first. -/
def walkLevel (m : List Host.Cell) (va lvl table : Nat) (below : Nat → Option (Nat × Nat × Nat)) : Option (Nat × Nat × Nat) :=
  let idx := va / 2 ^ (12 + 9 * lvl) % (if lvl = 3 then 8192 else 512)
  let e := pteAt m (table + 8 * idx)
  if !pteBit e 0 ∨ e / 2 ^ 48 % 2 ^ 10 ≠ 0 ∨ e / 2 ^ 6 % 2 ^ 6 ≠ 0 ∨ (pteBit e 5 ∧ lvl ≠ 0) then none
  else if pteBit e 4 then
    let size := pageSize lvl (pteBit e 5)
    if lvl = 3 ∨ (pteBit e 2 ∧ pteBit e 3) then none
    else if pteBit e 5 then
      (if contGroupOk m table idx then some (va / size * size, size, pteAt m (table + 8 * (idx / 16 * 16))) else none)
    else if pteAddr e % size ≠ 0 then none
    else some (va / size * size, size, e)
  else below (pteAddr e)

/-- The walk from a table at a level down to its leaf (R306). -/
def walkFrom (m : List Host.Cell) (va : Nat) : Nat → Nat → Option (Nat × Nat × Nat)
  | 0, table => walkLevel m va 0 table fun _ => none
  | n + 1, table => walkLevel m va (n + 1) table (walkFrom m va n)

/-- The entries of a table that memory holds. -/
def tableIdx (m : List Host.Cell) (table n : Nat) : List Nat :=
  ((m.filter fun c => decide (table ≤ c.1) && decide (c.1 < table + 8 * n)).map fun c => (c.1 - table) / 8).eraseDups

/-- The pages that page tables map, with their sizes and entries (R306). -/
def leafEntries (m : List Host.Cell) : Nat → Nat → List (Nat × Nat × Nat)
  | lvl, table =>
    (tableIdx m table (if lvl = 3 then 8192 else 512)).flatMap fun i =>
      let e := pteAt m (table + 8 * i)
      if !pteBit e 0 then []
      else if pteBit e 4 then [(pteAddr e, pageSize lvl false, e)]
      else match lvl with
        | 0 => []
        | n + 1 => leafEntries m n (pteAddr e)

/-- The memory of a table at a level, as base and size (Table 16-3). -/
def tableSpan (lvl table : Nat) : Nat × Nat := (table, if lvl = 3 then 65536 else 4096)

/-- The tables that the entries of a table name. -/
def lowerTables (m : List Host.Cell) (lvl table : Nat) : List Nat :=
  (tableIdx m table (if lvl = 3 then 8192 else 512)).filterMap fun i =>
    let e := pteAt m (table + 8 * i)
    if pteBit e 0 && !pteBit e 4 then some (pteAddr e) else none

/-- The physical memory that page tables take (R306). -/
def tableSpans (m : List Host.Cell) : Nat → Nat → List (Nat × Nat)
  | 0, table => [tableSpan 0 table]
  | n + 1, table => tableSpan (n + 1) table :: (lowerTables m (n + 1) table).flatMap (tableSpans m n)

/-- Memory as it stands at home, writes that the task's snapshot does not hold among it: what an immediate read sees. -/
def homeMem (s : State) : List Host.Cell := memSetAll s.outer s.mem

/-- The page of an address: a cached translation where one stands (R309, R310), else the walk. -/
def pageOf (s : State) (ctx : Nat) (root va : Nat) : Option (Nat × Nat × Nat) :=
  match s.mon.tlb.find? fun t => t.1 = ctx ∧ t.2.1 ≤ va ∧ va < t.2.1 + t.2.2.1 with
  | some t => some t.2
  | none => walkFrom (homeMem s) va 3 root

/-- The context of the modelled core's task. -/
def State.ctx? (s : State) : Option Context := SMap.get? s.mon.ctxs s.c.info.ctx

/-- A key ID that may be used: the device's, or one that a tenant holds now (R318, R319). -/
def keyLive (s : State) (dev : Bool) (key : Nat) : Bool := dev || key == 0 || (SMap.get? s.mon.keyOwner key).isSome

/-- The tag of a key ID as it stands: the key given anew under an ID is another key (R318, R319). -/
def keyTag (s : State) (key : Nat) : Nat := if key = 0 then 0 else key + 64 * (SMap.get? s.mon.keyGen key).getD 0

/-- Does a range entry hold the address? -/
def rangeHolds (e : RangeEntry) (va : Nat) : Bool := e.valid && decide (e.base ≤ va) && decide (va < e.limit)

/-- Resolve a virtual address of a context's task to its home address (R303); an address whose walk is invalid is unmapped
(R307, Table 16-5); dev marks a device access, which needs only
VALID (R305). -/
def translate (s : State) (ctx : Nat) (k : Acc) (dev : Bool) (va : Nat) : Except TransFault Nat :=
  if 2 ^ 52 ≤ va then .error ⟨false, tvalVa k 3 va⟩
  else
    let w := va / 2 ^ 40
    let off := va % 2 ^ 40
    if w = 0xFFF ∨ w = 0xFFE ∨ w = 0xFFD then
      if k = .fetch then .error ⟨false, tvalVa k 2 va⟩
      else if w = 0xFFF then
        (if off < padBytes s.c.info.part then .ok (poolHome off) else .error ⟨false, tvalVa k 2 va⟩)
      else if w = 0xFFE then
        (if off < 2 ^ 25 then .ok (clusterHome off) else .error ⟨false, tvalVa k 2 va⟩)
      else if off < 64 then .error ⟨true, tvalVa k 2 va⟩
      else .error ⟨false, tvalVa k 2 va⟩
    else
      match SMap.get? s.mon.ctxs ctx with
      | none => .error ⟨false, tvalVa k 3 va⟩
      | some c =>
        match c.ranges.find? fun e => rangeHolds e.2 va with
        | some (_, e) =>
          let ok := dev || match k with | .read => e.tr | .write => e.tw | .atomic => e.tw | .fetch => e.tx
          if ok && keyLive s e.dev e.key then
            .ok (tagHome (if e.dev then 0 else keyTag s e.key) ((va + e.offset.toNat) % 2 ^ 48)) else .error ⟨true, tvalVa k 0 va⟩
        | none =>
          match pageOf s ctx c.recd.ptroot va with
          | none => .error ⟨false, tvalVa k 3 va⟩
          | some (vb, _, e) =>
            let ok := dev || match k with
              | .read => pteBit e 1 | .write => pteBit e 2 | .atomic => pteBit e 2 | .fetch => pteBit e 3
            if ok && keyLive s false (pteKey e) then .ok (tagHome (keyTag s (pteKey e)) (pteAddr e + (va - vb))) else .error ⟨true, tvalVa k 1 va⟩

/-- Physical memory that nothing has written since the monitor took it or cleared it. -/
def scrubPhys (lo hi : Nat) (s : State) : State :=
  let out (c : Host.Cell) : Bool := !(decide (lo ≤ homePhys c.1) && decide (homePhys c.1 < hi))
  { s with
    mem := s.mem.filter out, outer := s.outer.filter out
    keyed := s.keyed.filter fun k => !(decide (lo ≤ 64 * k.1) && decide (64 * k.1 < hi)) }

/-- Is the byte's 64-byte block poisoned in what the task sees (R210)? -/
def poisoned (s : State) (a : Nat) : Bool := s.poison.contains (homeBlock a)

/-- Is it poisoned at home, where another agent's write may have cleaned it (R210)? -/
def homePoisoned (s : State) (a : Nat) : Bool := poisoned s a && !s.cleaned.contains (homeBlock a)

/-- Do the written cells cover a block whole? -/
def covers (cells : List Host.Cell) (b : Nat) : Bool := (List.range 64).all fun i => cells.any fun c => homePhys c.1 == 64 * b + i

/-- The blocks of the list that the written cells do not cover whole (R210). -/
def keepPoison (cells : List Host.Cell) (p : List Nat) : List Nat := p.filter fun b => !covers cells b

/-- The tag under which a block stands. -/
def tagOf (keyed : SMap Nat) (b : Nat) : Nat := (SMap.get? keyed b).getD 0

/-- Does an address reach its block under the key under which the block stands? Only device memory is encrypted (R318). -/
def sameKey (keyed : SMap Nat) (a : Nat) : Bool := decide (2 ^ 48 ≤ homePhys a) || homeTag a == tagOf keyed (homeBlock a)

/-- A block that stands under tag k as a read under a tag returns it: decrypted from the bytes that are stored, or those bytes
themselves for the host (R318, R325). A block that nothing has written reads as zero (log 2). -/
def otherKeyAt (k : Nat) (get : Nat → Byte) (tag b : Nat) : List Byte :=
  let bs := (List.range 64).map fun i => get (tagHome k (64 * b + i))
  let stored := if k = rawTag then bs else Config.xtsEncrypt (k % 64) (k / 64) (64 * b) bs
  if k = 0 ∧ bs.all (· == 0) then bs
  else if tag = rawTag then stored
  else Config.xtsDecrypt (tag % 64) (tag / 64) (64 * b) stored

/-- The same for a block as the tags of memory have it. -/
def otherKey (keyed : SMap Nat) (get : Nat → Byte) (tag b : Nat) : List Byte := otherKeyAt (tagOf keyed b) get tag b

/-- A byte at a home address, by the key that reaches it (R318). -/
def keyedByte (keyed : SMap Nat) (get : Nat → Byte) (a : Nat) : Byte :=
  if sameKey keyed a then get a
  else ((otherKey keyed get (homeTag a) (homeBlock a))[homePhys a % 64]?).getD 0

/-- A byte of what the task sees, held stores apart. -/
def State.memByte (s : State) (a : Nat) : Byte := keyedByte s.keyed (memGet s.mem) a

/-- The tags in canonical form: by rising block, and none that is the device's own key. -/
def keyedWf (m : SMap Nat) : Bool := SMap.risesFrom 0 m && m.all fun k => k.2 != 0

/-- Memory with the tags of its blocks. -/
abbrev KeyedMem := List Host.Cell × SMap Nat

/-- A block comes to stand under another key: the bytes that a read under it returns are stored under it (R318). -/
def rekeyBlock (tag b : Nat) (m : KeyedMem) : KeyedMem :=
  let bs := otherKey m.2 (memGet m.1) tag b
  let old := tagOf m.2 b
  (memSetAll (cellsAt (tagHome tag (64 * b)) bs) (memSetAll (cellsAt (tagHome old (64 * b)) (List.replicate 64 0)) m.1),
    if tag = 0 then SMap.del m.2 b else SMap.put m.2 b tag)

/-- Every block that the cells write under another key comes to stand under that key. -/
def rekeyAll (cells : List Host.Cell) (m : KeyedMem) : KeyedMem :=
  cells.foldl (fun m c => if sameKey m.2 c.1 then m else rekeyBlock (homeTag c.1) (homeBlock c.1) m) m

/-- The tag under which a block stands at home: that of the writes which wait for the snapshot, where one of them has rewritten it
(R217, R318). -/
def outTag (s : State) (b : Nat) : Nat :=
  match s.outer.find? fun c => homeBlock c.1 == b && decide (homePhys c.1 < 2 ^ 48) with
  | some c => homeTag c.1
  | none => tagOf s.keyed b

/-- A byte as it stands at home under the tag of its block. -/
def homeGet (s : State) (a : Nat) : Byte := (SMap.get? s.outer a).getD (memGet s.mem a)

/-- The waiting writes with a block rewritten whole under a tag: as a read under it returns the block at home (R318). -/
def rekeyOut (s : State) (tag b : Nat) : List Host.Cell :=
  (cellsAt (tagHome tag (64 * b)) (otherKeyAt (outTag s b) (homeGet s) tag b)).foldl (fun m c => SMap.put m c.1 c.2)
    (s.outer.filter fun c => homeBlock c.1 != b || decide (2 ^ 48 ≤ homePhys c.1))

/-- Does an address reach its block under the key under which the block stands at home? -/
def sameHome (s : State) (a : Nat) : Bool := decide (2 ^ 48 ≤ homePhys a) || homeTag a == outTag s (homeBlock a)

/-- Every block that the cells write under another key than it has at home comes to stand there under theirs. -/
def rekeyHome (cells : List Host.Cell) (s : State) : State :=
  cells.foldl (fun s c => if sameHome s c.1 then s else { s with outer := rekeyOut s (homeTag c.1) (homeBlock c.1) }) s

/-- Does a waiting write lie in the block of a cell? -/
def waitsOver (s : State) (c : Host.Cell) : Bool := s.outer.any fun o => homeBlock o.1 == homeBlock c.1

/-- One write of an instruction or command: its bytes enter memory, stand over writes of outside agents performed before,
and lift the mark of blocks it covers whole (R210, R216). -/
def State.write (cells : List Host.Cell) (s : State) : State :=
  let m := rekeyAll cells (s.mem, s.keyed)
  { s with
    mem := memSetAll cells m.1
    keyed := m.2
    outer := (rekeyHome (cells.filter (waitsOver s)) s).outer.filter fun o => !cells.any fun c => c.1 == o.1
    poison := keepPoison cells s.poison
    cleaned := keepPoison cells s.cleaned }

/-- A write that another agent performs: it stands at home, and enters the task's snapshot at its next boundary (R217); so does
the cleaning of a block that it covers whole (R210). A machine with no task running takes it at once. -/
def State.writeOuter (cells : List Host.Cell) (s : State) : State :=
  if s.c.info.running then
    { s with
      outer := cells.foldl (fun m c => SMap.put m c.1 c.2) (rekeyHome cells s).outer
      cleaned := s.cleaned ++ s.poison.filter fun b => covers cells b && !s.cleaned.contains b }
  else s.write cells

/-- The byte at its home location, outside writes counted, by the key that reaches it: what an atomic reads (R218, R318). -/
def homeByte (s : State) (a : Nat) : Byte :=
  if sameHome s a then homeGet s a
  else ((otherKeyAt (outTag s (homeBlock a)) (homeGet s) (homeTag a) (homeBlock a))[homePhys a % 64]?).getD 0

/-- The 64-bit word at its home location. -/
def homeWord (s : State) (a : Nat) : Word := BitVec.ofNat 64 (leNat ((List.range 8).map fun i => homeByte s (a + i)))

/-- At a boundary the task's snapshot takes in every write of an outside agent performed before it (R217). -/
def takeSnapshot (s : State) : State :=
  let m := rekeyAll s.outer (s.mem, s.keyed)
  { s with
    mem := memSetAll s.outer m.1, keyed := m.2, outer := []
    poison := s.poison.filter fun b => !s.cleaned.contains b
    cleaned := [] }

/-- The byte that the task reads: held stores first, newest first (R97), then its own writes and its snapshot (R216). -/
def heldByte (hs : List Held) (a : Nat) : Option Byte :=
  hs.reverse.findSome? fun h => (h.cells.find? fun c => c.1 == a).map (·.2)

def State.readByte (s : State) (a : Nat) : Byte :=
  match s.c.spec with
  | none => s.memByte a
  | some sp => (heldByte sp.held a).getD (s.memByte a)

def State.readBytes (s : State) (a n : Nat) : List Byte := (List.range n).map fun i => s.readByte (a + i)

/-- Full/empty tiles that hold bytes of the scratchpad (R200). -/
def tileOf (a : Nat) : Nat := (a - poolHome 0) / 4096

/-- Is the tile of a home address empty? Only the scratchpad has tiles. -/
def emptyAt (s : State) (a : Nat) : Bool :=
  isPoolHome a && decide (0 < (SMap.get? s.c.counts (tileOf a)).getD 0)

/-- Add one to, or take one from, the counts of tiles (R200). -/
def countUp (ts : List Nat) (m : SMap Nat) : SMap Nat := ts.foldl (fun m t => SMap.put m t ((SMap.get? m t).getD 0 + 1)) m

def countDown (ts : List Nat) (m : SMap Nat) : SMap Nat :=
  ts.foldl (fun m t =>
    let n := (SMap.get? m t).getD 0
    if n ≤ 1 then SMap.del m t else SMap.put m t (n - 1)) m

end Sys2Proof.Machine
end

