-- ==== Sys2Proof/Machine/Ops.lean ====
section
/-! DEFINITION. How a slot ends: commit, stall, slip or fault; the Sorting Frame's fault slots; taking an exception to the task handler or the scheduler; the return from it (R24 to R33, R92, R165, R348 to R357, R369 to R372). -/

namespace Sys2Proof.Machine

/-- What one step, slot or event answers. -/
abbrev Out := Host.Outcome State Fault Refusal

/-- An event that does not come about in the state. -/
def notNow (name : String) : Out := .refused (.notEnabled name)

/-- tval of Table 23-5. -/
def patchTval (eidx patch : Nat) (w : BitVec 32) : Word := BitVec.ofNat 64 (eidx * 2 ^ 40 + patch * 2 ^ 32 + w.toNat)

/-- How the body of a slot ends other than by completing. -/
inductive Exn where
  | fault (cause : Nat) (tval : Option Word)   -- a precise fault of the slot (R28); tval is none where the spec lays none out
  | deferred (cause : Nat) (tval : Option Word) -- a deferred fault, to the scheduler (R27, R97)
  | stall                                -- the bundle waits at issue
  | slip                                 -- the operation waits in its slip lane (R24)
  deriving DecidableEq, Repr

/-- A result or the way a slot ends. -/
abbrev Res (α : Type) := Except Exn α

/-- What a slot does once its guard holds and its operands have landed. -/
abbrev Body := State → Res State

/-- Does a launch row name this task? -/
def isRow (die q seq : Nat) (l : Launch) : Bool := l.die == die && l.q == q && l.seq == seq

/-- How many other tasks of the core's row the launch table marks as ended, of those whose row rank the test takes (R238, R240). -/
def rowEnded (s : State) (f : Nat → Bool) : Nat :=
  let i := s.c.info
  (s.fe.launches.filter (isRow i.die i.queue i.seq)).foldl (fun n l =>
    n + (l.tasks.filter fun r => r.t / 8 == i.t / 8 && r.t != i.t && r.ended && f (r.t % 8)).length) 0

/-- Is the launch idempotent, as its task knows (R370)? -/
def rerunOk (s : State) (l : Launch) : Bool := s.c.info.idempotent && decide (l.reruns < 2)

/-- Mark one task of a launch as ended and retired after a fault; the first cause stands (R240, R241, R372). -/
def failRow (t cause : Nat) (l : Launch) : Launch :=
  { l with
    failed := some (l.failed.getD cause)
    tasks := l.tasks.map fun r => if r.t = t then { r with ended := true, retired := true } else r }

/-- The core without its task: its lanes are gone, and what its registers hold is never read again (R236). The trap registers
stay as delivered. Its queued commands go with the next step, which settles what a stopped one was writing (R241). -/
def taskGone (c : Core) : Core :=
  { c with
    info := { c.info with running := false }
    bun := { Bundle.idle with stopped := true }
    inflight := [], failing := none
    lanes := [[], [], []], cmps := [], spec := none
    txn := { c.txn with act := false, acts := [] }
    z := Vector.replicate 8 Stream.unbound, bars := [], mismatch := none, barRec := none, xendRec := none, phaseAt := none
    trap := { c.trap with due := none }, haltAsked := false
    emu := none, ended := true, view := none, held := none, resume := none, tripAt := none, preempt := false }

/-- The rank of a task, highest level most significant (R117). -/
def rankKey (ranks : List Nat) : Nat := (ranks.zipIdx.map fun r => r.1 * 2 ^ (32 * r.2)).foldl (· + ·) 0

/-- The pending ranked atomics of a task that leaves its core (R117, R241); those on its pool go with it. -/
def leftRanked (c : Core) : List ForeignRanked :=
  (c.ranked.zipIdx.map fun x => (⟨rankKey c.info.ranks, x.2, x.1.op, x.1.addr, x.1.sb, x.1.cmp⟩ : ForeignRanked)).filter
    fun r => !isPoolHome r.addr

/-- A fault delivered to the scheduler ends the task (R372); a residue mismatch of an idempotent launch abandons the attempt
and starts the launch again from its record, at most twice (R380). -/
def endByFault (cause : Nat) (s : State) : State :=
  let i := s.c.info
  let rerun := cause == 0xF3 && s.fe.launches.any fun l => isRow i.die i.queue i.seq l && rerunOk s l
  let upd := fun (l : Launch) =>
    if isRow i.die i.queue i.seq l then
      (if rerun then { l with started := false, tasks := [], reruns := l.reruns + 1, ranked := [], far := l.far ++ s.c.far }
      else failRow i.t cause { l with ranked := l.ranked ++ leftRanked s.c, far := l.far ++ s.c.far })
    else l
  let c := taskGone s.c
  { s with
    c := { c with ranked := [] }
    fe := { s.fe with launches := s.fe.launches.map upd } }

/-- Causes that Table 24-1 lists. -/
def listedCauses : List Nat :=
  [0x00, 0x02, 0x03, 0x04, 0x05, 0x06, 0x07, 0x10, 0x11, 0x12, 0x13, 0x14, 0x20, 0x30, 0x31, 0x32, 0x33, 0x34, 0x35, 0x36, 0x37,
    0x40, 0x41, 0x42, 0x43, 0x50, 0x51, 0x60, 0x61, 0x70, 0x71, 0x72, 0x73, 0x74, 0x75, 0x76, 0x77, 0x80, 0x82, 0x83, 0x84, 0x85,
    0x90, 0x91, 0x92, 0x93, 0x94, 0xA0, 0xA1, 0xA2, 0xB0, 0xB1, 0xB2, 0xC0, 0xC1, 0xD0, 0xD1, 0xD2, 0xD8, 0xE0, 0xE1, 0xE2, 0xE3,
    0xF0, 0xF3, 0xF5, 0xF6, 0xF7]

/-- May a fault of a task with the cause reach the scheduler: one of Table 24-1 that a task meets, whose recipient is not the
monitor (R372, R374)? -/
def taskCause (c : Nat) : Bool :=
  listedCauses.contains c && !([0xC1, 0xD8, 0xE0, 0xE1, 0xE2, 0xE3, 0xF0, 0xF5, 0xF6, 0xF7].contains c)

/-- Recipient of a cause in Table 24-1: does it go to the task handler? Deferred kinds and group 0xF go to the scheduler. -/
def toHandler (cause : Nat) : Bool :=
  !([0x05, 0x40, 0x43, 0xB2, 0xD2].contains cause) && decide (cause / 16 ≠ 15)

/-- The fields of the patch registers that matching reads (Tables 23-1, 23-2). -/
def sfBits (w : BitVec 64) (hi lo : Nat) : Nat := w.toNat / 2 ^ lo % 2 ^ (hi - lo + 1)

/-- The SFCOND condition for a context and its tenant (Table 23-2). -/
def sfCondHolds (p : PatchSlot) (ctx tenant : Nat) : Bool :=
  match sfBits p.sfcond 63 62 with
  | 0 => true
  | 1 => sfBits p.sfcond 43 32 == ctx
  | 2 => sfBits p.sfcond 41 32 == tenant
  | _ => false

/-- Of the slots that match, the one that acts: highest PRIO, ties to the lower number (R350); the list rises in number. -/
def bestSlot : List PatchSlot → Option PatchSlot
  | [] => none
  | p :: ps =>
    match bestSlot ps with
    | none => some p
    | some q => if sfBits q.sfmatch 62 60 > sfBits p.sfmatch 62 60 then some q else some p

/-- The tenant of the task's context. -/
def tenantOf (s : State) : Nat := (s.ctx?.map fun c => c.recd.tenant).getD 0

/-- The fault slot that acts on a cause raised at slot k (R349). -/
def faultSlot (cause k : Nat) (s : State) : Option PatchSlot :=
  bestSlot (s.c.info.patch.slots.filter fun p =>
    sfBits p.sfmatch 63 63 == 1 && sfBits p.sfmatch 59 58 == 1 && sfBits p.sfmatch 47 40 == cause
      && sfBits p.sfcond (24 + k) (24 + k) == 1 && sfCondHolds p s.c.info.ctx (tenantOf s))

/-- The decode slot that claims a word at slot k (R348). -/
def decodeSlot (w : BitVec 32) (k : Nat) (s : State) : Option PatchSlot :=
  bestSlot (s.c.info.patch.slots.filter fun p =>
    sfBits p.sfmatch 63 63 == 1 && sfBits p.sfmatch 59 58 == 0 && sfBits p.sfmatch 57 55 == k
      && sfBits p.sfmatch 54 48 == w.toNat / 2 ^ 20 % 128
      && (w.toNat % 2 ^ 20) &&& (sfBits p.sfmatch 19 0) == (sfBits p.sfmatch 39 20) &&& (sfBits p.sfmatch 19 0)
      && sfCondHolds p s.c.info.ctx (tenantOf s))

/-- The eight slot words of the bundle at pc, little-endian (R2, R15). Where the fetch met an uncorrectable error that a fault slot
suppressed, they are free values (R357; log 76). -/
def bundleWords (s : State) : List (Slot × BitVec 32) :=
  match s.c.bun.blind with
  | some n => Slot.all.map fun k => (k, (Config.freeWord (n + k.idx)).setWidth 32)
  | none =>
    match translate s s.c.info.ctx .fetch false s.c.pc.toNat with
    | .error _ => []
    | .ok h => Slot.all.map fun k => (k, BitVec.ofNat 32 (leNat ((List.range 4).map fun i => s.memByte (h + 4 * k.idx + i))))

/-- The words of a bundle of the emulation store. -/
def emuWords (s : State) (e : Emu) : List (Slot × BitVec 32) :=
  Slot.all.zip ((s.c.info.patch.emu[e.start + e.pos]?).getD [])

/-- tval of Table 5-13: WORD is the word as fetched. -/
def wordTval (k : Slot) (f : BitVec 32) (rewr : Bool) : Word :=
  BitVec.ofNat 64 ((if rewr then 2 ^ 35 else 0) + k.idx * 2 ^ 32 + f.toNat)

/-- tval of a cause of Table 5-13 that slot k meets as it executes: its own word, and whether a rewrite made it (R75). -/
def execTval (k : Slot) (s : State) : Word :=
  let ws := match s.c.emu with | some e => emuWords s e | none => bundleWords s
  let f := ((ws.find? fun x => x.1 == k).map (·.2)).getD 0
  let rewr := match s.c.emu, decodeSlot f k.idx s with
    | none, some p => sfBits p.sfact 63 61 == 1
    | _, _ => false
  wordTval k f rewr

/-- One more action of a patch slot of the current set; the counter saturates (Table 23-4). -/
def countHit (n : Nat) (s : State) : State :=
  if s.c.info.patch != s.mon.sfCur then s else
  { s with mon := { s.mon with sfHits := SMap.put s.mon.sfHits n (min (2 ^ 64 - 1) ((SMap.get? s.mon.sfHits n).getD 0 + 1)) } }

/-- Abort the open transaction, if there is one (R188, Table 9-12). What it held is discarded, and so is what an operation of it
that still waits in a slip lane would join. -/
def abortTxn (reason : BitVec 4) (c : Core) : Core :=
  if c.txn.act then
    { c with
      txn := { c.txn with act := false, acts := [], commit := false, reason := reason }
      lanes := c.lanes.map fun l => l.map fun x => { x with dead := x.dead || x.joins } }
  else c

/-- A halt for debug takes effect: everything in flight has landed (R21, R35), and an open transaction aborts (Table 9-12). -/
def haltNow (c : Core) : Core := { landAll (abortTxn 5 c) with halted := true, haltAsked := false }

/-- tstat after trap entry (Table 3-3): SCHK stays, CAUSE, SLOT, RESUME, UNDO, SPLIT and DEF are set. -/
def tstatOf (old : Word) (cause slot resume undo : Nat) (split deferred : Bool) : Word :=
  (old &&& 0x80000000) ||| BitVec.ofNat 64 ((if deferred then 2 ^ 30 else 0) + (if split then 2 ^ 29 else 0)
    + undo % 16 * 2 ^ 24 + resume % 16 * 2 ^ 16 + slot % 8 * 2 ^ 8 + cause % 256)

/-- TAKING AN EXCEPTION to the task handler (R28 to R30, R371): everything in flight has landed; tstat, tpc, tval and isav
are set, psnap and the undo list kept, handler mode entered, and fetch goes to the handler. slot and resume are what
tstat records, tpc the bundle's address. An open transaction aborts with reason 2 for a fault of its own bundles, and with 5 for
the trap of a command that is no part of it: Table 9-12 has both (DESIGN CHOICE, log 97). A stepped bundle that faults ends the
step, at its split point (R35). -/
def takeTrap (cause slot resume : Nat) (tval : Word) (entry : Word) (s : State) : State :=
  let c := landAll (abortTxn (if resume = slot then 2 else 5) s.c)
  let b := c.bun
  { s with c :=
    { c with
      trap := { c.trap with
        tstat := tstatOf c.trap.tstat cause slot resume b.undo.length (decide (0 < resume)) false
        tpc := c.pc, tval := tval, isav := b.next, psnap := b.psnap, undo := b.undo, handler := true, split := b, bar := c.barRec }
      barRec := none, xendRec := none
      fused := { c.fused with fused := false, leader := none }
      haltAsked := c.haltAsked || c.stepOnce, stepOnce := false
      pc := entry
      bun := { Bundle.idle with stopped := true }
      view := none, resume := none } }

/-- A fault on its way to the scheduler: the trap registers show it, and the task ends (R27, R372). -/
def faultToScheduler (cause slot : Nat) (deferred : Bool) (tval : Word) (s : State) : State :=
  let t := s.c.trap
  let t' := if t.handler then t else
    { t with
      tstat := tstatOf t.tstat cause slot (if deferred then 0 else slot) s.c.bun.undo.length (!deferred && decide (0 < slot)) deferred
      tpc := s.c.pc, tval := tval, isav := s.c.bun.next, psnap := s.c.bun.psnap, undo := s.c.bun.undo }
  endByFault cause { s with c := { s.c with trap := t' } }

/-- Is a cause offered to the fault slots (R349)? Word causes of step 2 are kept out by their caller. -/
def offered (cause : Nat) : Bool := decide (cause / 16 ≠ 13) && decide (cause / 16 ≠ 15)

/-- Deliver a precise fault of slot k (R369): to the handler where the cause or a REDIRECT names it, where the task has one,
and not from handler mode; otherwise to the scheduler. -/
def deliver (k cause : Nat) (tval : Word) (wantHandler : Bool) (s : State) : State :=
  match s.c.trap.entry, s.c.trap.handler, wantHandler with
  | some e, false, true => takeTrap cause k k tval e s
  | _, _, _ => faultToScheduler cause k false tval s

/-- Does the active speculation's predicate wait for a ranked atomic whose phase the task has not issued (R97)? -/
def specDeadlock (s : State) : Bool :=
  match s.c.spec with
  | none => false
  | some sp =>
    s.c.cmps.any fun w => w.pd == sp.pred &&
      s.c.ranked.any fun r => r.armed.isNone && (w.a == .inr r.cell || w.b == .inr r.cell)

/-- Unresolved speculation. -/
def speculating (s : State) : Bool := s.c.spec.isSome

/-- A wait on the active speculation's resolution: 0xB2 where it could never end (R97). -/
def specWait (s : State) : Exn := if specDeadlock s then .deferred 0xB2 none else .stall

/-- Mark the bundle as not issued: its step gives the state at entry back. -/
def stalled (s : State) : State := s.onC fun c => { c with bun := { c.bun with stall := true } }

/-- Slip lanes and unfilled stream loads hold a result that only an event can bring. -/
def lanesWait (c : Core) : Bool :=
  c.lanes.any (fun l => !l.isEmpty) || c.z.toList.any fun z => !z.waits.isEmpty

/-- A queued command has still to land its register result (R150). -/
def engineOwes (c : Core) : Bool := (c.mxq ++ c.spq ++ c.syq).any fun q => q.cell != 0

/-- Results that trap entry, debug halt and emulation wait for and that only an event can bring (R21, R35, R150, R353). -/
def waitsInFlight (c : Core) : Bool := lanesWait c || engineOwes c

/-- The tval of a fault: where the spec lays out none for the cause it is a free value (log 6). -/
def tvalOf (tval : Option Word) (s : State) : Word × State :=
  match tval with
  | some v => (v, s)
  | none => (Config.freeWord s.c.fresh, s.onC fun c => { c with fresh := c.fresh + 1 })

/-- A deferred fault at a bundle boundary (R27): tstat shows DEF; only CREWRITE and SUPPRESS of a fault slot can change it
(R357). -/
def deferFault (cause slot : Nat) (tv : Option Word) (s : State) : State :=
  let (tval, s) := tvalOf tv s
  match if offered cause then faultSlot cause slot s else none with
  | none => faultToScheduler cause slot true tval s
  | some p =>
    let s := countHit p.n s
    match sfBits p.sfact 63 61 with
    | 4 => s
    | 5 => faultToScheduler (sfBits p.sfact 55 48) slot true tval s
    | _ => faultToScheduler cause slot true tval s

/-- The fault slot whose SUPPRESS removes a fault, if one does (R357). -/
def suppressor (d : Due) (s : State) : Option PatchSlot :=
  match if d.offer then faultSlot d.cause d.slot s else none with
  | some p => if sfBits p.sfact 63 61 = 4 then some p else none
  | none => none

/-- A precise fault that nothing holds up strikes: a fault inside an emulation sequence is one of its claimed slot and is not
offered (R349, R356); otherwise the fault slots of the Sorting Frame come first (R357), then delivery. -/
def strike (d : Due) (s : State) : State :=
  match s.c.emu with
  | some e => deliver e.slot d.cause d.tval (toHandler d.cause) { s with c := { s.c with emu := none, bun := e.bun } }
  | none =>
    match if d.offer then faultSlot d.cause d.slot s else none with
    | none => deliver d.slot d.cause d.tval (toHandler d.cause) s
    | some p =>
      let s := countHit p.n s
      match sfBits p.sfact 63 61 with
      | 3 => deliver d.slot d.cause d.tval (sfBits p.sfact 60 59 == 0) s
      | 4 => s
      | 5 => deliver d.slot (sfBits p.sfact 55 48) d.tval (toHandler d.cause) s
      | _ => deliver d.slot d.cause d.tval (toHandler d.cause) s

/-- A PRECISE FAULT of slot k (R28): trap entry waits for speculation and for what is in flight (R97, R371), and a wait that
could never end is a speculation deadlock (R97); a fault that a fault slot suppresses has no entry to wait for. While a fault
of a slot waits, the lower slots stand committed (late); one raised before any slot commits is found again. mayOffer is
false for cause 0x10 of step 2 (R77). -/
def raiseWith (late mayOffer : Bool) (k cause : Nat) (tv : Option Word) (s : State) : State :=
  let (tval, s) := tvalOf tv s
  let d : Due := ⟨k, cause, tval, mayOffer && offered cause && s.c.emu.isNone⟩
  let hold (t : State) : State :=
    if late then t.onC fun c => { c with trap := { c.trap with due := some d }, bun := { c.bun with stopped := true } }
    else stalled t
  if speculating s then
    (match specWait s with
    | .deferred c v =>
      let t := deferFault c k v s
      if t.c.bun.stopped then t else hold t
    | _ => hold s)
  else if (suppressor d s).isNone && waitsInFlight s.c then hold s
  else strike d s

/-- A precise fault of a slot that executes, offered to the fault slots. -/
def raise (k cause : Nat) (tval : Option Word) (s : State) : State := raiseWith true true k cause tval s

/-- The return from a trap, at the completion of a bundle that executed rett (R33, R92): handler mode is left and the bundle
at tpc is re-entered at slot RESUME with the undo list and psnap. The record of an interrupted bar is dropped where rett
goes elsewhere (R186). A safe point at which a trap was taken before the save stands again after it (R93, R296). -/
def returnFromTrap (c : Core) : Core :=
  { c with
    trap := { c.trap with handler := false, bar := none }
    pc := c.trap.tpc
    resume := some (c.trap.tstat.toNat / 2 ^ 16 % 16)
    bun :=
      let again := c.preempt && c.trap.tstat.toNat / 2 ^ 16 % 16 == 0
      { c.bun with safe := c.bun.safe || (c.trap.split.safe && again), drained := c.trap.split.drained && again }
    barRec := if c.trap.bar = some c.trap.tpc then c.trap.bar else none }

/-- The lane of a slot, by its place in the list of lanes (R24). -/
def laneIdx : Slot → Option Nat
  | .sc => some 0
  | .ar => some 1
  | .ve => some 2
  | _ => none

def laneOf (s : State) (n : Nat) : List Slipped := (s.c.lanes[n]?).getD []

/-- No operation waits in the lane any more: those behind an abandoned one do not execute (R27). -/
def dropLane (n : Nat) (s : State) : State := s.onC fun c => { c with lanes := c.lanes.set n [] }

/-- Put an operation into its lane, with the registers it read and the tensors it resolved (R24, R195). -/
def pushLane (n : Nat) (i : Instr) (ts : List (BitVec 5 × Tens)) (s : State) : State :=
  s.onC fun c => { c with
    lanes := c.lanes.set n (laneOf s n ++ [⟨i, s.src, c.pc, ts, c.now, c.bundles, c.cmdNo, 0, s.c.txn.act, false⟩]) }

/-- Operand fault with the tval of Table 7-9 (R143): reason and detail. -/
def opFault (reason : Nat) (detail : Nat := 0) : Exn :=
  .fault 0x07 (some (BitVec.ofNat 64 (reason * 2 ^ 32 + detail % 2 ^ 32)))

end Sys2Proof.Machine
end

