-- ==== Sys2Proof/Machine/Operands.lean ====
section
/-! DEFINITION. Tensor operands: descriptors, the handle check, scale tensors, element addressing, apertures, reading and writing codes and values (R43 to R45, R195 to R199, R208, R209, R211, R302). -/

namespace Sys2Proof.Machine

/-- A descriptor entry (Table 10-2); bad says that R195 calls it malformed. -/
structure Desc where
  base0  : Nat
  base1  : Nat
  dims   : List Nat
  strs   : List Nat
  fmt    : Nat
  cbi    : Nat
  layout : Nat
  nd     : Nat
  cur    : Bool
  scale  : Option Nat
  anchor : BitVec 10
  tag    : Nat
  bad    : Bool
  deriving DecidableEq, Repr

/-- The n bytes at offset o of a list, as a number. -/
def leAt (bs : List Byte) (o n : Nat) : Nat := leNat ((bs.drop o).take n)

/-- The fields of the 64 bytes of an entry (Table 10-2, R195). -/
def descOf (bs : List Byte) : Desc :=
  let ctl := leAt bs 46 1
  let sc := leAt bs 48 2
  let strs := [leAt bs 32 4, leAt bs 36 4, leAt bs 40 4]
  let nd := ctl / 4 % 8
  { base0 := leAt bs 0 8, base1 := leAt bs 8 8
    dims := [leAt bs 16 4, leAt bs 20 4, leAt bs 24 4, leAt bs 28 4], strs := strs
    fmt := leAt bs 44 1 % 32, cbi := leAt bs 45 1, layout := ctl % 4, nd := nd, cur := decide (ctl / 32 % 2 = 1)
    scale := if sc / 2 ^ 15 = 1 then some (sc % 4096) else none
    anchor := BitVec.ofNat 10 (leAt bs 50 2), tag := leAt bs 52 4
    bad := decide (ctl % 4 = 3) || decide (nd < 1) || decide (4 < nd) || decide (leAt bs 44 1 / 32 ≠ 0)
      || decide (ctl / 64 ≠ 0) || decide (leAt bs 47 1 ≠ 0) || decide (sc / 4096 % 8 ≠ 0) || decide (leAt bs 50 2 / 1024 ≠ 0)
      || decide (leAt bs 56 8 ≠ 0) || strs.any fun x => decide (x % 4 ≠ 0) }

/-- Bytes of one of the context's tables, by offset from its base; the tables are covered by valid range entries (R301). -/
def tableBytes (s : State) (base off n : Nat) : Res (List Byte) :=
  match translate s s.c.info.ctx .read false (base + off) with
  | .error f => .error (.fault (f.cause .read) (some f.tval))
  | .ok a => if (List.range n).any (fun i => poisoned s (a + i)) then .error (.fault 0x41 none) else .ok (s.readBytes a n)

/-- The context record of the task. -/
def taskRec (s : State) : Res CtxRecord :=
  match s.ctx? with
  | some c => .ok c.recd
  | none => .error (.fault 0x33 (some (tvalVa .read 3 0)))

/-- The byte that holds CUR: another task's publish is an immediate effect, which a handle sees at once (R195, R218, R220). -/
def curByte (s : State) (va : Nat) (b : Byte) : Byte :=
  match translate s s.c.info.ctx .read false va with
  | .ok a => (match SMap.get? s.outer a with | some x => (b &&& 0xDF) ||| (x &&& 0x20) | none => b)
  | .error _ => b

/-- A descriptor entry as it stands. -/
def rawDesc (s : State) (id : Nat) : Res Desc := do
  let r ← taskRec s
  let bs ← tableBytes s r.dtbase (64 * id) 64
  .ok (descOf (bs.take 46 ++ [curByte s (r.dtbase + 64 * id + 46) ((bs[46]?).getD 0)] ++ bs.drop 47))

/-- Read a descriptor entry at issue, for an access through it (R195). -/
def loadDesc (s : State) (id : Nat) : Res Desc := do
  let d ← rawDesc s id
  if d.bad then .error (.fault 0x37 none)
  else if 24 ≤ d.fmt then .error (.fault 0x13 none)
  else .ok d

/-- The codebook entries that a format uses (R41, R302): none outside formats 16 to 21. -/
def loadCodebook (s : State) (fmt cbi : Nat) : Res (List (BitVec 16)) :=
  if fmt < 16 ∨ 21 < fmt then .ok []
  else do
    let r ← taskRec s
    let n := 2 ^ fmtWidth fmt
    let bs ← tableBytes s r.cbbase (512 * cbi) (2 * n)
    .ok ((List.range n).map fun i => BitVec.ofNat 16 (leAt bs (2 * i) 2))

/-- The captured form of a descriptor, on its current or its other buffer (R195). -/
def baseOf (s : State) (id : Nat) (d : Desc) (shadow : Bool) : Res TBase := do
  let cb ← loadCodebook s d.fmt d.cbi
  .ok { id := id, base := if d.cur != shadow then d.base1 else d.base0, fmt := d.fmt, layout := d.layout, nd := d.nd
        dims := d.dims.take d.nd, strs := d.strs, cbi := d.cbi, cb := cb, anchor := d.anchor }

/-- Is a scale tensor of the shape its use asks (R45)? run0 names the run dimension: dimension 0, or the innermost. -/
def scaleFits (t sc : TBase) (run0 : Bool) : Bool :=
  sc.fmt == 1 && sc.layout == 0 && sc.nd == t.nd &&
  (t.dims.zip sc.dims).zipIdx.all fun x =>
    let isRun := if run0 then x.2 == 0 else x.2 + 1 == t.nd
    decide ((if isRun then (x.1.1 + 31) / 32 else x.1.1) ≤ x.1.2)

/-- The scale tensor of a quantised tensor, checked for its use; none where the use takes no scales (R44, R45). -/
def loadScale (s : State) (d : Desc) (t : TBase) (use : Option Bool) : Res (Option TBase) :=
  match use, d.scale with
  | some run0, some id =>
    if d.fmt ≤ 2 then .ok none
    else do
      let e ← rawDesc s id
      if e.bad then .error (.fault 0x37 none)
      else do
        let sc ← baseOf s id e false
        if scaleFits t sc run0 then .ok (some sc) else .error (opFault 17)
  | _, _ => .ok none

/-- A field of a handle (Table 10-3). -/
def hField (h : BitVec 256) (hi lo : Nat) : Nat := h.toNat / 2 ^ lo % 2 ^ (hi - lo + 1)

/-- The aperture of a view (R208, R209), step 1 of the handle check: its form, its source with the descriptor of that, and its
permutation, or the malformed-handle fault. A permutation that is longer than the view's DIM0 is taken, one that is shorter is not
(DESIGN CHOICE, log 100). -/
def loadAperture (s : State) (apx : Nat) (v : TBase) : Res (Nat × TBase × Desc × Option TBase) := do
  let ap := match s.ctx? with | some c => ((c.aps[apx]?).getD 0).toNat | none => 0
  let xf := ap / 2 ^ 60 % 8
  if ap / 2 ^ 63 = 0 ∨ ap % 4096 ≠ v.id ∨ 3 < xf then .error (.fault 0x37 none)
  else
    let sid := ap / 2 ^ 12 % 4096
    let sd ← rawDesc s sid
    let src ← baseOf s sid sd false
    let two := v.nd == 2 && src.nd == 2 && src.layout != 2
    let d (t : TBase) (i : Nat) := (t.dims[i]?).getD 0
    if sd.bad || !two then .error (.fault 0x37 none)
    else if xf = 0 then
      if src.fmt = v.fmt ∧ d v 0 = d src 1 ∧ d v 1 = d src 0 then .ok (xf, src, sd, none) else .error (.fault 0x37 none)
    else if xf = 1 then
      if v.fmt ≤ 2 ∧ v.dims = src.dims then .ok (xf, src, sd, none) else .error (.fault 0x37 none)
    else if xf = 2 then
      if v.fmt ≤ 2 ∧ 16 ≤ src.fmt ∧ src.fmt ≤ 21 ∧ v.dims = src.dims then .ok (xf, src, sd, none)
      else .error (.fault 0x37 none)
    else
      let pid := ap / 2 ^ 36 % 4096
      let pd ← rawDesc s pid
      let perm ← baseOf s pid pd false
      if !pd.bad ∧ perm.nd = 1 ∧ perm.layout = 0 ∧ 7 ≤ perm.fmt ∧ perm.fmt ≤ 13 ∧ src.fmt = v.fmt ∧ d v 1 = d src 1
          ∧ d v 0 ≤ d perm 0 then
        .ok (xf, src, sd, some perm)
      else .error (.fault 0x37 none)

/-- The format code of an aperture's source, and the scales that a dequantised view takes of it (R37, R45, R209). -/
def sourceScale (s : State) (ap : Option (Nat × TBase × Desc × Option TBase)) : Res (Option TBase) :=
  match ap with
  | none => .ok none
  | some (xf, src, sd, _) =>
    if 24 ≤ sd.fmt then .error (.fault 0x13 none) else if xf = 1 then loadScale s sd src (some false) else .ok none

/-- Bounds of the handle's region, step 3 of Table 10-4. -/
def inBounds : List Int → List Nat → List Nat → Bool
  | o :: os, e :: es, d :: ds => decide (0 ≤ o) && decide (o + e ≤ (d : Int)) && inBounds os es ds
  | _, _, _ => true

/-- Steps 1 to 3 of the handle check (R197), then the format codes of the tensor and of an aperture's source (R37, R195), then the
scale checks of the use (R45). -/
def resolve (s : State) (h : BitVec 256) (use : Option Bool) : Res Tens := do
  let id := hField h 11 0
  let d ← rawDesc s id
  let nd := hField h 23 20
  let view := hField h 15 14
  if d.bad ∨ hField h 31 24 ≠ 0 ∨ nd ≠ d.nd ∨ view = 3 ∨ (view = 1 ∧ d.base1 = 0) then .error (.fault 0x37 none)
  else
    let t ← baseOf s id d (view == 1)
    let ap ← if view = 2 then (do let a ← loadAperture s (hField h 19 16) t; .ok (some a)) else .ok none
    if hField h 255 224 ≠ d.tag then .error (.fault 0x35 none)
    else
      let bias : Int := signedOf 32 (hField h 191 160)
      let ext := (List.range nd).map fun i => hField h (96 + 16 * i + 15) (96 + 16 * i)
      let org := (List.range nd).map fun i =>
        let o : Int := (hField h (32 + 16 * i + 15) (32 + 16 * i) : Nat)
        if i = 0 then bias + o else o
      if !inBounds org ext t.dims then .error (.fault 0x36 none)
      else if 24 ≤ d.fmt then .error (.fault 0x13 none)
      else
        let srcSc ← sourceScale s ap
        let sc ← loadScale s d t use
        .ok { d := t, ext := ext, org := org, res := hField h 223 192, acls := hField h 13 12, view := view, scale := sc
              xform := (ap.map (·.1)).getD 0, src := ap.map (·.2.1), srcScale := srcSc
              perm := (ap.map (·.2.2.2)).join }

/-- The tensor that a handle register names, or what a slipped operation captured for it at issue (R195). -/
def useTens (s : State) (r : BitVec 5) (use : Option Bool) : Res Tens :=
  match (s.c.held.getD []).find? fun x => x.1 = r with
  | some x => .ok (if use.isNone then { x.2 with scale := none } else x.2)
  | none => resolve s (s.rdH r) use

/-- The number of elements of a region. -/
def count (ext : List Nat) : Nat := ext.foldl (· * ·) 1

/-- Every index of a region, row-major. -/
def allIdx : List Nat → List (List Nat)
  | [] => [[]]
  | e :: es => (List.range e).flatMap fun i => (allIdx es).map fun t => i :: t

/-- Coordinates of an index (R198). -/
def coords (t : Tens) (idx : List Nat) : List Nat := (t.org.zip idx).map fun x => (x.1 + x.2).toNat

/-- Sum of coordinate times stride over the first k dimensions. -/
def strideSum : Nat → List Nat → List Nat → Nat
  | k + 1, c :: cs, x :: xs => c * x + strideSum k cs xs
  | _, _, _ => 0

/-- The virtual address of the word that holds an element, and the element's position in it (R198). -/
def elemAt (t : TBase) (c : List Nat) : Nat × Nat :=
  let n := codesPerWord t.fmt
  let u := t.nd - 1
  let cu := c.getD u 0
  if t.layout = 1 then
    let w := (32 + n - 1) / n
    let cv := c.getD (u - 1) 0
    (t.base + strideSum (u - 1) c t.strs + cv / 32 * (t.strs[u - 1]?).getD 0 + cu / 32 * (128 * w) + cv % 32 * (4 * w)
      + 4 * (cu % 32 / n), cu % n)
  else (t.base + strideSum u c t.strs + 4 * (cu / n), cu % n)

/-- The bits of an element's word that hold elements of its row; the others are pad (R43). -/
def usedBits (t : TBase) (c : List Nat) : Nat :=
  let n := codesPerWord t.fmt
  let b := fmtWidth t.fmt
  let u := t.nd - 1
  let cu := c.getD u 0
  let lim := (t.dims[u]?).getD 0
  let first := if t.layout = 1 then cu / 32 * 32 + cu % 32 / n * n else cu / n * n
  let stop := if t.layout = 1 then min lim (cu / 32 * 32 + 32) else lim
  (List.range n).foldl (fun m j =>
    let x := first + j
    if x < stop then m ||| ((2 ^ b - 1) * 2 ^ (b * (x % n))) else m) 0

/-- The home addresses of the four bytes of a word. -/
def wordHomes (s : State) (k : Acc) (va : Nat) : Except TransFault (List Nat) :=
  if va % 4096 ≤ 4092 then (translate s s.c.info.ctx k false va).map fun a => [a, a + 1, a + 2, a + 3]
  else [va, va + 1, va + 2, va + 3].mapM fun v => translate s s.c.info.ctx k false v

/-- The bytes of a word that the bits of the mask touch. -/
def touched (mask : Nat) (hs : List Nat) : List Nat :=
  (hs.zipIdx.filter fun x => decide (mask / 2 ^ (8 * x.2) % 256 ≠ 0)).map (·.1)

/-- The home addresses of the bytes that hold an element. -/
def elemHomes (s : State) (k : Acc) (t : TBase) (c : List Nat) : Except TransFault (List Nat) := do
  let (va, pos) := elemAt t c
  let b := fmtWidth t.fmt
  let hs ← wordHomes s k va
  .ok (touched ((2 ^ b - 1) * 2 ^ (b * pos)) hs)

/-- The code of an element at its coordinates. -/
def rawCode (s : State) (t : TBase) (c : List Nat) : Except TransFault Nat := do
  let (va, pos) := elemAt t c
  let b := fmtWidth t.fmt
  let hs ← wordHomes s .read va
  .ok (leNat (hs.map s.readByte) / 2 ^ (b * pos) % 2 ^ b)

/-- The coordinates of an element's scale (R45). -/
def scaleCoords (t : TBase) (run0 : Bool) (c : List Nat) : List Nat :=
  c.zipIdx.map fun x => if (if run0 then x.2 == 0 else x.2 + 1 == t.nd) then x.1 / 32 else x.1

/-- The scale of an element: 1.0 where no scale tensor takes part (R44). -/
def scaleAt (s : State) (t : TBase) (sc : Option TBase) (run0 : Bool) (c : List Nat) : Except TransFault Num :=
  match sc with
  | none => .ok Num.one
  | some x => do
    let code ← rawCode s x (scaleCoords t run0 c)
    .ok (decodeNum 1 [] code)

/-- The code of a view element of an aperture (R209). -/
def viewCode (s : State) (t : Tens) (c : List Nat) : Except TransFault Nat :=
  match t.src, c with
  | some src, [i, j] =>
    if t.xform = 0 then rawCode s src [j, i]
    else if t.xform = 1 then do
      let code ← rawCode s src [i, j]
      let k ← scaleAt s src t.srcScale false [i, j]
      .ok (rndNum t.d.fmt t.d.cb 0 (Num.mul (decodeNum src.fmt src.cb code) k)).1
    else if t.xform = 2 then do
      let code ← rawCode s src [i, j]
      .ok (rndNum t.d.fmt t.d.cb 0 (decodeNum src.fmt src.cb code)).1
    else match t.perm with
      | some p => do
        let x := intOfCode p.fmt (← rawCode s p [i])
        if 0 ≤ x ∧ x < (((src.dims[0]?).getD 0 : Nat) : Int) then rawCode s src [x.toNat, j] else .ok 0
      | none => .ok 0
  | _, _ => .ok 0

/-- The code of an element of a region, through its view. -/
def codeAt (s : State) (t : Tens) (idx : List Nat) : Except TransFault Nat :=
  if t.view = 2 then viewCode s t (coords t idx) else rawCode s t.d (coords t idx)

/-- The value of a code of a tensor, its scale apart. -/
def valOfCode (t : Tens) (code : Nat) : Num := decodeNum t.d.fmt t.d.cb code

/-- The value of an element of a region: decoded and scaled (R44, R133). -/
def valAt (s : State) (t : Tens) (run0 : Bool) (idx : List Nat) : Except TransFault Num := do
  let code ← codeAt s t idx
  match t.scale with
  | none => .ok (valOfCode t code)
  | some _ =>
    let k ← scaleAt s t.d t.scale run0 (coords t idx)
    .ok (Num.mul (valOfCode t code) k)

/-- The home addresses that reading an element touches: the element's bytes, or its source's through an aperture, and its
scale's. -/
def readHomes (s : State) (t : Tens) (run0 : Bool) (idx : List Nat) : Except TransFault (List Nat) := do
  let c := coords t idx
  let own ←
    if t.view = 2 then
      match t.src, c with
      | some src, [i, j] =>
        if t.xform = 0 then elemHomes s .read src [j, i]
        else if t.xform = 3 then
          match t.perm with
          | some p => do
            let ph ← elemHomes s .read p [i]
            let x := intOfCode p.fmt (← rawCode s p [i])
            if 0 ≤ x ∧ x < (((src.dims[0]?).getD 0 : Nat) : Int) then do
              let h ← elemHomes s .read src [x.toNat, j]
              .ok (ph ++ h)
            else .ok ph
          | none => .ok []
        else do
          let h ← elemHomes s .read src [i, j]
          match t.xform, t.srcScale with
          | 1, some x => do
            let k ← elemHomes s .read x (scaleCoords src false [i, j])
            .ok (h ++ k)
          | _, _ => .ok h
      | _, _ => .ok []
    else elemHomes s .read t.d c
  match t.scale with
  | none => .ok own
  | some x => do
    let k ← elemHomes s .read x (scaleCoords t.d run0 c)
    .ok (own ++ k)

/-- The bytes of the buffer itself that reading an element touches, which for an aperture view is the source's (R199). -/
def bufferHomes (s : State) (t : Tens) (idx : List Nat) : Except TransFault (List Nat) := do
  let c := coords t idx
  if t.view = 2 then
    match t.src, c with
    | some src, [i, j] =>
      if t.xform = 0 then elemHomes s .read src [j, i]
      else if t.xform = 3 then
        match t.perm with
        | some p => do
          let x := intOfCode p.fmt (← rawCode s p [i])
          if 0 ≤ x ∧ x < (((src.dims[0]?).getD 0 : Nat) : Int) then elemHomes s .read src [x.toNat, j] else .ok []
        | none => .ok []
      else elemHomes s .read src [i, j]
    | _, _ => .ok []
  else elemHomes s .read t.d c

/-- All of a list, in order, without repeats of neighbours mattering. -/
def homesOf (f : List Nat → Except TransFault (List Nat)) : List (List Nat) → Except TransFault (List Nat)
  | [] => .ok []
  | i :: is => do
    let a ← f i
    let b ← homesOf f is
    .ok (a ++ b)

/-- The words that writing codes at coordinates touches, by virtual address: the bits of the elements written, their values,
and the bits of the word that hold elements at all. -/
def wordWrites (t : TBase) : List (List Nat × Nat) → SMap (Nat × Nat × Nat)
  | [] => []
  | (c, code) :: l =>
    let m := wordWrites t l
    let (va, pos) := elemAt t c
    let b := fmtWidth t.fmt
    let mask := (2 ^ b - 1) * 2 ^ (b * pos)
    let bits := code % 2 ^ b * 2 ^ (b * pos)
    match SMap.get? m va with
    | none => SMap.put m va (mask, bits, usedBits t c)
    | some (k, v, u) => if k &&& mask = mask then m else SMap.put m va (k ||| mask, v ||| bits, u)

/-- The bytes of a word in which a mask has a bit, as a mask. -/
def byteMask (m : Nat) : Nat :=
  (List.range 4).foldl (fun a k => if m / 2 ^ (8 * k) % 256 = 0 then a else a ||| (255 * 2 ^ (8 * k))) 0

/-- The bits of a word that are written: the elements, and pad bits as zero (R43). Where elements do not straddle bytes, a byte
of pad alone is written with the last element of the word, and not otherwise. -/
def writtenBits (fmt k u : Nat) : Nat :=
  let pad := u ^^^ 0xFFFFFFFF
  if 32 % fmtWidth fmt = 0 ∧ k.testBit u.log2 = false then k ||| (pad &&& byteMask k) else k ||| pad

/-- The cells that writing codes at coordinates changes: whole bytes, the untouched bits of a byte as they stand. -/
def codeCells (s : State) (t : TBase) (l : List (List Nat × Nat)) : Except TransFault (List Host.Cell) := do
  let ws ← (wordWrites t l).mapM fun w => do
    let hs ← wordHomes s .write w.1
    let k := writtenBits t.fmt w.2.1 w.2.2.2
    .ok ((hs.zipIdx.filter fun x => decide (k / 2 ^ (8 * x.2) % 256 ≠ 0)).map fun x =>
      let m := k / 2 ^ (8 * x.2) % 256
      let v := w.2.2.1 / 2 ^ (8 * x.2) % 256
      (x.1, ((s.readByte x.1) &&& ~~~(BitVec.ofNat 8 m)) ||| BitVec.ofNat 8 v))
  .ok ws.flatten

/-- Does a write of these cells cover only part of a poisoned 64-bit word (R211)? -/
def partialPoison (s : State) (cells : List Host.Cell) : Bool :=
  cells.any fun c => poisoned s c.1 && !(List.range 8).all fun i => cells.any fun d => d.1 == c.1 / 8 * 8 + i

/-- The cells for a region: codes by index. -/
def regionCells (s : State) (t : Tens) (l : List (List Nat × Nat)) : Except TransFault (List Host.Cell) :=
  codeCells s t.d (l.map fun x => (coords t x.1, x.2))

/-- A translation fault of the issue pipe as a precise fault (R303). -/
def pipeFault {α : Type} (k : Acc) : Except TransFault α → Res α
  | .ok a => .ok a
  | .error f => .error (.fault (f.cause k) (some f.tval))

/-- The coordinates of an aperture's source at the origin of a region: where no row of a permutation can be told, its first. -/
def sourceOrigin (s : State) (t : Tens) : List Nat :=
  let o (k : Nat) : Nat := ((t.org[k]?).getD 0).toNat
  if t.xform = 0 then [o 1, o 0]
  else if t.xform = 3 then
    match t.perm.map fun p => (rawCode s p [o 0]).map (intOfCode p.fmt) with
    | some (.ok x) => if 0 ≤ x ∧ x < ((((t.src.bind fun r => r.dims[0]?).getD 0 : Nat)) : Int) then [x.toNat, o 1] else [0, o 1]
    | _ => [0, o 1]
  else [o 0, o 1]

/-- The scratchpad, for the residence of a region that reaches no byte of its buffer, at its origin (R197, R199). -/
def originInPool (s : State) (t : Tens) : Bool :=
  let b := if t.view = 2 then (t.src.map fun x => (elemAt x (sourceOrigin s t)).1).getD 0 else (elemAt t.d (t.org.map Int.toNat)).1
  decide (b / 2 ^ 40 = 0xFFF) && decide (b % 2 ^ 40 < padBytes s.c.info.part)

/-- Layout (R198, R199): tiled needs two dimensions, and compressed layout is no operand outside `cpz` and `cpx`. -/
def layoutOk (t : Tens) : Bool := t.d.layout != 2 && !(t.d.layout == 1 && decide (t.d.nd < 2))

/-- The first address of each page that n elements of a row touch, from coordinates c on. -/
def rowVas (t : TBase) (c : List Nat) (n : Nat) : List Nat :=
  if n = 0 then []
  else
    let cu := c.getLast?.getD 0
    let at_ (x : Nat) := (elemAt t (c.dropLast ++ [x])).1
    let segs := if t.layout = 1 then (List.range ((cu + n - 1) / 32 + 1 - cu / 32)).map fun i =>
        (at_ (max cu (32 * (cu / 32 + i))), at_ (min (cu + n) (32 * (cu / 32 + i) + 32) - 1))
      else [(at_ cu, at_ (cu + n - 1))]
    segs.flatMap fun g => g.1 :: (List.range ((g.2 + 3) / 4096 - g.1 / 4096)).map fun i => 4096 * (g.1 / 4096 + 1 + i)

/-- Steps 4 and 5 for rows of a region, each given by its outer indexes, its first inner index and its length (R197, R199).
The layout stands first, since R198 gives no address to an element of another one; pool asks for the scratchpad. Scales are
not part of it: engines reach them through their descriptor alone (R45). -/
def rowsReach (s : State) (k : Acc) (pool : Bool) (t : Tens) (rows : List (List Nat × Nat × Nat)) : Res Unit :=
  if !layoutOk t then .error (.fault 0x37 none)
  else if rows.all (fun r => r.2.2 == 0) then (if pool && !originInPool s t then .error (.fault 0x37 none) else .ok ())
  else if t.view = 2 ∧ k = .write then .error (.fault 0x34 (some (tvalVa .write 3 (elemAt t.d (t.org.map Int.toNat)).1)))
  else do
    let idxs := rows.flatMap fun r => (List.range r.2.2).map fun j => r.1 ++ [r.2.1 + j]
    let _ ← pipeFault k (if t.view = 2 then homesOf (readHomes s { t with scale := none } false) idxs else .ok [])
    let homes ← pipeFault k (
      if t.view = 2 then homesOf (bufferHomes s t) idxs
      else (rows.flatMap fun r => rowVas t.d (coords t (r.1 ++ [r.2.1])) r.2.2).mapM fun v => translate s s.c.info.ctx k false v)
    if pool && (!homes.all isPoolHome || (homes.isEmpty && !originInPool s t)) then .error (.fault 0x37 none) else .ok ()

/-- The rows of n slices of a region of these extents, from slice o along dimension 0 on. -/
def rowsFrom (ext : List Nat) (o n : Nat) : List (List Nat × Nat × Nat) :=
  match ext with
  | [] => []
  | [_] => [([], o, n)]
  | _ :: es => (List.range n).flatMap fun i => (allIdx es.dropLast).map fun r => ((o + i) :: r, 0, es.getLast?.getD 0)

/-- The rows of a whole region. -/
def wholeRows (t : Tens) : List (List Nat × Nat × Nat) := rowsFrom t.ext 0 (t.ext.head?.getD 0)

/-- An operand by its handle register, through steps 1 to 5 of the handle check, with the check of the scales that it uses
(R45, R197). -/
def wholeTensor (s : State) (k : Acc) (pool : Bool) (r : BitVec 5) (use : Option Bool := none) : Res Tens := do
  let t ← useTens s r none
  rowsReach s k pool t (wholeRows t)
  useTens s r use

/-- Steps 4 and 5 for an operand that an ar or ve instruction reads at the indexes given: translation, residence in the
scratchpad (R199); an empty tile slips (R24), a poisoned block raises cause 0x41 (R210). Scales are not required to lie in
the scratchpad: engines reach them through their descriptor alone (R45). -/
def pipeReads (s : State) (t : Tens) (run0 : Bool) (idxs : List (List Nat)) : Res Unit := do
  let hs ← pipeFault .read (homesOf (readHomes s t run0) idxs)
  let own ← pipeFault .read (homesOf (bufferHomes s t) idxs)
  if !layoutOk t ∨ !own.all isPoolHome ∨ (own.isEmpty ∧ !originInPool s t) then .error (.fault 0x37 none)
  else if hs.any (emptyAt s) then .error .slip
  else if hs.any (poisoned s) then .error (.fault 0x41 none)
  else .ok ()

/-- The same for a destination: a write through an aperture raises cause 0x34 (R209). -/
def pipeWrites (s : State) (t : Tens) (idxs : List (List Nat)) : Res Unit :=
  if t.view = 2 && !idxs.isEmpty then .error (.fault 0x34 (some (tvalVa .write 3 (elemAt t.d (t.org.map Int.toNat)).1)))
  else do
    let hs ← pipeFault .write (homesOf (fun i => elemHomes s .write t.d (coords t i)) idxs)
    if !layoutOk t ∨ !hs.all isPoolHome ∨ (idxs.isEmpty ∧ !originInPool s t) then .error (.fault 0x37 none)
    else if hs.any (emptyAt s) then .error .slip
    else .ok ()

/-- Write cells as an ar or ve instruction does: a partial write of a poisoned word raises cause 0x42 and writes nothing
(R211); a pool write of the ve slot under speculation is held (R97). -/
def pipeWrite (cells : List Host.Cell) (s : State) : Res State :=
  if partialPoison s cells then .error (.fault 0x42 none)
  else match s.c.spec with
    | none => .ok (s.write cells)
    | some sp =>
      if cells.isEmpty then .ok s
      else if 32 ≤ sp.held.length then .error (specWait s)
      else .ok (s.onC fun c => { c with spec := some { sp with held := sp.held ++ [⟨cells, false⟩] } })

/-- The scales of a destination that an ar or ve instruction reads: an empty tile slips, a poisoned block raises cause 0x41
(R24, R135, R210). -/
def scaleReads (s : State) (t : Tens) (run0 : Bool) (idxs : List (List Nat)) : Res Unit :=
  match t.scale with
  | none => .ok ()
  | some x => do
    let hs ← pipeFault .read (homesOf (fun i => elemHomes s .read x (scaleCoords t.d run0 (coords t i))) idxs)
    if hs.any (emptyAt s) then .error .slip
    else if hs.any (poisoned s) then .error (.fault 0x41 none)
    else .ok ()

/-- NV of an element's own value: the product of its code and its scale makes a NaN (R44, R57). -/
def scaleNv (s : State) (t : Tens) (run0 : Bool) (idx : List Nat) : Except TransFault (BitVec 6) := do
  match t.scale with
  | none => .ok 0
  | some _ =>
    let v := valOfCode t (← codeAt s t idx)
    let k ← scaleAt s t.d t.scale run0 (coords t idx)
    .ok (nvOf (v.isNan || k.isNan) (Num.mul v k))

/-- Some of a stopped command's or drain's bytes land: each is prior or new, with no rule of choice (R165, R177, R379; log 6). -/
def applyFree (cells : List Host.Cell) (s : State) : State :=
  let kept := (cells.zipIdx.filter fun x => Config.freeByteIsNew (s.c.fresh + x.2)).map (·.1)
  (s.onC fun c => { c with fresh := c.fresh + cells.length }).write kept

/-- One more on a health counter; it saturates (R385). -/
def bump (k : Nat) (m : SMap Nat) : SMap Nat := SMap.put m k (min (2 ^ 64 - 1) ((SMap.get? m k).getD 0 + 1))

/-- Where an error of a location counts: pools, cluster SRAM or device memory, and the die (Table 24-5). -/
def errorPlace (s : State) (addr : Nat) : Nat × Nat :=
  let kind := if isPoolHome addr then 0 else if isClusterHome addr then 1 else 2
  (kind, if kind = 2 then (Config.dieOfPage (addr / 4096)).toNat else s.me / 64 % 4)

/-- One more residue mismatch of the core's die (R385). -/
def countResidue (s : State) : State :=
  { s with health := { s.health with resid := bump (s.me / 64) s.health.resid } }

/-- One more poisoned block, of a kind of memory of a die (R377, R385). -/
def countPoison (p : Nat × Nat) (s : State) : State :=
  { s with health := { s.health with ue := bump (4 * p.2 + p.1) s.health.ue } }

/-- A drain has found a residue mismatch: it counts, and is delivered at the next bundle boundary (R379, Table 24-3). -/
def noteMismatch (slot tile row col : Nat) (s : State) : State :=
  let tv : Word := BitVec.ofNat 64 (slot * 2 ^ 17 + tile * 2 ^ 14 + row % 128 * 2 ^ 7 + col % 128)
  (countResidue s).onC fun c => { c with mismatch := match c.mismatch with | some p => some p | none => some ⟨slot, 0xF3, tv⟩ }

/-- Faults of the checks of an issue come first, then the slip, then a poisoned read, which only execution meets (R24, R27). -/
def hardFault : Res Unit → Option Exn
  | .error .slip => none
  | .error (.fault c v) => if c = 0x41 then none else some (.fault c v)
  | .error e => some e
  | .ok _ => none

def together (l : List (Res Unit)) : Res Unit :=
  match l.findSome? hardFault with
  | some e => .error e
  | none =>
    if l.any (fun r => match r with | .error .slip => true | _ => false) then .error .slip
    else match l.findSome? (fun r => match r with | .error e => some e | .ok _ => none) with
      | some e => .error e
      | none => .ok ()

/-- What the reads of a list of indexes give, in order. -/
def mapRead {α : Type} (f : List Nat → Except TransFault α) (idxs : List (List Nat)) : Res (List α) :=
  pipeFault .read (idxs.mapM f)

end Sys2Proof.Machine
end

