-- ==== Sys2Proof/Machine/Access.lean ====
section
/-! DEFINITION. Which registers each slot word reads and writes, with its architectural latency (R20, R60 to R72, Table 3-2), the interlocks and the shadow check built on them (R20, R21, R26, R95, R97, R116), and the one discipline under which every slot word executes. -/

namespace Sys2Proof.Machine

/-- A register as a slot word names it. -/
inductive Name where
  | s (r : BitVec 6)
  | p (r : BitVec 4)
  | h (r : BitVec 5)
  | stg (i : BitVec 5)
  deriving DecidableEq, Repr

/-- The staging register of an engine code and an index: mx:0 to sy:7 in order. -/
def stgIdx (e : BitVec 2) (im : BitVec 3) : BitVec 5 := e.setWidth 5 * 8 + im.setWidth 5

/-- The eight staging registers of an engine code (R14). -/
def stgNames (e : Nat) : List Name := (List.range 8).map fun k => .stg (BitVec.ofNat 5 (8 * e + k))

/-- The registers a slot word reads at bundle entry, its guard apart. -/
def srcs : Instr → List Name
  | .nop _ _ => []
  | .nopSlot _ _ => []
  | .b _ _ => []
  | .jmp _ _ a => [.s a]
  | .call _ _ => []
  | .ret _ _ a => [.s a]
  | .loop _ rs _ => [.s rs]
  | .loopRot _ rs _ => [.s rs]
  | .loopPre _ rs _ => [.s rs]
  | .loopRotPre _ rs _ => [.s rs]
  | .lbrk _ _ => []
  | .pmark _ _ => []
  | .pset _ _ _ => []
  | .pclr _ _ _ => []
  | .pand _ _ _ a b => [.p a, .p b]
  | .por _ _ _ a b => [.p a, .p b]
  | .pxor _ _ _ a b => [.p a, .p b]
  | .pnot _ _ _ a => [.p a]
  | .endTask _ _ => []
  | .trap _ _ _ => []
  | .rett _ _ => []
  | .spec _ _ _ => []
  | .specx _ _ => []
  | .dcpl _ _ => []
  | .rjn _ _ => []
  | .sread _ _ _ _ => []
  | .sreadWm _ _ _ _ => []
  | .sreadSrec _ _ _ _ => []
  | .sreadSat _ _ _ _ => []
  | .swrite _ _ rs _ => [.s rs]
  | .swriteTstat _ _ rs => [.s rs]
  | .swriteTpc _ _ rs => [.s rs]
  | .swriteIsav _ _ rs => [.s rs]
  | .swriteSrec _ _ rs _ => [.s rs]
  | .swriteWm _ _ rs _ => [.s rs]
  | .swriteMtol _ _ rs => [.s rs]
  | .swriteLstat _ _ rs => [.s rs]
  | .swriteSat _ _ rs _ => [.s rs]
  | .bkpt _ _ _ => []
  | .add _ _ a b => [.s a, .s b]
  | .sub _ _ a b => [.s a, .s b]
  | .mul _ _ a b => [.s a, .s b]
  | .mulh _ _ a b => [.s a, .s b]
  | .mulhz _ _ a b => [.s a, .s b]
  | .div _ _ a b => [.s a, .s b]
  | .divz _ _ a b => [.s a, .s b]
  | .rem _ _ a b => [.s a, .s b]
  | .remz _ _ a b => [.s a, .s b]
  | .and _ _ a b => [.s a, .s b]
  | .or _ _ a b => [.s a, .s b]
  | .xor _ _ a b => [.s a, .s b]
  | .andn _ _ a b => [.s a, .s b]
  | .shl _ _ a b => [.s a, .s b]
  | .shr _ _ a b => [.s a, .s b]
  | .sar _ _ a b => [.s a, .s b]
  | .rol _ _ a b => [.s a, .s b]
  | .min _ _ a b => [.s a, .s b]
  | .max _ _ a b => [.s a, .s b]
  | .minz _ _ a b => [.s a, .s b]
  | .maxz _ _ a b => [.s a, .s b]
  | .clz _ _ a => [.s a]
  | .ctz _ _ a => [.s a]
  | .popc _ _ a => [.s a]
  | .sel _ p _ a b => [.p p, .s (a.setWidth 6), .s (b.setWidth 6)]
  | .addi _ _ a _ => [.s a]
  | .andi _ _ a _ => [.s a]
  | .ori _ _ a _ => [.s a]
  | .xori _ _ a _ => [.s a]
  | .shli _ _ a _ => [.s a]
  | .shri _ _ a _ => [.s a]
  | .sari _ _ a _ => [.s a]
  | .li _ _ _ => []
  | .lih _ d _ => [.s d]
  | .cmp _ _ _ a b => [.s a, .s b]
  | .cmpi _ _ _ a _ => [.s a]
  | .ldB _ _ a _ _ => [.s a]
  | .ldBz _ _ a _ _ => [.s a]
  | .ldH _ _ a _ _ => [.s a]
  | .ldHz _ _ a _ _ => [.s a]
  | .ldW _ _ a _ _ => [.s a]
  | .ldWz _ _ a _ _ => [.s a]
  | .ldD _ _ a _ _ => [.s a]
  | .stB _ d a _ _ => [.s d, .s a]
  | .stH _ d a _ _ => [.s d, .s a]
  | .stW _ d a _ _ => [.s d, .s a]
  | .stD _ d a _ _ => [.s d, .s a]
  | .ldh _ _ a _ _ => [.s a]
  | .sth _ h a _ _ => [.h h, .s a]
  | .hmk _ _ rs => [.s rs]
  | .hset _ h rs _ => [.h h, .s rs]
  | .hget _ h _ _ => [.h h]
  | .stg _ _ _ a => [.s a]
  | .rng _ _ a b => [.s a, .s b]
  | .cvt _ _ a _ _ _ => [.s a]
  | .faddS _ _ a b => [.s a, .s b]
  | .fmulS _ _ a b => [.s a, .s b]
  | .ffmaS _ d a b => [.s a, .s b, .s d]
  | .fcmp _ _ _ a b => [.s a, .s b]
  | .amoAdd _ _ a b _ => [.s a, .s b]
  | .amoAnd _ _ a b _ => [.s a, .s b]
  | .amoOr _ _ a b _ => [.s a, .s b]
  | .amoXor _ _ a b _ => [.s a, .s b]
  | .amoMax _ _ a b _ => [.s a, .s b]
  | .amoMin _ _ a b _ => [.s a, .s b]
  | .amoXchg _ _ a b _ => [.s a, .s b]
  | .amoCas _ d a b _ => [.s a, .s b, .s d]
  | .amob _ _ a b _ => [.s a, .s b]
  | .amoAddR _ _ a b _ => [.s a, .s b]
  | .amoAndR _ _ a b _ => [.s a, .s b]
  | .amoOrR _ _ a b _ => [.s a, .s b]
  | .amoXorR _ _ a b _ => [.s a, .s b]
  | .amoMaxR _ _ a b _ => [.s a, .s b]
  | .amoMinR _ _ a b _ => [.s a, .s b]
  | .amoXchgR _ _ a b _ => [.s a, .s b]
  | .amoCasR _ d a b _ => [.s a, .s b, .s d]
  | .amobR _ _ a b _ => [.s a, .s b]
  | .apush _ h rs _ _ => [.h h, .s rs]
  | .ashf _ _ => []
  | .aacc _ h rs _ _ => [.h h, .s rs]
  | .adrn _ h rs _ => [.h h, .s rs]
  | .alds _ h rs _ => [.h h, .s rs]
  | .aswp _ _ => []
  | .asel _ _ => []
  | .acfg _ _ rs => [.s rs]
  | .acfgImm _ _ _ => []
  | .azr _ _ => []
  | .afac _ _ _ _ _ => []
  | .awm _ _ rs => [.s rs]
  | .vadd _ d a b => [.h d, .h a, .h b]
  | .vsub _ d a b => [.h d, .h a, .h b]
  | .vmul _ d a b => [.h d, .h a, .h b]
  | .vfma _ d a b c => [.h d, .h a, .h b, .h c]
  | .vfms _ d a b c => [.h d, .h a, .h b, .h c]
  | .vmax _ d a b => [.h d, .h a, .h b]
  | .vmin _ d a b => [.h d, .h a, .h b]
  | .vabs _ d a => [.h d, .h a]
  | .vneg _ d a => [.h d, .h a]
  | .vclamp _ d a b c => [.h d, .h a, .h b, .h c]
  | .vexp _ d a => [.h d, .h a]
  | .vexp2 _ d a => [.h d, .h a]
  | .vlog2 _ d a => [.h d, .h a]
  | .vrcp _ d a => [.h d, .h a]
  | .vrsq _ d a => [.h d, .h a]
  | .vsqrt _ d a => [.h d, .h a]
  | .vtanh _ d a => [.h d, .h a]
  | .vsigm _ d a => [.h d, .h a]
  | .vcmp _ d a b _ => [.h d, .h a, .h b]
  | .vsel _ d a b c => [.h d, .h a, .h b, .h c]
  | .vand _ d a b => [.h d, .h a, .h b]
  | .vor _ d a b => [.h d, .h a, .h b]
  | .vxor _ d a b => [.h d, .h a, .h b]
  | .vshl _ d a b => [.h d, .h a, .h b]
  | .vshr _ d a b => [.h d, .h a, .h b]
  | .vcvt _ d a _ => [.h d, .h a]
  | .vqnt _ d a _ => [.h d, .h a]
  | .vdqnt _ d a => [.h d, .h a]
  | .vcbk _ d a => [.h d, .h a]
  | .vsum _ d a => [.h d, .h a]
  | .vmaxr _ d a => [.h d, .h a]
  | .vminr _ d a => [.h d, .h a]
  | .vscan _ d a => [.h d, .h a]
  | .vperm _ d a b => [.h d, .h a, .h b]
  | .vbcast _ d a => [.h d, .s a]
  | .viota _ d a => [.h d, .s a]
  | .vpopc _ d a => [.h d, .h a]
  | .vcmpr _ d a b => [.h d, .h a, .h b]
  | .vexpd _ d a b => [.h d, .h a, .h b]
  | .vmov _ d a => [.h d, .h a]
  | .vrng _ d a b => [.h d, .s a, .s b]
  | .mld _ _ h => stgNames 0 ++ [.h h]
  | .mst _ _ h => stgNames 0 ++ [.h h]
  | .mzr _ _ => stgNames 0
  | .mcpy _ _ _ => stgNames 0
  | .mmul _ _ _ _ => stgNames 0
  | .madd _ _ _ _ => stgNames 0
  | .mscl _ _ rs => stgNames 0 ++ [.s rs]
  | .mrcmp _ _ _ => stgNames 0
  | .mdns _ _ _ => stgNames 0
  | .mfac _ _ _ _ => stgNames 0
  | .mtrn _ _ _ => stgNames 0
  | .mrnk _ _ _ => stgNames 0
  | .mocc _ _ _ => stgNames 0
  | .mapl _ d a _ => stgNames 0 ++ [.h d, .h a]
  | .cpy _ _ d rs => stgNames 1 ++ [.h d, .h rs]
  | .cpt _ _ d rs => stgNames 1 ++ [.h d, .h rs]
  | .cpq _ _ d rs _ => stgNames 1 ++ [.h d, .h rs, .h (d + 1)]
  | .cpqs _ _ d rs _ => stgNames 1 ++ [.h d, .h rs]
  | .cpz _ _ d rs => stgNames 1 ++ [.h d, .h rs]
  | .cpx _ _ d rs => stgNames 1 ++ [.h d, .h rs]
  | .cpk _ _ d rs => stgNames 1 ++ [.h d, .h rs]
  | .cpbs _ _ _ rs => stgNames 1 ++ [.h rs]
  | .cpw _ _ => []
  | .cpab _ _ => []
  | .cpf _ _ d => stgNames 1 ++ [.h d]
  | .cpr _ _ d rs => stgNames 1 ++ [.h d, .h rs]
  | .gth _ d a b => stgNames 2 ++ [.h d, .h a, .h b]
  | .sct _ d a b => stgNames 2 ++ [.h d, .h a, .h b]
  | .scta _ d a b => stgNames 2 ++ [.h d, .h a, .h b]
  | .flt _ d a b => stgNames 2 ++ [.h d, .h a, .h b]
  | .bmk _ d a b => stgNames 2 ++ [.h d, .h a, .h b]
  | .cnt _ _ a => stgNames 2 ++ [.h a]
  | .dfr _ a b => stgNames 2 ++ [.h a, .h b]
  | .dfd _ d a => stgNames 2 ++ [.h d, .h a]
  | .phase _ _ => stgNames 3
  | .bara _ _ => stgNames 3
  | .barw _ _ => stgNames 3
  | .bar _ _ => stgNames 3
  | .pub _ h => stgNames 3 ++ [.h h]
  | .fence _ _ => stgNames 3
  | .xbeg _ => stgNames 3
  | .xend _ => stgNames 3
  | .xabt _ => stgNames 3
  | .collAr _ _ => stgNames 3
  | .collRs _ _ => stgNames 3
  | .collAg _ _ => stgNames 3
  | .collA2a _ _ => stgNames 3
  | .collBc _ _ => stgNames 3
  | .cwt _ _ => stgNames 3
  | .plan _ _ => stgNames 3
  | .pexec _ _ => stgNames 3
  | .pwait _ _ => stgNames 3
  | .hint _ _ => stgNames 3
  | .pin _ _ => stgNames 3
  | .unpin _ _ => stgNames 3
  | .statr _ _ _ => stgNames 3
  | .statw _ _ => stgNames 3
  | .evs _ _ => stgNames 3
  | .evw _ _ => stgNames 3
  | .yld _ => stgNames 3
  | .resultLanding => []
  | .variableLatencyResult => []
  | .slipRelease _ => []
  | .slipWaitTimeout _ => []
  | .loopEndOfTrip => []
  | .fetchFault => []
  | .trapEntry => []
  | .emulationSequence => []
  | .emulationOverrun => []
  | .safePointDistanceExceeded => []
  | .speculationResolve => []
  | .transactionAbort _ => []
  | .mxCommandExecute _ => []
  | .cpCommandExecute _ _ => []
  | .spCommandExecute _ => []
  | .syCommandExecute => []
  | .queueFullEmptyTimeout _ _ => []
  | .executionFault => []
  | .streamElementDelivery _ => []
  | .phaseBoundaryComplete _ => []
  | .barrierGenerationComplete _ => []
  | .collectiveOwnershipMove _ _ _ => []
  | .collectiveComplete _ _ _ => []
  | .memberTimeout _ _ => []
  | .pexecAccept _ => []
  | .planBreak _ => []
  | .planBlockCommit _ => []
  | .bindingPlaneUpdate _ _ => []
  | .pageTableWalk _ => []
  | .doorbell _ _ _ => []
  | .frontEndRingRead _ _ => []
  | .letterboxRead _ => []
  | .letterboxRetire _ _ => []
  | .overflowMaskReadClear _ => []
  | .launchPortWrite _ _ _ => []
  | .launchPortRefusalWrite _ _ _ _ => []
  | .packetStart _ _ _ => []
  | .operatingPointReached _ _ => []
  | .clusterSramZeroing _ _ => []
  | .taskRetire _ _ _ _ => []
  | .launchComplete _ _ _ _ => []
  | .schedulerFaultDelivery _ _ _ _ _ => []
  | .timeSliceExpiry _ _ _ => []
  | .classFloorOwed _ _ => []
  | .preemptionRequest _ _ _ => []
  | .contextSave _ => []
  | .contextRestore _ _ _ => []
  | .schedulerWatchdogExpiry _ => []
  | .pluginCallTimeout _ _ => []
  | .shootdown _ _ _ => []
  | .createContext _ _ _ _ => []
  | .destroyContext _ _ => []
  | .writeRangeEntry _ _ _ _ => []
  | .writeQueueEntry _ _ _ => []
  | .enableQueue _ _ => []
  | .disableQueue _ _ => []
  | .admitImage _ _ _ _ _ => []
  | .writeFmask _ _ _ => []
  | .readClearMaskedCounter _ _ => []
  | .openHostWindow _ _ _ _ _ => []
  | .closeHostWindow _ _ => []
  | .writeHostRange _ _ _ _ => []
  | .bindContextJob _ _ _ => []
  | .writeCollectiveGroup _ _ _ _ => []
  | .requestPostmark _ _ _ _ => []
  | .debugHalt _ _ _ => []
  | .debugResume _ _ _ => []
  | .debugStep _ _ _ => []
  | .debugReadRegister _ _ _ _ => []
  | .debugWriteRegister _ _ _ _ _ => []
  | .debugEnableBreakpoints _ _ _ => []
  | .debugDisableBreakpoints _ _ _ => []
  | .debugRevoke _ _ _ => []
  | .setPowerLimit _ _ => []
  | .setPowerState _ _ => []
  | .readHealthLog _ _ => []
  | .fwOpen _ _ => []
  | .fwWrite _ _ _ => []
  | .fwCheck _ => []
  | .fwFlip _ => []
  | .stagePatch _ _ _ => []
  | .livePatch _ _ _ => []
  | .fwState _ => []
  | .fwReset _ => []
  | .clearLive _ => []
  | .boot _ _ => []
  | .powerLoss => []
  | .ideEstablish => []
  | .hostWindowRead _ _ _ => []
  | .hostWindowWrite _ _ _ => []
  | .flitReceive _ _ _ => []
  | .transportDataReceive _ _ _ => []
  | .transportAckReceive _ _ => []
  | .transportNackReceive _ _ => []
  | .transportKeepaliveReceive _ _ => []
  | .retransmitTimeout _ => []
  | .hostLinkLost => []
  | .ideIntegrityFailure => []
  | .scaleUpPlaneLost _ => []
  | .scaleOutPortLost _ => []
  | .overtemperature _ => []
  | .deviceMemoryStackFailure _ => []
  | .scrub _ _ => []
  | .coreLost _ => []
  | .healthLogPeriodic => []
  | .unknownOpcode _ _ => []
  | .switchPlaneUp _ => []
  | .apertureRegisterWrite _ _ _ => []

/-- The register a slot word writes, with its latency; none where it is variable (Table 3-2, R152, R181). -/
def dstOf : Instr → Option (Name × Option Nat)
  | .nop _ _ => none
  | .nopSlot _ _ => none
  | .b _ _ => none
  | .jmp _ _ _ => none
  | .call _ _ => some (.s 47, some 1)
  | .ret _ _ _ => none
  | .loop _ _ _ => none
  | .loopRot _ _ _ => none
  | .loopPre _ _ _ => none
  | .loopRotPre _ _ _ => none
  | .lbrk _ _ => none
  | .pmark _ _ => none
  | .pset _ _ d => some (.p d, some 1)
  | .pclr _ _ d => some (.p d, some 1)
  | .pand _ _ d _ _ => some (.p d, some 1)
  | .por _ _ d _ _ => some (.p d, some 1)
  | .pxor _ _ d _ _ => some (.p d, some 1)
  | .pnot _ _ d _ => some (.p d, some 1)
  | .endTask _ _ => none
  | .trap _ _ _ => none
  | .rett _ _ => none
  | .spec _ _ _ => none
  | .specx _ _ => none
  | .dcpl _ _ => none
  | .rjn _ _ => none
  | .sread _ _ d _ => some (.s d, some 2)
  | .sreadWm _ _ d _ => some (.s d, some 2)
  | .sreadSrec _ _ d _ => some (.s d, some 2)
  | .sreadSat _ _ d _ => some (.s d, some 2)
  | .swrite _ _ _ _ => none
  | .swriteTstat _ _ _ => none
  | .swriteTpc _ _ _ => none
  | .swriteIsav _ _ _ => none
  | .swriteSrec _ _ _ _ => none
  | .swriteWm _ _ _ _ => none
  | .swriteMtol _ _ _ => none
  | .swriteLstat _ _ _ => none
  | .swriteSat _ _ _ _ => none
  | .bkpt _ _ _ => none
  | .add _ d _ _ => some (.s d, some 1)
  | .sub _ d _ _ => some (.s d, some 1)
  | .mul _ d _ _ => some (.s d, some 3)
  | .mulh _ d _ _ => some (.s d, some 3)
  | .mulhz _ d _ _ => some (.s d, some 3)
  | .div _ d _ _ => some (.s d, some 12)
  | .divz _ d _ _ => some (.s d, some 12)
  | .rem _ d _ _ => some (.s d, some 12)
  | .remz _ d _ _ => some (.s d, some 12)
  | .and _ d _ _ => some (.s d, some 1)
  | .or _ d _ _ => some (.s d, some 1)
  | .xor _ d _ _ => some (.s d, some 1)
  | .andn _ d _ _ => some (.s d, some 1)
  | .shl _ d _ _ => some (.s d, some 1)
  | .shr _ d _ _ => some (.s d, some 1)
  | .sar _ d _ _ => some (.s d, some 1)
  | .rol _ d _ _ => some (.s d, some 1)
  | .min _ d _ _ => some (.s d, some 1)
  | .max _ d _ _ => some (.s d, some 1)
  | .minz _ d _ _ => some (.s d, some 1)
  | .maxz _ d _ _ => some (.s d, some 1)
  | .clz _ d _ => some (.s d, some 1)
  | .ctz _ d _ => some (.s d, some 1)
  | .popc _ d _ => some (.s d, some 1)
  | .sel _ _ d _ _ => some (.s (d.setWidth 6), some 1)
  | .addi _ d _ _ => some (.s d, some 1)
  | .andi _ d _ _ => some (.s d, some 1)
  | .ori _ d _ _ => some (.s d, some 1)
  | .xori _ d _ _ => some (.s d, some 1)
  | .shli _ d _ _ => some (.s d, some 1)
  | .shri _ d _ _ => some (.s d, some 1)
  | .sari _ d _ _ => some (.s d, some 1)
  | .li _ d _ => some (.s d, some 1)
  | .lih _ d _ => some (.s d, some 1)
  | .cmp _ p _ _ _ => some (.p p, some 1)
  | .cmpi _ p _ _ _ => some (.p p, some 1)
  | .ldB _ d _ _ _ => some (.s d, none)
  | .ldBz _ d _ _ _ => some (.s d, none)
  | .ldH _ d _ _ _ => some (.s d, none)
  | .ldHz _ d _ _ _ => some (.s d, none)
  | .ldW _ d _ _ _ => some (.s d, none)
  | .ldWz _ d _ _ _ => some (.s d, none)
  | .ldD _ d _ _ _ => some (.s d, none)
  | .stB _ _ _ _ _ => none
  | .stH _ _ _ _ _ => none
  | .stW _ _ _ _ _ => none
  | .stD _ _ _ _ _ => none
  | .ldh _ h _ _ _ => some (.h h, none)
  | .sth _ _ _ _ _ => none
  | .hmk _ h _ => some (.h h, some 1)
  | .hset _ h _ _ => some (.h h, some 1)
  | .hget _ _ rs _ => some (.s rs, some 1)
  | .stg _ e im _ => some (.stg (stgIdx e im), some 1)
  | .rng _ d _ _ => some (.s d, some 2)
  | .cvt _ d _ _ _ _ => some (.s d, some 3)
  | .faddS _ d _ _ => some (.s d, some 4)
  | .fmulS _ d _ _ => some (.s d, some 4)
  | .ffmaS _ d _ _ => some (.s d, some 4)
  | .fcmp _ p _ _ _ => some (.p p, some 2)
  | .amoAdd _ d _ _ _ => some (.s d, none)
  | .amoAnd _ d _ _ _ => some (.s d, none)
  | .amoOr _ d _ _ _ => some (.s d, none)
  | .amoXor _ d _ _ _ => some (.s d, none)
  | .amoMax _ d _ _ _ => some (.s d, none)
  | .amoMin _ d _ _ _ => some (.s d, none)
  | .amoXchg _ d _ _ _ => some (.s d, none)
  | .amoCas _ d _ _ _ => some (.s d, none)
  | .amob _ d _ _ _ => some (.s d, none)
  | .amoAddR _ d _ _ _ => some (.s d, none)
  | .amoAndR _ d _ _ _ => some (.s d, none)
  | .amoOrR _ d _ _ _ => some (.s d, none)
  | .amoXorR _ d _ _ _ => some (.s d, none)
  | .amoMaxR _ d _ _ _ => some (.s d, none)
  | .amoMinR _ d _ _ _ => some (.s d, none)
  | .amoXchgR _ d _ _ _ => some (.s d, none)
  | .amoCasR _ d _ _ _ => some (.s d, none)
  | .amobR _ d _ _ _ => some (.s d, none)
  | .apush _ _ _ _ _ => none
  | .ashf _ _ => none
  | .aacc _ _ _ _ _ => none
  | .adrn _ _ _ _ => none
  | .alds _ _ _ _ => none
  | .aswp _ _ => none
  | .asel _ _ => none
  | .acfg _ _ _ => none
  | .acfgImm _ _ _ => none
  | .azr _ _ => none
  | .afac _ _ _ _ _ => none
  | .awm _ _ _ => none
  | .vadd _ _ _ _ => none
  | .vsub _ _ _ _ => none
  | .vmul _ _ _ _ => none
  | .vfma _ _ _ _ _ => none
  | .vfms _ _ _ _ _ => none
  | .vmax _ _ _ _ => none
  | .vmin _ _ _ _ => none
  | .vabs _ _ _ => none
  | .vneg _ _ _ => none
  | .vclamp _ _ _ _ _ => none
  | .vexp _ _ _ => none
  | .vexp2 _ _ _ => none
  | .vlog2 _ _ _ => none
  | .vrcp _ _ _ => none
  | .vrsq _ _ _ => none
  | .vsqrt _ _ _ => none
  | .vtanh _ _ _ => none
  | .vsigm _ _ _ => none
  | .vcmp _ _ _ _ _ => none
  | .vsel _ _ _ _ _ => none
  | .vand _ _ _ _ => none
  | .vor _ _ _ _ => none
  | .vxor _ _ _ _ => none
  | .vshl _ _ _ _ => none
  | .vshr _ _ _ _ => none
  | .vcvt _ _ _ _ => none
  | .vqnt _ _ _ _ => none
  | .vdqnt _ _ _ => none
  | .vcbk _ _ _ => none
  | .vsum _ _ _ => none
  | .vmaxr _ _ _ => none
  | .vminr _ _ _ => none
  | .vscan _ _ _ => none
  | .vperm _ _ _ _ => none
  | .vbcast _ _ _ => none
  | .viota _ _ _ => none
  | .vpopc _ _ _ => none
  | .vcmpr _ _ _ _ => none
  | .vexpd _ _ _ _ => none
  | .vmov _ _ _ => none
  | .vrng _ _ _ _ => none
  | .mld _ _ _ => none
  | .mst _ _ _ => none
  | .mzr _ _ => none
  | .mcpy _ _ _ => none
  | .mmul _ _ _ _ => none
  | .madd _ _ _ _ => none
  | .mscl _ _ _ => none
  | .mrcmp _ _ _ => none
  | .mdns _ _ _ => none
  | .mfac _ _ _ _ => none
  | .mtrn _ _ _ => none
  | .mrnk _ _ rs => some (.s rs, none)
  | .mocc _ _ rs => some (.s rs, none)
  | .mapl _ _ _ _ => none
  | .cpy _ _ _ _ => none
  | .cpt _ _ _ _ => none
  | .cpq _ _ _ _ _ => none
  | .cpqs _ _ _ _ _ => none
  | .cpz _ _ _ _ => none
  | .cpx _ _ _ _ => none
  | .cpk _ _ _ _ => none
  | .cpbs _ _ _ _ => none
  | .cpw _ _ => none
  | .cpab _ _ => none
  | .cpf _ _ _ => none
  | .cpr _ _ _ _ => none
  | .gth _ _ _ _ => none
  | .sct _ _ _ _ => none
  | .scta _ _ _ _ => none
  | .flt _ _ _ _ => none
  | .bmk _ _ _ _ => none
  | .cnt _ d _ => some (.s d, none)
  | .dfr _ _ _ => none
  | .dfd _ _ _ => none
  | .phase _ _ => none
  | .bara _ _ => none
  | .barw _ _ => none
  | .bar _ _ => none
  | .pub _ _ => none
  | .fence _ _ => none
  | .xbeg _ => none
  | .xend _ => none
  | .xabt _ => none
  | .collAr _ _ => none
  | .collRs _ _ => none
  | .collAg _ _ => none
  | .collA2a _ _ => none
  | .collBc _ _ => none
  | .cwt _ _ => none
  | .plan _ _ => none
  | .pexec _ _ => none
  | .pwait _ _ => none
  | .hint _ _ => none
  | .pin _ _ => none
  | .unpin _ _ => none
  | .statr _ d _ => some (.s d, none)
  | .statw _ _ => none
  | .evs _ _ => none
  | .evw _ _ => none
  | .yld _ => none
  | .resultLanding => none
  | .variableLatencyResult => none
  | .slipRelease _ => none
  | .slipWaitTimeout _ => none
  | .loopEndOfTrip => none
  | .fetchFault => none
  | .trapEntry => none
  | .emulationSequence => none
  | .emulationOverrun => none
  | .safePointDistanceExceeded => none
  | .speculationResolve => none
  | .transactionAbort _ => none
  | .mxCommandExecute _ => none
  | .cpCommandExecute _ _ => none
  | .spCommandExecute _ => none
  | .syCommandExecute => none
  | .queueFullEmptyTimeout _ _ => none
  | .executionFault => none
  | .streamElementDelivery _ => none
  | .phaseBoundaryComplete _ => none
  | .barrierGenerationComplete _ => none
  | .collectiveOwnershipMove _ _ _ => none
  | .collectiveComplete _ _ _ => none
  | .memberTimeout _ _ => none
  | .pexecAccept _ => none
  | .planBreak _ => none
  | .planBlockCommit _ => none
  | .bindingPlaneUpdate _ _ => none
  | .pageTableWalk _ => none
  | .doorbell _ _ _ => none
  | .frontEndRingRead _ _ => none
  | .letterboxRead _ => none
  | .letterboxRetire _ _ => none
  | .overflowMaskReadClear _ => none
  | .launchPortWrite _ _ _ => none
  | .launchPortRefusalWrite _ _ _ _ => none
  | .packetStart _ _ _ => none
  | .operatingPointReached _ _ => none
  | .clusterSramZeroing _ _ => none
  | .taskRetire _ _ _ _ => none
  | .launchComplete _ _ _ _ => none
  | .schedulerFaultDelivery _ _ _ _ _ => none
  | .timeSliceExpiry _ _ _ => none
  | .classFloorOwed _ _ => none
  | .preemptionRequest _ _ _ => none
  | .contextSave _ => none
  | .contextRestore _ _ _ => none
  | .schedulerWatchdogExpiry _ => none
  | .pluginCallTimeout _ _ => none
  | .shootdown _ _ _ => none
  | .createContext _ _ _ _ => none
  | .destroyContext _ _ => none
  | .writeRangeEntry _ _ _ _ => none
  | .writeQueueEntry _ _ _ => none
  | .enableQueue _ _ => none
  | .disableQueue _ _ => none
  | .admitImage _ _ _ _ _ => none
  | .writeFmask _ _ _ => none
  | .readClearMaskedCounter _ _ => none
  | .openHostWindow _ _ _ _ _ => none
  | .closeHostWindow _ _ => none
  | .writeHostRange _ _ _ _ => none
  | .bindContextJob _ _ _ => none
  | .writeCollectiveGroup _ _ _ _ => none
  | .requestPostmark _ _ _ _ => none
  | .debugHalt _ _ _ => none
  | .debugResume _ _ _ => none
  | .debugStep _ _ _ => none
  | .debugReadRegister _ _ _ _ => none
  | .debugWriteRegister _ _ _ _ _ => none
  | .debugEnableBreakpoints _ _ _ => none
  | .debugDisableBreakpoints _ _ _ => none
  | .debugRevoke _ _ _ => none
  | .setPowerLimit _ _ => none
  | .setPowerState _ _ => none
  | .readHealthLog _ _ => none
  | .fwOpen _ _ => none
  | .fwWrite _ _ _ => none
  | .fwCheck _ => none
  | .fwFlip _ => none
  | .stagePatch _ _ _ => none
  | .livePatch _ _ _ => none
  | .fwState _ => none
  | .fwReset _ => none
  | .clearLive _ => none
  | .boot _ _ => none
  | .powerLoss => none
  | .ideEstablish => none
  | .hostWindowRead _ _ _ => none
  | .hostWindowWrite _ _ _ => none
  | .flitReceive _ _ _ => none
  | .transportDataReceive _ _ _ => none
  | .transportAckReceive _ _ => none
  | .transportNackReceive _ _ => none
  | .transportKeepaliveReceive _ _ => none
  | .retransmitTimeout _ => none
  | .hostLinkLost => none
  | .ideIntegrityFailure => none
  | .scaleUpPlaneLost _ => none
  | .scaleOutPortLost _ => none
  | .overtemperature _ => none
  | .deviceMemoryStackFailure _ => none
  | .scrub _ _ => none
  | .coreLost _ => none
  | .healthLogPeriodic => none
  | .unknownOpcode _ _ => none
  | .switchPlaneUp _ => none
  | .apertureRegisterWrite _ _ _ => none

/-- The handles of an ar or ve word, which a slipped operation resolves at issue (R24, R195). -/
def handlesOf : Instr → List (BitVec 5)
  | .apush _ h _ _ _ => [h]
  | .aacc _ h _ _ _ => [h]
  | .adrn _ h _ _ => [h]
  | .alds _ h _ _ => [h]
  | .vadd _ d a b => [d, a, b]
  | .vsub _ d a b => [d, a, b]
  | .vmul _ d a b => [d, a, b]
  | .vfma _ d a b c => [d, a, b, c]
  | .vfms _ d a b c => [d, a, b, c]
  | .vmax _ d a b => [d, a, b]
  | .vmin _ d a b => [d, a, b]
  | .vabs _ d a => [d, a]
  | .vneg _ d a => [d, a]
  | .vclamp _ d a b c => [d, a, b, c]
  | .vexp _ d a => [d, a]
  | .vexp2 _ d a => [d, a]
  | .vlog2 _ d a => [d, a]
  | .vrcp _ d a => [d, a]
  | .vrsq _ d a => [d, a]
  | .vsqrt _ d a => [d, a]
  | .vtanh _ d a => [d, a]
  | .vsigm _ d a => [d, a]
  | .vcmp _ d a b _ => [d, a, b]
  | .vsel _ d a b c => [d, a, b, c]
  | .vand _ d a b => [d, a, b]
  | .vor _ d a b => [d, a, b]
  | .vxor _ d a b => [d, a, b]
  | .vshl _ d a b => [d, a, b]
  | .vshr _ d a b => [d, a, b]
  | .vcvt _ d a _ => [d, a]
  | .vqnt _ d a _ => [d, a]
  | .vdqnt _ d a => [d, a]
  | .vcbk _ d a => [d, a]
  | .vsum _ d a => [d, a]
  | .vmaxr _ d a => [d, a]
  | .vminr _ d a => [d, a]
  | .vscan _ d a => [d, a]
  | .vperm _ d a b => [d, a, b]
  | .vbcast _ d _ => [d]
  | .viota _ d _ => [d]
  | .vpopc _ d a => [d, a]
  | .vcmpr _ d a b => [d, a, b]
  | .vexpd _ d a b => [d, a, b]
  | .vmov _ d a => [d, a]
  | .vrng _ d _ _ => [d]
  | _ => []

/-- An access of an sc word: whether it reads and writes, its base register, byte offset and size (R106, R107, R112). -/
structure ScAccess where
  rd   : Bool
  wr   : Bool
  base : BitVec 6
  off  : Word
  size : Nat
  deriving DecidableEq, Repr

/-- The immediate access of an sc word. A ranked atomic has none: it acts at its boundary (R117). -/
def scAccess : Instr → Option ScAccess
  | .ldB _ _ a _ o => some ⟨true, false, a, o.signExtend 64 * 1, 1⟩
  | .ldBz _ _ a _ o => some ⟨true, false, a, o.signExtend 64 * 1, 1⟩
  | .ldH _ _ a _ o => some ⟨true, false, a, o.signExtend 64 * 2, 2⟩
  | .ldHz _ _ a _ o => some ⟨true, false, a, o.signExtend 64 * 2, 2⟩
  | .ldW _ _ a _ o => some ⟨true, false, a, o.signExtend 64 * 4, 4⟩
  | .ldWz _ _ a _ o => some ⟨true, false, a, o.signExtend 64 * 4, 4⟩
  | .ldD _ _ a _ o => some ⟨true, false, a, o.signExtend 64 * 8, 8⟩
  | .stB _ _ a _ o => some ⟨false, true, a, o.signExtend 64 * 1, 1⟩
  | .stH _ _ a _ o => some ⟨false, true, a, o.signExtend 64 * 2, 2⟩
  | .stW _ _ a _ o => some ⟨false, true, a, o.signExtend 64 * 4, 4⟩
  | .stD _ _ a _ o => some ⟨false, true, a, o.signExtend 64 * 8, 8⟩
  | .ldh _ _ a _ o => some ⟨true, false, a, o.signExtend 64 * 32, 32⟩
  | .sth _ _ a _ o => some ⟨false, true, a, o.signExtend 64 * 32, 32⟩
  | .amoAdd _ _ a _ _ => some ⟨true, true, a, 0, 8⟩
  | .amoAnd _ _ a _ _ => some ⟨true, true, a, 0, 8⟩
  | .amoOr _ _ a _ _ => some ⟨true, true, a, 0, 8⟩
  | .amoXor _ _ a _ _ => some ⟨true, true, a, 0, 8⟩
  | .amoMax _ _ a _ _ => some ⟨true, true, a, 0, 8⟩
  | .amoMin _ _ a _ _ => some ⟨true, true, a, 0, 8⟩
  | .amoXchg _ _ a _ _ => some ⟨true, true, a, 0, 8⟩
  | .amoCas _ _ a _ _ => some ⟨true, true, a, 0, 8⟩
  | .amob _ _ a _ _ => some ⟨true, true, a, 0, 8⟩
  | _ => none

/-- The bytes, by home address, that an operation of a lane slot reads and writes, or more. -/
structure Reach where
  rd : List Nat
  wr : List Nat
  deriving DecidableEq, Repr

/-- The bytes of a region, with those of its scales and of its source; of a compressed tensor those of its whole rows. -/
def regionHomes (s : State) (t : Tens) : List Nat :=
  if t.d.layout = 2 then
    (List.range ((t.d.strs[0]?).getD 0 * (t.d.dims[0]?).getD 0)).filterMap fun i =>
      match translate s s.c.info.ctx .read true (t.d.base + i) with | .ok a => some a | .error _ => none
  else
    (allIdx t.ext).flatMap fun i =>
      let some_ (r : Except TransFault (List Nat)) : List Nat := match r with | .ok l => l | .error _ => []
      some_ (readHomes s t false i) ++ some_ (readHomes s t true i) ++ some_ (elemHomes s .write t.d (coords t i))

/-- What an operation with these registers and tensors reaches. Rows of a region are not told apart (log 77). -/
def reachOf (s : State) (i : Instr) (x : Regs) (ts : List (BitVec 5 × Tens)) : Reach :=
  match scAccess i with
  | some k =>
    let va := (x.rdS k.base + k.off).toNat
    let l := match translate s s.c.info.ctx .read true va with
      | .ok a => (List.range k.size).map (a + ·)
      | .error _ => []
    ⟨if k.rd then l else [], if k.wr then l else []⟩
  | none =>
    let all := ts.flatMap fun t => regionHomes s t.2
    let first := (ts.head?.map fun t => regionHomes s t.2).getD []
    match i with
    | .ashf _ _ => if ts.any (·.1 == 1) then ⟨[], all⟩ else ⟨all, []⟩
    | .adrn _ _ _ _ => ⟨[], all⟩
    | _ => if i.slot = some .ve then ⟨all, first⟩ else ⟨all, []⟩

/-- Do two lists of bytes meet? -/
def meets (a b : List Nat) : Bool := a.any fun x => b.contains x

/-- Must the later of two operations wait for the earlier one: one writes what the other reads or writes (R121, R134, R224)? -/
def Reach.clash (a b : Reach) : Bool := meets a.wr b.rd || meets a.wr b.wr || meets a.rd b.wr

/-- What an operation that waits in a lane reaches. -/
def slippedReach (s : State) (x : Slipped) : Reach := reachOf s x.i x.regs x.ts

/-- A store that waits in the sc lane and falls into the context's descriptor table or codebooks, which later handle checks
read (R221, R302). -/
def tableStoreWaits (s : State) : Bool :=
  (laneOf s 0).any fun x => match scAccess x.i, s.ctx? with
    | some k, some c =>
      let va := (x.regs.rdS k.base + k.off).toNat
      k.wr && ((decide (c.recd.dtbase ≤ va) && decide (va < c.recd.dtbase + 2 ^ 18))
        || (decide (c.recd.cbbase ≤ va) && decide (va < c.recd.cbbase + 2 ^ 17)))
    | _, _ => false

/-- The destination that a name designates at a ring position; s56 to s63 and p12 to p15 are private in an emulation
sequence (R86, R353). -/
def dstAt (emu : Bool) (rpos : BitVec 4) : Name → Dst
  | .s r => if emu && decide (56 ≤ r.toNat) then .ex (r.toNat - 56) else .s (cellOf rpos r)
  | .p i => if emu && decide (12 ≤ i.toNat) then .ep (i.toNat - 12) else .p i.toNat
  | .h i => .h i
  | .stg i => .stg i

/-- The destination that a name designates for the bundle at issue. -/
def dstName (c : Core) (n : Name) : Dst := dstAt c.emu.isSome (c.view.getD c.r).rpos n

/-- Names whose writes are discarded and whose reads never wait (R80). -/
def isZeroName : Name → Bool
  | .s r => r == 0
  | .p i => i == 0
  | _ => false

/-- A predicate p8 to p15 after n end-of-trip steps of rotating loops; a value shifted past p15 is lost (R89). -/
def shiftDst (n : Nat) (d : Dst) : Option Dst :=
  match d with
  | .p i => if i < 8 then some d else if i + n ≤ 15 then some (.p (i + n)) else none
  | _ => some d

/-- What a waiting operation of a lane will write: none for its cycle where the latency is variable (R26). -/
def laneDst (x : Slipped) : Option (Dst × Option Nat) :=
  match dstOf x.i with
  | some (n, lat) => if isZeroName n then none else (shiftDst x.shift (dstAt false x.regs.rpos n)).map fun d => (d, lat.map (x.at_ + ·))
  | none => none

/-- The destination of a pending compare: 16 + i is epi; from 48 on, a predicate shifted past p15 (R89, R353). -/
def cmpDst (pd : Nat) : Dst := if 16 ≤ pd ∧ pd < 48 then .ep (pd - 16) else .p pd

/-- Destinations whose value no one has yet: of slipped operations, stream loads, queued commands and pending compares,
with the cycle from which a reader waits (R20, R26, R95, R152, R202). -/
def awaited (c : Core) : List (Dst × Option Nat) :=
  (c.lanes.flatten.filterMap laneDst)
    ++ c.z.toList.flatMap (fun z => z.waits.filterMap fun w => if w.1 = 0 then none else some (cellDst w.1, none))
    ++ ((c.mxq ++ c.spq ++ c.syq).filterMap fun q => if q.cell = 0 then none else some (cellDst q.cell, none))
    ++ c.cmps.map fun w => (cmpDst w.pd, none)

/-- Depth of a format (Table 7-2). -/
def fmtDepth (fmt : Nat) : Nat :=
  if fmt ≤ 2 ∨ fmt = 7 ∨ fmt = 11 then 128
  else if (3 ≤ fmt ∧ fmt ≤ 6) ∨ fmt = 8 ∨ fmt = 12 ∨ (19 ≤ fmt ∧ fmt ≤ 22) then 256
  else 512

/-- The planes: 2l is active, 2l + 1 its shadow. -/
def activePlane (a : ArrayState) (l : Nat) : Plane := (a.planes[2 * l]?).getD Plane.empty

def setPlane (i : Nat) (p : Plane) (a : ArrayState) : ArrayState :=
  if h : i < 8 then { a with planes := a.planes.set i p h } else a

/-- Exchange planes i and i + 1. -/
def swapPlanes (i : Nat) (a : ArrayState) : ArrayState :=
  let p := (a.planes[i]?).getD Plane.empty
  let q := (a.planes[i + 1]?).getD Plane.empty
  setPlane i q (setPlane (i + 1) p a)

/-- A plane that a load leaves, its weights apart (R123): what the checks of a later word look at. -/
def loadedShape (depth : Nat) (t : Tens) (o : Nat) : Plane :=
  let k := min depth ((t.ext[0]?).getD 0 - o)
  ⟨32 * ((k + 31) / 32), min 128 ((t.ext[1]?).getD 0), t.d.fmt, [], []⟩

/-- The array state, as far as the checks of an ar word look at it, once an operation that waits in the ar lane has executed: its
planes' shapes and its last row operation (R121, R123 to R126, R132). -/
def arrAfter (m : Vector MReg 16) (a : ArrayState) (x : Slipped) : ArrayState :=
  let latch (l : BitVec 2) : Nat := (l.toNat + x.regs.lsel.toNat) % 4
  match x.i with
  | .apush _ h rs l t => { a with last := some ⟨1, x.regs.rdH h, l, t, (x.regs.rdS rs).toNat⟩ }
  | .aacc _ h rs l t => { a with last := some ⟨3, x.regs.rdH h, l, t, (x.regs.rdS rs).toNat⟩ }
  | .adrn _ h rs t => { a with last := some ⟨4, x.regs.rdH h, 0, t, (x.regs.rdS rs).toNat⟩ }
  | .ashf _ b => { a with last := a.last.map fun r => { r with off := r.off + b.toNat + 1 } }
  | .aswp _ l => swapPlanes (2 * latch l) a
  | .alds _ h rs l =>
    (match x.ts.find? fun t => t.1 = h with
    | some t => setPlane (2 * latch l + 1) (loadedShape (fmtDepth t.2.d.fmt) t.2 (x.regs.rdS rs).toNat) a
    | none => a)
  | .afac _ r l _ p =>
    let k := (m[r.toNat]'r.isLt).s.length
    setPlane (2 * latch l + 1) (if k = 0 then Plane.empty else if p = 0 then ⟨128, k, 1, [], []⟩ else ⟨32 * ((k + 31) / 32), 128, 1, [], []⟩) a
  | _ => a

/-- The array state that an ar word which issues now finds when those before it in its lane have executed. -/
def laneArr (s : State) : ArrayState := (laneOf s 1).foldl (arrAfter s.c.m) s.c.arr

/-- Does a read of the name wait: its value is not there and R19 places the read at or beyond its latency (R20, R26)? -/
def mustWait (c : Core) (n : Name) : Bool :=
  !isZeroName n && (awaited c).any fun a => a.1 == dstName c n && (match a.2 with | none => true | some due => decide (due ≤ c.now))

/-- Does a write of the name wait for an earlier result that has still to come? Values are taken in issue order (R22). -/
def writeWaits (c : Core) (n : Name) : Bool :=
  !isZeroName n && (awaited c).any fun a => a.1 == dstName c n

/-- The pending ranked atomic whose value a scalar name waits for (R116). -/
def rankedOn (c : Core) : Name → Option Ranked
  | .s r => if r = 0 then none else c.ranked.find? fun x => cellDst x.cell == dstName c (.s r)
  | _ => none

/-- The guard as a register that is read. -/
def guardName (g : Guard) : Name := .p g.p

/-- A compare, which may read a scalar that awaits a ranked atomic (R95). -/
def isCompare : Instr → Bool
  | .cmp _ _ _ _ _ => true
  | .cmpi _ _ _ _ _ => true
  | _ => false

/-- Is the word an opcode-0 word? -/
def isNop : Instr → Bool
  | .nop _ _ => true
  | .nopSlot _ _ => true
  | _ => false

/-- Words that wait at issue while a speculation is unresolved (R97). A nop waits for nothing. -/
def heldBySpec (i : Instr) : Bool :=
  match i with
  | .swrite _ _ _ _ => true
  | .swriteTstat _ _ _ => true
  | .swriteTpc _ _ _ => true
  | .swriteIsav _ _ _ => true
  | .swriteSrec _ _ _ _ => true
  | .swriteWm _ _ _ _ => true
  | .swriteMtol _ _ _ => true
  | .swriteLstat _ _ _ => true
  | .swriteSat _ _ _ _ => true
  | .dcpl _ _ => true
  | .rjn _ _ => true
  | .endTask _ _ => true
  | .pmark _ _ => true
  | .phase _ _ => false
  | .fence _ _ => false
  | .amoAdd _ _ _ _ _ => true
  | .amoAnd _ _ _ _ _ => true
  | .amoOr _ _ _ _ _ => true
  | .amoXor _ _ _ _ _ => true
  | .amoMax _ _ _ _ _ => true
  | .amoMin _ _ _ _ _ => true
  | .amoXchg _ _ _ _ _ => true
  | .amoCas _ _ _ _ _ => true
  | .amob _ _ _ _ _ => true
  | .amoAddR _ _ _ _ _ => true
  | .amoAndR _ _ _ _ _ => true
  | .amoOrR _ _ _ _ _ => true
  | .amoXorR _ _ _ _ _ => true
  | .amoMaxR _ _ _ _ _ => true
  | .amoMinR _ _ _ _ _ => true
  | .amoXchgR _ _ _ _ _ => true
  | .amoCasR _ _ _ _ _ => true
  | .amobR _ _ _ _ _ => true
  | i => !isNop i && match i.slot with
    | some .ar | some .mx | some .cp | some .sp | some .sy => true
    | _ => false

/-- Reads of a scalar that awaits a ranked atomic: early before the task's phase, an interlock after it; compares are let
through; a write is early for as long as the value has not landed (R116). -/
def rankedGate (i : Instr) (c : Core) : Res Unit :=
  let reads := if isCompare i then [] else (srcs i).filterMap (rankedOn c)
  let writes := match dstOf i with | some (n, _) => (rankedOn c n).isSome | none => false
  if reads.any (fun r => r.armed.isNone) then .error (.fault 0x82 none)
  else if !reads.isEmpty then .error .stall
  else if writes then .error (.fault 0x82 none)
  else .ok ()

/-- A word whose handle check reads the descriptor table at issue (R195, R334). -/
def usesTables (i : Instr) : Bool :=
  match i with
  | .hset _ _ _ _ => false
  | .hget _ _ _ _ => false
  | .sth _ _ _ _ _ => false
  | .hmk _ _ _ => true
  | .ashf _ _ => true
  | .collAr _ _ => true
  | .collRs _ _ => true
  | .collAg _ _ => true
  | .collA2a _ _ => true
  | .collBc _ _ => true
  | i => (srcs i).any fun n => match n with | .h _ => true | _ => false

/-- Words that wait at issue for LSEL, which an asel that waits in the lane before them writes: its reader interlocks (R26,
R120). -/
def ownWaits (i : Instr) (s : State) : Bool :=
  let sel := (laneOf s 1).any fun x => match x.i with | .asel _ _ => true | _ => false
  match i with
  | .ashf _ _ => sel
  | .apush _ _ _ _ _ => sel
  | .aacc _ _ _ _ _ => sel
  | .alds _ _ _ _ => sel
  | .aswp _ _ => sel
  | .afac _ _ _ _ _ => sel
  | _ => false

/-- spec waits for its predicate where a slipped compare will write it (R26): only a pending one opens a speculation (R95). -/
def specAwaits (i : Instr) (c : Core) : Bool :=
  match i with
  | .spec _ p _ => c.lanes.flatten.any fun x => match laneDst x with | some (d, _) => d == .p p.toNat && p != 0 | none => false
  | _ => false

/-- A loop entry that rotates writes p8 to p15, and takes its place among the writes of them (R22, R83). -/
def rotatesIn (i : Instr) : Bool :=
  match i with
  | .loopRot _ _ _ => true
  | .loopRotPre _ _ _ => true
  | _ => false

/-- Does a predicate that the word's loop entry writes await an earlier result? -/
def rotWaits (i : Instr) (c : Core) : Bool :=
  rotatesIn i && (List.range 8).any fun k => writeWaits c (.p (BitVec.ofNat 4 (8 + k)))

/-- What a slot word passes before its meaning: R116, R97, and the interlocks of its operands and destination. A released
operation holds its operands (R24). -/
def gate (i : Instr) (s : State) : Res Unit :=
  if s.c.held.isSome then .ok () else
  match rankedGate i s.c with
  | .error e => .error e
  | .ok _ =>
    if heldBySpec i && speculating s then .error (specWait s)
    else if ownWaits i s || specAwaits i s.c || rotWaits i s.c || (usesTables i && tableStoreWaits s) then .error .stall
    else if (srcs i).any (mustWait s.c) then .error .stall
    else match dstOf i with
      | some (n, _) => if writeWaits s.c n then .error .stall else .ok ()
      | none => .ok ()

/-- Resolve the handles of an operation that slips (R24); its body has checked them. The tensor of an ashf is that of the row
operation before it, under 1 where that is a drain and under 0 otherwise. -/
def capture (i : Instr) (s : State) : List (BitVec 5 × Tens) :=
  let run0 := match i with | .alds _ _ _ _ => true | _ => false
  let again := match i, (laneArr s).last with
    | .ashf _ _, some l => (match resolve s l.hv (some false) with
      | .ok t => [(if l.op = 4 then 1 else 0, t)]
      | .error _ => match resolve s l.hv none with
        | .ok t => [(if l.op = 4 then 1 else 0, t)]
        | .error _ => [])
    | _, _ => []
  again ++ (handlesOf i).filterMap fun h => match useTens s h (some run0) with
    | .ok t => some (h, t)
    | .error _ => match useTens s h none with
      | .ok t => some (h, t)
      | .error _ => none

/-- How a slot ends that did not complete. What a released operation meets is an uncorrectable error (R27). A cause of Table 5-13
has the tval of that table wherever it is raised (R75). -/
def endSlot (k : Slot) (_i : Instr) (x : Exn) (s : State) : State :=
  match x with
  | .fault c v =>
    if s.c.held.isSome then
      let t := deferFault 0x40 k.idx v s
      if t.c.bun.stopped then t else match laneIdx k with | some n => dropLane n t | none => t
    else raise k.idx c (if v.isNone && [0x10, 0x11, 0x13, 0x14].contains c then some (execTval k s) else v) s
  | .deferred c v => deferFault c k.idx v s
  | .stall => stalled s
  | .slip => stalled s

/-- The undo entry of an operation that slips: it counts as committed from its issue (R27, R28). -/
def undoDst (i : Instr) (s : State) : State :=
  match i with
  | .asel _ _ => pushUndo 4 0 (s.c.r.lsel.setWidth 256) s
  | .awm _ t _ => pushUndo 3 (0x050 + t.setWidth 12) ((s.c.wm[t.toNat]'t.isLt).setWidth 256) s
  | i => match dstOf i with
    | some (.s r, _) => undoS r s
    | some (.h h, _) => pushUndo 1 (h.setWidth 12) (s.c.r.rdH h) s
    | some (.stg j, _) => pushUndo 2 (32 + j.setWidth 12) ((s.c.r.rdStg j).setWidth 256) s
    | some (.p _, _) => s
    | none => s

/-- Does an operation in another lane keep the word at issue (R121, R134, R224)? -/
def laneClash (n : Nat) (i : Instr) (ts : List (BitVec 5 × Tens)) (s : State) : Bool :=
  let others := (s.c.lanes.zipIdx.filter fun l => l.2 != n).flatMap (·.1)
  !others.isEmpty && (let r := reachOf s i s.src ts; others.any fun x => (slippedReach s x).clash r)

/-- Enter the slip lane (R24): inside an emulation sequence nothing slips, the word waits at issue, which changes no value
(R26). -/
def enterLane (n : Nat) (i : Instr) (s : State) : State :=
  let ts := capture i s
  if s.c.emu.isSome || s.c.held.isSome || laneClash n i ts s then stalled s else pushLane n i ts (undoDst i s)

/-- What only the execution of an operation meets: what stands before it in its lane may yet lift it (R24, R210, R211). -/
def metAtRelease (x : Exn) : Bool :=
  match x with
  | .fault c _ => c == 0x41 || c == 0x42
  | _ => false

/-- A lane word that has passed its gate: it executes, or enters its lane where a tile is empty or earlier operations wait
there; its checks at issue are then made on what those will leave (R24, R127). -/
def runLane (k : Slot) (n : Nat) (i : Instr) (body : Body) (s : State) : State :=
  let waits := s.c.held.isNone && !(laneOf s n).isEmpty
  match body (if waits && n == 1 then s.onC (fun c => { c with arr := laneArr s }) else s) with
  | .error .slip => enterLane n i s
  | .error x => if waits && metAtRelease x then enterLane n i s else endSlot k i x s
  | .ok s' =>
    if waits then enterLane n i s
    else if s.c.held.isNone && laneClash n i (capture i s) s then stalled s
    else s'

/-- A slot word under its guard (R16): suppressed, or through the gate to its meaning. -/
def runSlot (k : Slot) (g : Guard) (i : Instr) (body : Body) (s : State) : State :=
  if s.c.held.isNone && mustWait s.c (guardName g) then stalled s
  else if !guardHolds k g s then s
  else match gate i s with
    | .error x => endSlot k i x s
    | .ok _ =>
      match laneIdx k with
      | some n => runLane k n i body s
      | none =>
        match body s with
        | .error x => endSlot k i x s
        | .ok s' => s'

/-- A slot word as an answer of exec. -/
def slotOut (k : Slot) (g : Guard) (i : Instr) (s : State) (body : Body) : Out := .next (runSlot k g i body s)

/-- The shadow read of a slot word, if it makes one: the name's producer is in flight, or waits in a lane, and R19 places
the read inside its latency (R21, R26). -/
def shadowOf (c : Core) (n : Name) : Option (Nat × Word) :=
  if isZeroName n then none
  else
    let d := dstName c n
    let flying := (c.inflight.reverse.find? fun e => e.dst == d && !e.var && decide (c.now < e.due)).map fun e => (e.slot, e.addr)
    match flying with
    | some x => some x
    | none =>
      (c.lanes.zipIdx.flatMap fun l => l.1.filterMap fun x =>
        match laneDst x with
        | some (d', some due) => if d' == d && decide (c.now < due) then some (l.2 + 1, x.addr) else none
        | _ => none).getLast?

/-- tval of cause 0x20 (Table 3-4) for the first slot of the list that makes a shadow read: slots with the names they read. -/
def shadowFault (c : Core) : List (Slot × List Name) → Option Word
  | [] => none
  | (k, ns) :: l =>
    match ns.findSome? (shadowOf c) with
    | some (ps, addr) => some (BitVec.ofNat 64 (k.idx * 2 ^ 55 + ps * 2 ^ 52 + addr.toNat % 2 ^ 52))
    | none => shadowFault c l

end Sys2Proof.Machine
end

