-- ==== Sys2Proof/Machine/Fa.lean ====
section
/-! DEFINITION. Fixed-point accumulation: elements, products and runs, add, merge and drain (R49 to R56). -/

namespace Sys2Proof.Machine

/-- An FA element (Table 4-6). -/
abbrev FaElem := BitVec 128

/-- The fields of an FA element. -/
def FaElem.make (n p m v : Bool) (i : Int) : FaElem :=
  BitVec.ofNat 128 ((if n then 2 ^ 127 else 0) + (if p then 2 ^ 126 else 0) + (if m then 2 ^ 125 else 0)
    + (if v then 2 ^ 124 else 0) + (i % (2 ^ 124 : Int)).toNat)

def FaElem.fN (e : FaElem) : Bool := e.getLsbD 127
def FaElem.fP (e : FaElem) : Bool := e.getLsbD 126
def FaElem.fM (e : FaElem) : Bool := e.getLsbD 125
def FaElem.fV (e : FaElem) : Bool := e.getLsbD 124

/-- The two's complement count of quanta. -/
def FaElem.fI (e : FaElem) : Int := signedOf 124 (e.toNat % 2 ^ 124)

/-- fa_sat of Table 4-7. -/
def faSat (e : FaElem) (neg : Bool) : FaElem :=
  if !e.fV then .make e.fN e.fP e.fM true (if neg then -(2 ^ 123) else 2 ^ 123 - 1)
  else if decide (e.fI < 0) != neg then .make true e.fP e.fM true e.fI
  else e

/-- rni of a quotient with a sign: nearest integer, ties to even. -/
def rni (neg : Bool) (num den : Nat) : Int :=
  let n : Int := (roundQ 0 neg num den : Nat)
  if neg then -n else n

/-- fa_add of Table 4-7 on an element whose anchor is a. -/
def faAdd (a : Int) (e : FaElem) (x : Num) : FaElem :=
  match x with
  | .nan => .make true e.fP e.fM e.fV e.fI
  | .inf false => .make e.fN true e.fM e.fV e.fI
  | .inf true => .make e.fN e.fP true e.fV e.fI
  | .fin neg m ex =>
    let (num, den) := scaleQ m 1 (a - 91 - ex)
    let t := rni neg num den
    if (2 ^ 123 : Nat) ≤ t.natAbs then faSat e neg
    else if e.fV then e
    else .make e.fN e.fP e.fM false (e.fI + t)

/-- fa_merge of Table 4-7; its caller has checked that the anchors are equal (R53). -/
def faMerge (e f : FaElem) : FaElem :=
  let e' := FaElem.make (e.fN || f.fN) (e.fP || f.fP) (e.fM || f.fM) e.fV e.fI
  if f.fV then faSat e' (decide (f.fI < 0))
  else if e'.fV then e'
  else .make e'.fN e'.fP e'.fM false (e'.fI + f.fI)

/-- The exact number an element with clear flags stands for. -/
def faNum (a : Int) (e : FaElem) : Num := .fin (decide (e.fI < 0)) e.fI.natAbs (a - 91)

/-- The value that fa_drain rounds: a NaN, an infinity with OV where V is set, +0, or the exact sum (Table 4-7). -/
def faValue (a : Int) (e : FaElem) : Num × Flags :=
  if e.fN || (e.fP && e.fM) then (.nan, 0)
  else if e.fP then (.inf false, 0)
  else if e.fM then (.inf true, 0)
  else if e.fV then (.inf (decide (e.fI < 0)), flagOV)
  else if e.fI = 0 then (Num.zero, 0)
  else (faNum a e, 0)

/-- fa_drain of Table 4-7. -/
def faDrain (a : Int) (e : FaElem) (fmt : Nat) : Nat × Flags :=
  let (x, fl) := faValue a e
  let r := rndNum fmt [] 0 x
  (r.1, r.2 ||| fl)

/-- A drain through a factor scale: the value, exact or special, is multiplied under R57 and rounded once (R130, R161). -/
def faDrainScaled (a : Int) (e : FaElem) (k : Num) (fmt : Nat) : Nat × Flags :=
  let (x, fl) := faValue a e
  let y := Num.mul x k
  let r := rndNum fmt [] 0 y
  (r.1, r.2 ||| fl ||| nvOf (x.isNan || k.isNan) y)

/-- The formats a drain writes (R55). -/
def drainFmt (fmt : Nat) : Bool := decide (fmt ≤ 2)

/-- A product of R51: none where a factor is zero. -/
def prod4 (x y sx sy : Num) : Option Num :=
  if x.isZero || y.isZero || sx.isZero || sy.isZero then none
  else some (Num.mul (Num.mul x y) (Num.mul sx sy))

/-- One run into an element (R52): finite products are summed exactly into the run value, the others go to fa_add on their
own; the run value is added once, if there was a finite product. -/
def faRun (a : Int) : List (Option Num) → Option Num → FaElem → FaElem
  | [], none, e => e
  | [], some s, e => faAdd a e s
  | none :: ps, s, e => faRun a ps s e
  | some p :: ps, s, e =>
    match p with
    | .fin _ _ _ => faRun a ps (some (match s with | none => p | some t => Num.add t p)) e
    | _ => faRun a ps s (faAdd a e p)

/-- Split a list into pieces of n; fuel bounds the pieces. -/
def chunks {α : Type} (n : Nat) : Nat → List α → List (List α)
  | 0, _ => []
  | _ + 1, [] => []
  | k + 1, l => l.take n :: chunks n k (l.drop n)

/-- The contraction of R56 from K index 0 on: factors by K index, scales by run of 32. -/
def contract (a : Int) (e : FaElem) (xs ys : List Num) (sx sy : Nat → Num) : FaElem :=
  let runs := chunks 32 (xs.length / 32 + 1) (xs.zip ys)
  (runs.zipIdx).foldl (fun e r => faRun a (r.1.map fun p => prod4 p.1 p.2 (sx r.2) (sy r.2)) none e) e

end Sys2Proof.Machine
end

