-- ==== Sys2Proof/Machine/Array.lean ====
section
/-! DEFINITION. The ar slot: latch planes, row operations, anchors, drains, watermarks, the factor path (R119 to R132). -/

namespace Sys2Proof.Machine

/-- The latch that a field names (R120). -/
def latchOf (s : State) (l : BitVec 2) : Nat := (l.toNat + s.src.lsel.toNat) % 4

def onArr (f : ArrayState → ArrayState) (s : State) : State := s.onC fun c => { c with arr := f c.arr }

/-- An element of an accumulator tile. -/
def accKey (t r j : Nat) : Nat := t * 16384 + r * 128 + j

def accGet (a : ArrayState) (t r j : Nat) : FaElem := (SMap.get? a.acc (accKey t r j)).getD 0

def accSet (t r j : Nat) (e : FaElem) (a : ArrayState) : ArrayState :=
  { a with acc := if e = 0 then SMap.del a.acc (accKey t r j) else SMap.put a.acc (accKey t r j) e }

def anchorOf (a : ArrayState) (t : Nat) : Int := ((a.anchor[t]?).getD 0).toInt

def fscaleOf (a : ArrayState) (t : Nat) : Option (List (BitVec 32)) := (a.fscale[t]?).join

def setFscale (t : Nat) (x : Option (List (BitVec 32))) (a : ArrayState) : ArrayState :=
  if h : t < 8 then { a with fscale := a.fscale.set t x h } else a

/-- The handle of a row operation names a two-dimensional tensor (R127). -/
def twoDim (t : Tens) : Res Unit := if t.ext.length = 2 then .ok () else .error (opFault 15)

/-- A row offset inside the handle (R197). -/
def rowIn (t : Tens) (o : Nat) : Res Unit := if o < (t.ext[0]?).getD 0 then .ok () else .error (.fault 0x36 none)

/-- The sums of one pushed row (R125): activations with their scales against the columns of the plane. -/
def pushRow (p : Plane) (xs : List (Num × Num)) (t r : Nat) (clear : Bool) (a : ArrayState) : ArrayState :=
  let anchor := anchorOf a t
  let a := if clear then { (List.range 128).foldl (fun a j => accSet t r j 0 a) a with
      upset := a.upset.filter fun k => k / 128 != t * 128 + r } else a
  (List.range p.n).foldl (fun a j =>
    let terms := ((xs.zip (p.w.zip p.sc)).map fun x =>
      prod4 x.1.1 ((x.2.1[j]?).getD Num.zero) x.1.2 ((x.2.2[j]?).getD Num.one))
    let e := (chunks 32 (terms.length / 32 + 1) terms).foldl (fun e run => faRun anchor run none e) (accGet a t r j)
    accSet t r j e a) a

/-- The elements of the row that a push reads. -/
def pushIdxs (x : Tens) (l o : Nat) (s : State) : List (List Nat) :=
  (List.range (min (activePlane s.c.arr l).kp ((x.ext[1]?).getD 0))).map fun k => [o, k]

/-- The rows of slice o along dimension 0, of which n elements are touched in two dimensions. -/
def sliceRows (t : Tens) (o n : Nat) : List (List Nat × Nat × Nat) :=
  match t.ext with
  | [_] => [([], o, 1)]
  | [_, _] => [([o], 0, n)]
  | _ => (allIdx t.ext.tail.dropLast).map fun i => (o :: i, 0, t.ext.getLast?.getD 0)

/-- The handle check of a row operation at one row offset, scales apart: bounds, translation, residence (R127, R197). The
number of dimensions comes after it and after the scales (log 24). -/
def rowCheck (k : Acc) (x : Tens) (o n : Nat) (s : State) : Res Unit := do
  rowIn x o
  rowsReach s k true x (sliceRows x o n)

/-- The handle check of apush and aacc at one row offset, scales apart. -/
def pushCheck (x : Tens) (l o : Nat) (s : State) : Res Unit := rowCheck .read x o (pushIdxs x l o s).length s

/-- apush and aacc at one row offset (R125). -/
def pushOp (clear : Bool) (x : Tens) (l tile o : Nat) (s : State) : Res State := do
  pipeReads s x false (pushIdxs x l o s)
  let p := activePlane s.c.arr l
  let idxs := pushIdxs x l o s
  let vs ← mapRead (fun i => do
    let code ← codeAt s x i
    let k ← scaleAt s x.d x.scale false (coords x i)
    .ok (valOfCode x code, k)) idxs
  .ok (onArr (pushRow p vs tile (o % 128) clear) s)

/-- The LEVEL and EN that a drain tests: those at its bundle's entry, which an swrite of the bundle has saved (R23, R33). A drain that
slips tests those at its release, a write of its own bundle among them: the spec does not say which (DESIGN CHOICE, log 98). -/
def wmAtEntry (tile : Nat) (s : State) : Word :=
  match s.c.bun.undo.find? fun u => u.cls == 3 && u.idx.toNat == 0x50 + tile with
  | some u => u.val.setWidth 64
  | none => (s.c.wm[tile]?).getD 0

/-- A drained element against its watermark (R131, Table 7-4). -/
def watermark (tile row : Nat) (e : FaElem) (s : State) : State :=
  let w := (s.c.wm[tile]?).getD 0
  let t := wmAtEntry tile s
  let hit := e.fV || decide (2 ^ (t.toNat % 128) ≤ e.fI.natAbs)
  if t.getLsbD 7 && hit && !w.getLsbD 63 then
    let v : Word := (w &&& 0xFF) ||| 0x8000000000000000 ||| (BitVec.ofNat 64 row <<< 48)
    if h : tile < 8 then s.onC fun c => { c with wm := c.wm.set tile v h } else s
  else s

/-- The elements that a drain writes. -/
def drainIdxs (x : Tens) (o : Nat) : List (List Nat) := (List.range (min 128 ((x.ext[1]?).getD 0))).map fun k => [o, k]

/-- The checks of adrn at one row offset (R127, R130), its own format last (log 24). -/
def drainCheck (x : Tens) (o : Nat) (s : State) : Res Unit := do
  rowCheck .write x o (drainIdxs x o).length s
  twoDim x
  if !drainFmt x.d.fmt then .error (.fault 0x13 none) else .ok ()

/-- adrn at one row offset (R130): drained through the factor scale where it is armed; the residue of each element is checked
(R50, R379). -/
def drainOp (x : Tens) (tile o : Nat) (s : State) : Res State := do
  pipeWrites s x (drainIdxs x o)
  let r := o % 128
  let idxs := drainIdxs x o
  let a := s.c.arr
  let fs := fscaleOf a tile
  let outs := (List.range idxs.length).map fun j =>
    let e := accGet a tile r j
    match fs.bind fun l => l[j]? with
    | some k => faDrainScaled (anchorOf a tile) e (decodeNum 0 [] k.toNat) x.d.fmt
    | none => faDrain (anchorOf a tile) e x.d.fmt
  let cells ← pipeFault .write (regionCells s x (idxs.zip (outs.map (·.1))))
  let s' ← match (List.range idxs.length).find? fun j => a.upset.contains (accKey tile r j) with
    | some j => if partialPoison s cells then .error (.fault 0x42 none) else .ok (noteMismatch 2 tile r j (applyFree cells s))
    | none => pipeWrite cells s
  let s' := (List.range idxs.length).foldl (fun s j => watermark tile r (accGet a tile r j) s) s'
  .ok (raiseFlags .ar (outs.foldl (fun f o => f ||| o.2) 0) s')

/-- The record of the last row operation (R126). -/
def setLast (op : Nat) (hv : BitVec 256) (l : BitVec 2) (tile : BitVec 3) (o : Nat) (s : State) : State :=
  onArr (fun a => { a with last := some ⟨op, hv, l, tile, o⟩ }) s

/-- apush and aacc: the row's handle check, the scales with it (R45), the number of dimensions, then the push. -/
def pushWord (clear : Bool) (h : BitVec 5) (rs : BitVec 6) (l : BitVec 2) (t : BitVec 3) (s : State) : Res State := do
  let x ← useTens s h none
  let o := (s.rdS rs).toNat
  pushCheck x (latchOf s l) o s
  let x ← useTens s h (some false)
  twoDim x
  let s' ← pushOp clear x (latchOf s l) t.toNat o s
  .ok (setLast (if clear then 1 else 3) (s.rdH h) l t o s')

def execApush (g : Guard) (h : BitVec 5) (rs : BitVec 6) (l : BitVec 2) (t : BitVec 3) (s : State) : Out :=
  slotOut .ar g (.apush g h rs l t) s (pushWord true h rs l t)

def execAacc (g : Guard) (h : BitVec 5) (rs : BitVec 6) (l : BitVec 2) (t : BitVec 3) (s : State) : Out :=
  slotOut .ar g (.aacc g h rs l t) s (pushWord false h rs l t)

def execAdrn (g : Guard) (h : BitVec 5) (rs : BitVec 6) (t : BitVec 3) (s : State) : Out :=
  slotOut .ar g (.adrn g h rs t) s fun s => do
    let x ← useTens s h none
    let o := (s.rdS rs).toNat
    drainCheck x o s
    let s' ← drainOp x t.toNat o s
    .ok (setLast 4 (s.rdH h) 0 t o s')

/-- Repetitions of the last row operation, at the following offsets (R126). -/
def repeatRows (x : Tens) (r : LastRow) (l : Nat) : Nat → Nat → State → Res State
  | 0, _, s => .ok s
  | n + 1, o, s => do
    let s' ← if r.op = 4 then drainOp x r.tile.toNat o s else pushOp (r.op == 1) x l r.tile.toNat o s
    repeatRows x r l n (o + 1) s'

/-- ashf (R126): every condition is checked at issue, so a fault leaves no beat executed (R127). -/
def execAshf (g : Guard) (b : BitVec 4) (s : State) : Out :=
  slotOut .ar g (.ashf g b) s fun s =>
    match s.c.arr.last with
    | none => .error (opFault 5)
    | some r => do
      let l := latchOf s r.l
      let n := b.toNat + 1
      let held := s.c.held.bind fun l => l.head?.map (·.2)
      let x ← match held with
        | some x => .ok x
        | none => resolve s r.hv none
      together ((List.range n).map fun k =>
        if r.op = 4 then drainCheck x (r.off + 1 + k) s else pushCheck x l (r.off + 1 + k) s)
      let x ← match held with
        | some x => .ok x
        | none => resolve s r.hv (if r.op = 4 then none else some false)
      twoDim x
      together ((List.range n).map fun k =>
        if r.op = 4 then pipeWrites s x (drainIdxs x (r.off + 1 + k)) else pipeReads s x false (pushIdxs x l (r.off + 1 + k) s))
      let s' ← repeatRows x r l n (r.off + 1) s
      .ok (setLast r.op r.hv r.l r.tile (r.off + n) s')

/-- alds (R123): the shadow plane of the latch, with the scale of each weight's own run. -/
def execAlds (g : Guard) (h : BitVec 5) (rs : BitVec 6) (l : BitVec 2) (s : State) : Out :=
  slotOut .ar g (.alds g h rs l) s fun s => do
    let x ← useTens s h none
    let o := (s.rdS rs).toNat
    rowIn x o
    let k := min (fmtDepth x.d.fmt) ((x.ext[0]?).getD 0 - o)
    let n := min 128 ((x.ext[1]?).getD 0)
    let rows := (List.range k).map fun i => (List.range n).map fun j => [o + i, j]
    rowsReach s .read true x ((List.range k).flatMap fun i => sliceRows x (o + i) n)
    let x ← useTens s h (some true)
    twoDim x
    pipeReads s x true rows.flatten
    let kp := 32 * ((k + 31) / 32)
    let ws ← rows.mapM fun r => mapRead (fun i => do
      let code ← codeAt s x i
      let c ← scaleAt s x.d x.scale true (coords x i)
      .ok (valOfCode x code, c)) r
    let p : Plane := ⟨kp, n, x.d.fmt, ws.map (·.map (·.1)) ++ List.replicate (kp - k) (List.replicate n Num.zero),
      ws.map (·.map (·.2)) ++ List.replicate (kp - k) (List.replicate n Num.one)⟩
    .ok (onArr (setPlane (2 * latchOf s l + 1) p) s)

/-- aswp (R124). -/
def execAswp (g : Guard) (l : BitVec 2) (s : State) : Out :=
  slotOut .ar g (.aswp g l) s fun s =>
    .ok (onArr (swapPlanes (2 * latchOf s l)) s)

/-- asel (R120): LSEL, latency 1, undo CLASS 4. -/
def execAsel (g : Guard) (l : BitVec 2) (s : State) : Out :=
  slotOut .ar g (.asel g l) s fun s =>
    .ok (post .ar .lsel (l.setWidth 256) 1 (pushUndo 4 0 (s.c.r.lsel.setWidth 256) s))

/-- Set a tile's anchor and disarm its factor scale (R128). -/
def setAnchor (t : BitVec 3) (v : BitVec 10) (s : State) : State :=
  onArr (fun a => setFscale t.toNat none { a with anchor := a.anchor.set t.toNat v t.isLt }) s

def execAcfg (g : Guard) (t : BitVec 3) (rs : BitVec 6) (s : State) : Out :=
  slotOut .ar g (.acfg g t rs) s fun s => .ok (setAnchor t ((s.rdS rs).setWidth 10) s)

def execAcfgImm (g : Guard) (t : BitVec 3) (im : BitVec 10) (s : State) : Out :=
  slotOut .ar g (.acfgImm g t im) s fun s => .ok (setAnchor t im s)

/-- azr (R129): the anchor is kept. -/
def execAzr (g : Guard) (t : BitVec 3) (s : State) : Out :=
  slotOut .ar g (.azr g t) s fun s =>
    .ok (onArr (fun a => setFscale t.toNat none { a with
      acc := a.acc.filter fun x => x.1 / 16384 != t.toNat
      upset := a.upset.filter fun k => k / 16384 != t.toNat }) s)

/-- The m register that an mx word writes. -/
def mxDst : Instr → Option (BitVec 4)
  | .mld _ m _ => some m
  | .mzr _ d => some d
  | .mcpy _ d _ => some d
  | .mmul _ d _ _ => some d
  | .madd _ d _ _ => some d
  | .mscl _ m _ => some m
  | .mrcmp _ d _ => some d
  | .mdns _ d _ => some d
  | .mfac _ d _ _ => some d
  | .mtrn _ d _ => some d
  | _ => none

/-- A matrix register. -/
def State.mreg (s : State) (m : BitVec 4) : MReg := s.c.m[m.toNat]'m.isLt

/-- Rank of a register in factor form. -/
def MReg.rank (x : MReg) : Nat := x.s.length

/-- afac (R132): waits for earlier mx commands that write m; a poisoned m raises cause 0x41 (R162), a dense one reason 8. -/
def execAfac (g : Guard) (m : BitVec 4) (l : BitVec 2) (t : BitVec 3) (p : BitVec 1) (s : State) : Out :=
  slotOut .ar g (.afac g m l t p) s fun s =>
    if s.c.mxq.any fun q => mxDst q.i == some m && decide (q.no < s.c.cmdNo) then .error .stall
    else
      let x := s.mreg m
      if x.poison then .error (.fault 0x41 none)
      else if x.dense then .error (opFault 8)
      else
        let k := x.s.length
        let num (c : BitVec 16) : Num := decodeNum 1 [] c.toNat
        let pl : Plane :=
          if k = 0 then Plane.empty
          else if p = 0 then
            let w := (List.range 128).map fun r => x.u.map fun col => num ((col[r]?).getD 0)
            ⟨128, k, 1, w, w.map fun r => r.map fun _ => Num.one⟩
          else
            let kp := 32 * ((k + 31) / 32)
            let w := x.v.map (fun col => col.map num) ++ List.replicate (kp - k) (List.replicate 128 Num.zero)
            ⟨kp, 128, 1, w, w.map fun r => r.map fun _ => Num.one⟩
        .ok (onArr (fun a => setFscale t.toNat (if p = 0 then some x.s else none) (setPlane (2 * latchOf s l + 1) pl a)) s)

/-- awm (R131): arms a watermark; undo CLASS 3. It comes after an swrite of the register in its own bundle, whose write it overtakes
(R22). -/
def execAwm (g : Guard) (t : BitVec 3) (rs : BitVec 6) (s : State) : Out :=
  slotOut .ar g (.awm g t rs) s fun s =>
    let level := (s.rdS rs).toNat % 128
    let v : Word := BitVec.ofNat 64 (level + (if level ≤ 123 then 128 else 0))
    let old := s.c.wm[t.toNat]'t.isLt
    .ok ((dropFlying (.sp (0x50 + t.toNat)) (pushUndo 3 (0x050 + t.setWidth 12) (old.setWidth 256) s)).onC fun c =>
      { c with wm := c.wm.set t.toNat v t.isLt })

end Sys2Proof.Machine
end

