-- ==== Sys2Proof/Machine/Engine.lean ====
section
/-! DEFINITION. What the four queued engines share: taking a command at issue, the counts of full/empty tiles, running the head of a queue, completing, failing and dropping (R163 to R168, R187, R200, R201, R210, R211). -/

namespace Sys2Proof.Machine

/-- The queue of an engine, by its slot number. -/
def queueOf (k : Nat) (c : Core) : List Cmd :=
  match k with
  | 4 => c.mxq
  | 5 => c.cpq
  | 6 => c.spq
  | _ => c.syq

def setQueue (k : Nat) (l : List Cmd) (c : Core) : Core :=
  match k with
  | 4 => { c with mxq := l }
  | 5 => { c with cpq := l }
  | 6 => { c with spq := l }
  | _ => { c with syq := l }

/-- A command as it is captured at issue: staging values, bundle address and word (R14, R163). -/
def newCmd (k : Slot) (i : Instr) (s : State) : Cmd :=
  { i := i, slot := k.idx, chan := 0, addr := s.c.pc, word := encode i
    stg := (List.range 8).map fun j => s.rdStg (BitVec.ofNat 5 (8 * (k.idx - 4) + j))
    x := 0, ts := [], hd := 0, cell := 0, mres := none, image := none, cnt := [], wids := [], void := false
    no := s.c.cmdNo, joined := false }

/-- A captured staging value. -/
def Cmd.stgAt (q : Cmd) (j : Nat) : Word := (q.stg[j]?).getD 0

/-- Commands of the task touch memory outside its pool only when no phase or fence is under way (R184, R185). -/
def engHold (s : State) (homes : List Nat) : Res Unit :=
  if (s.c.syq.any fun q => match q.i with | .phase _ _ => true | .fence _ _ => true | _ => false)
    && homes.any (fun a => !isPoolHome a) then .error .stall else .ok ()

/-- The tiles of the scratchpad that hold bytes of a list. -/
def tilesOf (homes : List Nat) : List Nat := ((homes.filter isPoolHome).map tileOf).eraseDups

/-- Take a queue entry: sixteen to an engine, and a command that finds none free waits at issue (R8, R163). Its tiles empty
(R200), and it becomes the latest writer of its tensors (R187). -/
def enqueue (k : Slot) (q : Cmd) (s : State) : Res State :=
  if 16 ≤ (queueOf k.idx s.c).length then .error .stall
  else .ok (s.onC fun c =>
    setQueue k.idx (queueOf k.idx c ++ [q])
      { c with
        cmdNo := c.cmdNo + 1
        counts := countUp q.cnt c.counts
        writers := q.wids.foldl (fun m t => SMap.put m t (q.no, false)) c.writers })

/-- Steps 4 and 5 of the handle check for an operand that an engine reads at the indexes given (R45, R197, R199). -/
def engReads (s : State) (t : Tens) (run0 : Bool) (idxs : List (List Nat)) : Res (List Nat) := do
  if !layoutOk t then .error (.fault 0x37 none) else pipeFault .read (homesOf (readHomes s t run0) idxs)

/-- The same for a destination. -/
def engWrites (s : State) (t : Tens) (idxs : List (List Nat)) : Res (List Nat) :=
  if !layoutOk t then .error (.fault 0x37 none)
  else if t.view = 2 && !idxs.isEmpty then .error (.fault 0x34 (some (tvalVa .write 3 (elemAt t.d (t.org.map Int.toNat)).1)))
  else pipeFault .write (homesOf (fun i => elemHomes s .write t.d (coords t i)) idxs)

/-- The scales that a command writes, as homes. -/
def engScaleWrites (s : State) (sc : Option TBase) (cs : List (List Nat)) : Res (List Nat) :=
  match sc with
  | none => .ok []
  | some x => pipeFault .write (homesOf (elemHomes s .write x) cs)

/-- How a command's execution ends other than by completing. cells are the bytes it would have written. -/
inductive EngStop where
  | wait
  | fail (cause tries : Nat) (detail : Word) (cells : List Host.Cell)
  | residue (cells : List Host.Cell)
  deriving DecidableEq, Repr

abbrev EngRes (α : Type) := Except EngStop α

/-- What an engine reads: held stores are not in memory (R97). -/
def unheld (s : State) : State := s.onC fun c => { c with spec := none }

/-- Is a byte's tile empty for a command, whose own count does not hold it up (R200, R201)? -/
def emptyBut (q : Cmd) (s : State) (a : Nat) : Bool :=
  isPoolHome a && decide (0 < (SMap.get? (countDown q.cnt s.c.counts) (tileOf a)).getD 0)

/-- The address of an element, as DETAIL reports it. -/
def vaOf (t : Tens) (idx : List Nat) : Word := BitVec.ofNat 64 ((elemAt t.d (coords t idx)).1 % 2 ^ 52)

/-- The first thing that keeps a command from reading an operand: lost translation (cause 0x70), an empty tile. -/
def engReach (q : Cmd) (s : State) (t : Tens) (run0 : Bool) : List (List Nat) → EngRes Unit
  | [] => .ok ()
  | i :: is =>
    match readHomes s t run0 i with
    | .error f => .error (.fail 0x70 1 f.tval [])
    | .ok hs => if hs.any (emptyBut q s) then .error .wait else engReach q s t run0 is

/-- The first poisoned element of an operand (R210). -/
def firstPoison (s : State) (t : Tens) (run0 : Bool) (idxs : List (List Nat)) : Option (List Nat) :=
  idxs.find? fun i => match readHomes s t run0 i with | .ok hs => hs.any (poisoned s) | .error _ => false

/-- An operand that a cp or sp command may read now: reached, full and clean. -/
def engReady (q : Cmd) (s : State) (t : Tens) (run0 : Bool) (idxs : List (List Nat)) : EngRes Unit := do
  engReach q s t run0 idxs
  match firstPoison s t run0 idxs with
  | some i => .error (.fail 0x71 1 (vaOf t i) [])
  | none => .ok ()

/-- A value that reads memory which is known to be reached. -/
def engGet {α : Type} : Except TransFault α → EngRes α
  | .ok a => .ok a
  | .error f => .error (.fail 0x70 1 f.tval [])

/-- The bytes that a failing command would have written, where they can be told. -/
def withCells {α : Type} (cells : List Host.Cell) : EngRes α → EngRes α
  | .error (.fail c n d _) => .error (.fail c n d cells)
  | r => r

/-- The cells of the elements whose codes can be read. -/
def tellable (s : State) (t : Tens) (l : List (List Nat × Except TransFault Nat)) : List Host.Cell :=
  let ok := l.filterMap fun x => match x.2 with | .ok c => some (x.1, c) | .error _ => none
  match regionCells s t ok with
  | .ok cells => cells
  | .error _ => []

/-- Land a command's writes: a partial write of a poisoned word is cause 0x71 (R211). -/
def engWrite (cells : List Host.Cell) (detail : Word) (s : State) : EngRes State :=
  if partialPoison s cells then .error (.fail 0x71 1 detail cells) else .ok (s.write cells)

/-- Put held-back flags into srec5 in issue order, as far as no earlier cp command is incomplete (R376). -/
def flushFlags : List (Nat × Word × BitVec 6) → State → State
  | [], s => s.onC fun c => { c with cpFlags := [] }
  | (no, a, fl) :: rest, s =>
    if s.c.cpq.any fun q => decide (q.no < no) then s.onC fun c => { c with cpFlags := (no, a, fl) :: rest }
    else flushFlags rest (orFlags 5 a fl s)

/-- Insert flags by issue number. -/
def insertFlags (x : Nat × Word × BitVec 6) : List (Nat × Word × BitVec 6) → List (Nat × Word × BitVec 6)
  | [] => [x]
  | y :: l => if x.1 < y.1 then x :: y :: l else y :: insertFlags x l

/-- A command leaves its queue, and its tiles fill again (R163, R200). -/
def popCmd (q : Cmd) (s : State) : State :=
  let s := s.onC fun c =>
    setQueue q.slot ((queueOf q.slot c).filter fun x => x.no != q.no) { c with counts := countDown q.cnt c.counts }
  flushFlags s.c.cpFlags s

/-- A command that failed, was dropped or was aborted: the publishes whose latest earlier writer it is do nothing, and neither does
the arrival that is bound to its own (R175, R177, R187, R188); the ranked atomics of a phase wait for the next one (R344). -/
def voidPubs (q : Cmd) (c : Core) : Core :=
  { c with
    writers := c.writers.map fun w => if w.2.1 = q.no ∧ q.wids.contains w.1 then (w.1, (w.2.1, true)) else w
    syq := c.syq.map fun p => match p.i with
      | .pub _ _ => if p.x = BitVec.ofNat 64 (q.no + 1) then { p with void := true } else p
      | _ => p
    txn := { c.txn with acts := c.txn.acts.filter fun a => match a with
      | .pub _ w => w != q.no + 1
      | .bara _ _ w => w != q.no + 1
      | _ => true }
    ranked := c.ranked.map fun r => if r.armed = some q.no then { r with armed := none } else r }

/-- Commands of the same cp channel, or of the same sp or sy queue, that were issued after a command (R165). -/
def laterCmds (q : Cmd) (c : Core) : List Cmd :=
  if q.slot = 4 then []
  else (queueOf q.slot c).filter fun x => decide (q.no < x.no) && (q.slot != 5 || x.chan == q.chan)

/-- Drop or abort a command without effect. -/
def discardCmd (q : Cmd) (s : State) : State := (popCmd q s).onC (voidPubs q)

/-- The bytes in which two memories differ, as the second has them. -/
def memDiff (m m' : List Host.Cell) : List Host.Cell :=
  (m'.filter fun c => memGet m c.1 != c.2) ++ (m.filter fun c => memGet m' c.1 == 0).map fun c => (c.1, 0)

/-- The bytes that a command has written in a state, by the key under which they stand there. -/
def wroteCells (s t : State) : List Host.Cell := (memDiff s.mem t.mem).filter fun c => sameKey t.keyed c.1

/-- The bytes that a command stopped by a poisoned read would have written, poison apart. -/
def cleanCells (f : Cmd → State → EngRes State) (q : Cmd) (s : State) : List Host.Cell :=
  match f q { s with poison := [] } with
  | .ok s' => wroteCells s s'
  | .error _ => []

/-- The pool bytes that a command writes. -/
def poolWrites (s : State) (q : Cmd) : List Nat :=
  ((q.ts.filter fun t => q.wids.contains t.d.id).flatMap (regionHomes s)).filter isPoolHome

/-- Does an earlier command that has still to execute write pool bytes which the command writes too? The later write waits for
the tile (Table 11-4, note e). -/
def writesBehind (s : State) (q : Cmd) : Bool :=
  let w := poolWrites s q
  !w.isEmpty && (s.c.mxq ++ s.c.cpq ++ s.c.spq).any fun e =>
    decide (e.no < q.no) && (tilesOf w).any e.cnt.contains && meets (poolWrites s e) w

/-- Does a slipped operation issued before the command wait still (R219)? -/
def slipBefore (q : Cmd) (c : Core) : Bool := c.lanes.flatten.any fun x => decide (x.no ≤ q.no)

/-- An atomic of the issue pipe with an immediate effect (R112, R218). -/
def isAtomic (i : Instr) : Bool := match scAccess i with | some k => k.rd && k.wr | none => false

/-- Does an operation that was issued before the command and waits in a slip lane keep it from executing: one that writes
what the command reads or writes, or reads what it writes (R213, Table 11-4; a load reads its pool tile when that is full, note
d), an atomic, whose effect comes first (R218), or an afac of a register that it writes (R132)? -/
def laneHolds (s : State) (q : Cmd) : Bool :=
  s.c.lanes.flatten.any fun x => decide (x.no ≤ q.no) && (
    let r := slippedReach s x
    let rd := if x.i.slot = some .sc then r.rd.filter fun a => !isPoolHome a else r.rd
    (q.ts.any fun t => meets r.wr (regionHomes s t) || (q.wids.contains t.d.id && meets rd (regionHomes s t)))
    || isAtomic x.i
    || match x.i with | .afac _ m _ _ _ => mxDst q.i == some m | _ => false)

/-- Run the command at the head of a queue or channel. One that fails with cause 0x71 leaves each destination byte prior or new
(log 6); one that fails with 0x70, 0x77 or 0x50 leaves them as they were, which R165 allows (DESIGN CHOICE, log 6). A residue
mismatch that it finds is delivered at the next bundle boundary (R379). -/
def runCmd (name : String) (q : Option Cmd) (f : Cmd → State → EngRes State) (s : State) : Out :=
  match q, s.c.failing with
  | some q, none =>
    if laneHolds s q || writesBehind s q then .refused (.notEnabled name) else
    (match f q s with
    | .ok s' => .next s'
    | .error .wait => .refused (.notEnabled name)
    | .error (.residue cells) =>
      let s := applyFree cells (popCmd q s)
      let at_ := (Config.freeWord s.c.fresh).toNat
      .next (noteMismatch q.slot 0 (at_ / 128) at_ (s.onC fun c => { c with fresh := c.fresh + 1 }))
    | .error (.fail c n d cells) =>
      let cells := if cells.isEmpty && c == 0x71 then cleanCells f q s else cells
      .next ((applyFree cells s).onC fun x => { x with failing := some ⟨q, c, n, d⟩ }))
  | _, _ => .refused (.notEnabled name)

/-- A register result of an engine lands at the next bundle boundary (R152). -/
def landCell (q : Cmd) (v : Word) (s : State) : State :=
  if q.cell = 0 then s
  else landLate ⟨cellDst q.cell, v.setWidth 256, s.c.now, q.slot, q.addr, true⟩ s

/-- Flags of an engine operation, with the address of its bundle (R375); those of cp enter in issue order (R376). Its caller
takes the command out of the queue afterwards. -/
def engFlags (q : Cmd) (fl : Flags) (s : State) : State :=
  if q.slot = 5 then (if fl = 0 then s else s.onC fun c => { c with cpFlags := insertFlags (q.no, q.addr, fl) c.cpFlags })
  else orFlags q.slot q.addr fl s

end Sys2Proof.Machine
end

