-- ==== Sys2Proof/Machine/Recompress.lean ====
section
/-! DEFINITION. The exact dot product and recompression of factor pairs (R153, R156 to R159). A value none stands for an intermediate that became infinite or NaN. -/

namespace Sys2Proof.Machine

/-- The value of an FA element with unbounded I over classified products (R153). -/
def xsum (l : List (Option Num)) : Num :=
  let has (y : Num) : Bool := l.any fun x => x == some y
  if has .nan || (has (.inf false) && has (.inf true)) then .nan
  else if has (.inf false) then .inf false
  else if has (.inf true) then .inf true
  else match l.foldl (fun e x => match x with | some p => Num.add e p | none => e) Num.zero with
    | .fin n m e => if m = 0 then Num.zero else .fin n m e
    | y => y

/-- The products of two rows of values. -/
def dotTerms (x y : List Num) : List (Option Num) := (x.zip y).map fun p => prod4 p.1 p.2 Num.one Num.one

/-- One rounding to FP32, kept only while finite (R158, R159). -/
def fin32 (x : Ex) : Option Num :=
  match decodeNum 0 [] (rndEx 0 [] 0 x).1 with
  | .fin n m e => some (.fin n m e)
  | _ => none

/-- xdot in FP32. -/
def xd (x y : List Num) : Option Num := fin32 (xsum (dotTerms x y)).ex

def mulF (x y : Num) : Option Num := fin32 (Num.mul x y).ex
def addF (x y : Num) : Option Num := fin32 (Num.add x y).ex
def divF (x y : Num) : Option Num := fin32 (divScale x y).1

def sqrtF : Num → Option Num
  | .fin _ m e => if m = 0 then some Num.zero else fin32 (sqrtEx m e)
  | _ => none

def rsqF : Num → Option Num
  | .fin _ m e => fin32 (rsqrtEx m e)
  | _ => none

/-- The inner loop of mgs: a column against the earlier columns of Q. -/
def mgsCol (w : List Num) : List (List Num) → Option (List Num × List Num)
  | [] => some (w, [])
  | q :: qs => do
    let r ← xd q w
    let w' ← (w.zip q).mapM fun p => addF p.1 (Num.mul r p.2).neg
    let (w'', rs) ← mgsCol w' qs
    some (w'', r :: rs)

/-- A column over a norm, +0 where the norm is zero. -/
def normed (w : List Num) (r : Num) : Option (List Num) :=
  w.mapM fun x => if r.isZero then some Num.zero else divF x r

/-- mgs of R158, on columns: those of Q and of Rt, the latter without their zeros below the diagonal. -/
def mgs : List (List Num) → List (List Num) → Option (List (List Num) × List (List Num))
  | [], q => some (q, [])
  | w :: ws, q => do
    let (w', rs) ← mgsCol w q
    let r ← (xd w' w').bind sqrtF
    let col ← normed w' r
    let (q', cols) ← mgs ws (q ++ [col])
    some (q', (rs ++ [r]) :: cols)

/-- Row i of a matrix given by columns; a short column ends in zeros. -/
def rowOf (cols : List (List Num)) (i : Nat) : List Num := cols.map fun col => (col[i]?).getD Num.zero

def colOf (m : List (List Num)) (j : Nat) : List Num := (m[j]?).getD []

/-- Rotate two columns: each entry is one rounding of an exact expression. -/
def rotate (c d : Num) (x y : List Num) : Option (List Num × List Num) := do
  let a ← (x.zip y).mapM fun p => addF (Num.mul c p.1) (Num.mul d p.2).neg
  let b ← (x.zip y).mapM fun p => addF (Num.mul d p.1) (Num.mul c p.2)
  some (a, b)

/-- One pair of a sweep of jacobi, on K and W. -/
def jacobiPair (i j : Nat) (k w : List (List Num)) : Option (List (List Num) × List (List Num)) := do
  let g ← xd (colOf k i) (colOf k j)
  if g.isZero then some (k, w)
  else
    let a ← xd (colOf k i) (colOf k i)
    let b ← xd (colOf k j) (colOf k j)
    let n ← addF b a.neg
    let z ← divF n (← mulF (.ofInt 2) g)
    let q ← mulF z z
    let r ← (addF Num.one q).bind sqrtF
    let den ← addF z.abs r
    let t ← divF (if z.sign && !z.isZero then .ofInt (-1) else Num.one) den
    let tt ← mulF t t
    let c ← (addF Num.one tt).bind rsqF
    let d ← mulF c t
    let (ki, kj) ← rotate c d (colOf k i) (colOf k j)
    let (wi, wj) ← rotate c d (colOf w i) (colOf w j)
    some ((k.set i ki).set j kj, (w.set i wi).set j wj)

/-- The pairs of one sweep in order. -/
def sweepPairs (n : Nat) : List (Nat × Nat) :=
  (List.range n).flatMap fun i => ((List.range n).filter fun j => decide (i < j)).map fun j => (i, j)

def jacobiRun : List (Nat × Nat) → List (List Num) → List (List Num) → Option (List (List Num) × List (List Num))
  | [], k, w => some (k, w)
  | p :: ps, k, w => do
    let (k', w') ← jacobiPair p.1 p.2 k w
    jacobiRun ps k' w'

/-- jacobi of R158: L, sig and W, by columns. -/
def jacobi (k : List (List Num)) (n : Nat) : Option (List (List Num) × List Num × List (List Num)) := do
  let ident := (List.range n).map fun j => (List.range n).map fun i => if i = j then Num.one else Num.zero
  let (k', w) ← jacobiRun (List.replicate 6 (sweepPairs n)).flatten k ident
  let sig ← k'.mapM fun c => (xd c c).bind sqrtF
  let l ← (k'.zip sig).mapM fun p => normed p.1 p.2
  some (l, sig, w)

/-- Insert an index before the first one of smaller sig. -/
def insertSig (sig : List Num) (j : Nat) : List Nat → List Nat
  | [] => [j]
  | i :: l =>
    if Num.cmp ((sig[i]?).getD Num.zero) ((sig[j]?).getD Num.zero) = .lt then j :: i :: l else i :: insertSig sig j l

/-- pi: indices by sig descending, ties by index. -/
def sigOrder (sig : List Num) : List Nat := (List.range sig.length).foldl (fun l j => insertSig sig j l) []

/-- tail of keep, from q = 0 on, over sig in the order of pi. -/
def tails : List Num → Option (List Num)
  | [] => some [Num.zero]
  | x :: xs => do
    let t ← tails xs
    let q ← mulF x x
    let h ← addF ((t.head?).getD Num.zero) q
    some (h :: t)

/-- keep of R158. -/
def keepRank (tol : Num) (sorted : List Num) : Option Nat := do
  let t ← tails sorted
  let tt ← mulF tol tol
  let lim ← mulF tt ((t.head?).getD Num.zero)
  some ((t.findIdx? fun x => Num.cmp x lim != .gt).getD sorted.length)

/-- A BF16 code of a finite value, kept only while finite. -/
def fin16 (x : Num) : Option (BitVec 16) :=
  let c := (rndNum 1 [] 0 x).1
  match decodeNum 1 [] c with
  | .fin _ _ _ => some (BitVec.ofNat 16 c)
  | _ => none

def code32 (x : Num) : BitVec 32 := BitVec.ofNat 32 (rndNum 0 [] 0 x).1

/-- Columns of BF16 or FP32 codes as values. -/
def nums16 (l : List (BitVec 16)) : List Num := l.map fun c => decodeNum 1 [] c.toNat
def nums32 (l : List (BitVec 32)) : List Num := l.map fun c => decodeNum 0 [] c.toNat

/-- recompress of R158; C is given by columns. The result: s', U' and V'. -/
def recompress (tol : Num) (u c v : List (List Num)) :
    Option (List (BitVec 32) × List (List (BitVec 16)) × List (List (BitVec 16))) := do
  let ka := u.length
  let kb := v.length
  let (qu, ru) ← mgs u []
  let (qv, rv) ← mgs v []
  let tr ← (List.range ka).mapM fun i => c.mapM fun col => xd (rowOf ru i) col
  let k ← (List.range kb).mapM fun j => tr.mapM fun row => xd row (rowOf rv j)
  let (l, sig, w) ← jacobi k kb
  let pi := sigOrder sig
  let kept ← keepRank tol (pi.map fun j => (sig[j]?).getD Num.zero)
  let sel := pi.take (min kept (min ka kb))
  let us ← sel.mapM fun j => (List.range 128).mapM fun r => (xd (rowOf qu r) (colOf l j)).bind fin16
  let vs ← sel.mapM fun j => (List.range 128).mapM fun r => (xd (rowOf qv r) (colOf w j)).bind fin16
  some (sel.map (fun j => code32 ((sig[j]?).getD Num.zero)), us, vs)

/-- recompress_dense of R158, on the columns of the tile. -/
def recompressDense (tol : Num) (a : List (List Num)) (cap : Nat) :
    Option (List (BitVec 32) × List (List (BitVec 16)) × List (List (BitVec 16))) := do
  let (l, sig, w) ← jacobi a 128
  let pi := sigOrder sig
  let kept ← keepRank tol (pi.map fun j => (sig[j]?).getD Num.zero)
  let sel := pi.take (min kept cap)
  let us ← sel.mapM fun j => (colOf l j).mapM fin16
  let vs ← sel.mapM fun j => (colOf w j).mapM fin16
  some (sel.map (fun j => code32 ((sig[j]?).getD Num.zero)), us, vs)

end Sys2Proof.Machine
end

