-- ==== Sys2Proof/Machine/Scalar.lean ====
section
/-! DEFINITION. The sc slot's arithmetic: integers, immediates, compares, handles, staging, the generator, scalar FP32 and conversion (R102 to R105, R108 to R111, R118). -/

namespace Sys2Proof.Machine

/-- An integer result with its latency. -/
def scalarOp (g : Guard) (i : Instr) (d : BitVec 6) (lat : Nat) (f : State → Word) (s : State) : Out :=
  slotOut .sc g i s fun s => .ok (writeS .sc d (f s) lat s)

/-- The results of Table 6-6. -/
def mulhWord (a b : Word) : Word := ((a.signExtend 128 * b.signExtend 128) >>> 64).setWidth 64
def mulhzWord (a b : Word) : Word := ((a.setWidth 128 * b.setWidth 128) >>> 64).setWidth 64

/-- The signed quotient toward zero; all ones for a zero divisor (Table 6-6). -/
def divWord (a b : Word) : Word := if b = 0 then BitVec.allOnes 64 else BitVec.sdiv a b
def divzWord (a b : Word) : Word := if b = 0 then BitVec.allOnes 64 else a / b

/-- The remainder of that quotient; sa for a zero divisor (Table 6-6). -/
def remWord (a b : Word) : Word := if b = 0 then a else BitVec.srem a b
def remzWord (a b : Word) : Word := if b = 0 then a else a % b

def amount (b : Word) : Nat := b.toNat % 64

def clzWord (a : Word) : Word := if a = 0 then 64 else BitVec.ofNat 64 (63 - Nat.log2 a.toNat)

/-- The lowest set bit from bit i up, with n bits left to look at. -/
def lowestSet (a : Word) : Nat → Nat → Nat
  | 0, i => i
  | n + 1, i => if a.getLsbD i then i else lowestSet a n (i + 1)

def ctzWord (a : Word) : Word := BitVec.ofNat 64 (lowestSet a 64 0)

/-- The number of set bits below bit n. -/
def popBelow (a : Nat) : Nat → Nat
  | 0 => 0
  | n + 1 => popBelow a n + a / 2 ^ n % 2

def popcWord (a : Word) : Word := BitVec.ofNat 64 (popBelow a.toNat 64)

def execAdd (g : Guard) (d a b : BitVec 6) (s : State) : Out :=
  scalarOp g (.add g d a b) d 1 (fun s => s.rdS a + s.rdS b) s

def execSub (g : Guard) (d a b : BitVec 6) (s : State) : Out :=
  scalarOp g (.sub g d a b) d 1 (fun s => s.rdS a - s.rdS b) s

def execMul (g : Guard) (d a b : BitVec 6) (s : State) : Out :=
  scalarOp g (.mul g d a b) d 3 (fun s => s.rdS a * s.rdS b) s

def execMulh (g : Guard) (d a b : BitVec 6) (s : State) : Out :=
  scalarOp g (.mulh g d a b) d 3 (fun s => mulhWord (s.rdS a) (s.rdS b)) s

def execMulhz (g : Guard) (d a b : BitVec 6) (s : State) : Out :=
  scalarOp g (.mulhz g d a b) d 3 (fun s => mulhzWord (s.rdS a) (s.rdS b)) s

def execDiv (g : Guard) (d a b : BitVec 6) (s : State) : Out :=
  scalarOp g (.div g d a b) d 12 (fun s => divWord (s.rdS a) (s.rdS b)) s

def execDivz (g : Guard) (d a b : BitVec 6) (s : State) : Out :=
  scalarOp g (.divz g d a b) d 12 (fun s => divzWord (s.rdS a) (s.rdS b)) s

def execRem (g : Guard) (d a b : BitVec 6) (s : State) : Out :=
  scalarOp g (.rem g d a b) d 12 (fun s => remWord (s.rdS a) (s.rdS b)) s

def execRemz (g : Guard) (d a b : BitVec 6) (s : State) : Out :=
  scalarOp g (.remz g d a b) d 12 (fun s => remzWord (s.rdS a) (s.rdS b)) s

def execAnd (g : Guard) (d a b : BitVec 6) (s : State) : Out :=
  scalarOp g (.and g d a b) d 1 (fun s => s.rdS a &&& s.rdS b) s

def execOr (g : Guard) (d a b : BitVec 6) (s : State) : Out :=
  scalarOp g (.or g d a b) d 1 (fun s => s.rdS a ||| s.rdS b) s

def execXor (g : Guard) (d a b : BitVec 6) (s : State) : Out :=
  scalarOp g (.xor g d a b) d 1 (fun s => s.rdS a ^^^ s.rdS b) s

def execAndn (g : Guard) (d a b : BitVec 6) (s : State) : Out :=
  scalarOp g (.andn g d a b) d 1 (fun s => s.rdS a &&& ~~~ s.rdS b) s

def execShl (g : Guard) (d a b : BitVec 6) (s : State) : Out :=
  scalarOp g (.shl g d a b) d 1 (fun s => s.rdS a <<< amount (s.rdS b)) s

def execShr (g : Guard) (d a b : BitVec 6) (s : State) : Out :=
  scalarOp g (.shr g d a b) d 1 (fun s => s.rdS a >>> amount (s.rdS b)) s

def execSar (g : Guard) (d a b : BitVec 6) (s : State) : Out :=
  scalarOp g (.sar g d a b) d 1 (fun s => (s.rdS a).sshiftRight (amount (s.rdS b))) s

def execRol (g : Guard) (d a b : BitVec 6) (s : State) : Out :=
  scalarOp g (.rol g d a b) d 1 (fun s => (s.rdS a).rotateLeft (amount (s.rdS b))) s

def execMin (g : Guard) (d a b : BitVec 6) (s : State) : Out :=
  scalarOp g (.min g d a b) d 1 (fun s => if (s.rdS a).slt (s.rdS b) then s.rdS a else s.rdS b) s

def execMax (g : Guard) (d a b : BitVec 6) (s : State) : Out :=
  scalarOp g (.max g d a b) d 1 (fun s => if (s.rdS a).slt (s.rdS b) then s.rdS b else s.rdS a) s

def execMinz (g : Guard) (d a b : BitVec 6) (s : State) : Out :=
  scalarOp g (.minz g d a b) d 1 (fun s => if (s.rdS a).ult (s.rdS b) then s.rdS a else s.rdS b) s

def execMaxz (g : Guard) (d a b : BitVec 6) (s : State) : Out :=
  scalarOp g (.maxz g d a b) d 1 (fun s => if (s.rdS a).ult (s.rdS b) then s.rdS b else s.rdS a) s

def execClz (g : Guard) (d a : BitVec 6) (s : State) : Out :=
  scalarOp g (.clz g d a) d 1 (fun s => clzWord (s.rdS a)) s

def execCtz (g : Guard) (d a : BitVec 6) (s : State) : Out :=
  scalarOp g (.ctz g d a) d 1 (fun s => ctzWord (s.rdS a)) s

def execPopc (g : Guard) (d a : BitVec 6) (s : State) : Out :=
  scalarOp g (.popc g d a) d 1 (fun s => popcWord (s.rdS a)) s

/-- sel reaches s0 to s31 (R64). -/
def execSel (g : Guard) (p : BitVec 4) (d a b : BitVec 5) (s : State) : Out :=
  scalarOp g (.sel g p d a b) (d.setWidth 6) 1
    (fun s => if s.rdP p then s.rdS (a.setWidth 6) else s.rdS (b.setWidth 6)) s

/-- The immediate forms (R103). -/
def execAddi (g : Guard) (d a : BitVec 6) (im : BitVec 8) (s : State) : Out :=
  scalarOp g (.addi g d a im) d 1 (fun s => s.rdS a + im.signExtend 64) s

def execAndi (g : Guard) (d a : BitVec 6) (im : BitVec 8) (s : State) : Out :=
  scalarOp g (.andi g d a im) d 1 (fun s => s.rdS a &&& im.signExtend 64) s

def execOri (g : Guard) (d a : BitVec 6) (im : BitVec 8) (s : State) : Out :=
  scalarOp g (.ori g d a im) d 1 (fun s => s.rdS a ||| im.signExtend 64) s

def execXori (g : Guard) (d a : BitVec 6) (im : BitVec 8) (s : State) : Out :=
  scalarOp g (.xori g d a im) d 1 (fun s => s.rdS a ^^^ im.signExtend 64) s

def execShli (g : Guard) (d a : BitVec 6) (im : BitVec 6) (s : State) : Out :=
  scalarOp g (.shli g d a im) d 1 (fun s => s.rdS a <<< im.toNat) s

def execShri (g : Guard) (d a : BitVec 6) (im : BitVec 6) (s : State) : Out :=
  scalarOp g (.shri g d a im) d 1 (fun s => s.rdS a >>> im.toNat) s

def execSari (g : Guard) (d a : BitVec 6) (im : BitVec 6) (s : State) : Out :=
  scalarOp g (.sari g d a im) d 1 (fun s => (s.rdS a).sshiftRight im.toNat) s

/-- li and lih (R104). -/
def execLi (g : Guard) (d : BitVec 6) (im : BitVec 14) (s : State) : Out :=
  scalarOp g (.li g d im) d 1 (fun _ => im.signExtend 64) s

def execLih (g : Guard) (d : BitVec 6) (im : BitVec 14) (s : State) : Out :=
  scalarOp g (.lih g d im) d 1 (fun s => (s.rdS d <<< 14) ||| im.setWidth 64) s

/-- The cmp column of Table 5-4 on words; cmpi's column is its first eight codes. -/
def condWord (cc : Nat) (a b : Word) : Bool :=
  match cc with
  | 0 => a == b
  | 1 => a != b
  | 2 => a.slt b
  | 3 => b.sle a
  | 4 => a.ult b
  | 5 => b.ule a
  | 6 => b.slt a
  | 7 => a.sle b
  | 8 => b.ult a
  | _ => a.ule b

/-- An operand of a compare: its value, or the cell of the ranked atomic it waits for (R95). -/
def cmpOperand (s : State) (r : BitVec 6) : Sum Word (BitVec 7) :=
  match rankedOn s.c (.s r) with
  | some x => .inr x.cell
  | none => .inl (s.rdS r)

/-- A compare (R105): at once, or pending where an operand awaits a ranked atomic (R95). -/
def compareOp (p : BitVec 4) (cc : Nat) (a b : Sum Word (BitVec 7)) (s : State) : State :=
  match a, b with
  | .inl x, .inl y => writeP .sc p (condWord cc x y) 1 s
  | _, _ => if p = 0 then s else s.onC fun c => { c with cmps := c.cmps ++ [⟨if c.emu.isSome ∧ 12 ≤ p.toNat then p.toNat + 4 else p.toNat, cc, a, b, c.bundles⟩] }

def execCmp (g : Guard) (p c : BitVec 4) (a b : BitVec 6) (s : State) : Out :=
  slotOut .sc g (.cmp g p c a b) s fun s => .ok (compareOp p c.toNat (cmpOperand s a) (cmpOperand s b) s)

def execCmpi (g : Guard) (p : BitVec 4) (c : BitVec 3) (a : BitVec 6) (im : BitVec 7) (s : State) : Out :=
  slotOut .sc g (.cmpi g p c a im) s fun s => .ok (compareOp p c.toNat (cmpOperand s a) (.inl (im.signExtend 64)) s)

/-- The handle that hmk builds from a descriptor entry (R108). -/
def handleOf (id : Nat) (d : Desc) : BitVec 256 :=
  BitVec.ofNat 256 (d.tag * 2 ^ 224 + d.nd % 16 * 2 ^ 20 + id
    + ((d.dims.zipIdx.map fun x => if x.2 < d.nd then min x.1 65535 * 2 ^ (96 + 16 * x.2) else 0).foldl (· + ·) 0))

/-- hmk builds a handle of any entry; what is malformed faults where the handle is used (R108, R195). -/
def execHmk (g : Guard) (h : BitVec 5) (rs : BitVec 6) (s : State) : Out :=
  slotOut .sc g (.hmk g h rs) s fun s => do
    let id := (s.rdS rs).toNat % 4096
    let d ← rawDesc s id
    .ok (writeH .sc h (handleOf id d) 1 s)

/-- Lowest bit and width of a handle field (R66, Table 10-3). -/
def handleField (f : BitVec 4) : Nat × Nat :=
  match f.toNat with
  | 0 => (224, 32) | 1 => (192, 32) | 2 => (160, 32)
  | 3 => (96, 16) | 4 => (112, 16) | 5 => (128, 16) | 6 => (144, 16)
  | 7 => (32, 16) | 8 => (48, 16) | 9 => (64, 16) | 10 => (80, 16)
  | 11 => (20, 4) | 12 => (16, 4) | 13 => (14, 2) | 14 => (12, 2) | _ => (0, 12)

def execHset (g : Guard) (h : BitVec 5) (rs : BitVec 6) (f : BitVec 4) (s : State) : Out :=
  slotOut .sc g (.hset g h rs f) s fun s =>
    let (lo, w) := handleField f
    let mask : BitVec 256 := BitVec.ofNat 256 ((2 ^ w - 1) * 2 ^ lo)
    .ok (writeH .sc h ((s.rdH h &&& ~~~mask) ||| (((s.rdS rs).setWidth 256 <<< lo) &&& mask)) 1 s)

def execHget (g : Guard) (h : BitVec 5) (rs : BitVec 6) (f : BitVec 4) (s : State) : Out :=
  slotOut .sc g (.hget g h rs f) s fun s =>
    let (lo, w) := handleField f
    .ok (writeS .sc rs (BitVec.ofNat 64 ((s.rdH h).toNat / 2 ^ lo % 2 ^ w)) 1 s)

/-- stg (R109). -/
def execStg (g : Guard) (e : BitVec 2) (im : BitVec 3) (a : BitVec 6) (s : State) : Out :=
  slotOut .sc g (.stg g e im a) s fun s => .ok (writeStg .sc (stgIdx e im) (s.rdS a) 1 s)

/-- The round constants of Table 6-7. -/
def rngRounds : List (Nat × Nat) :=
  [(0x6A3D27C1, 13), (0x1B87F053, 17), (0xC4E29A0D, 26), (0x53F16B28, 7), (0xE90C4D77, 19),
   (0x2D58B3E6, 11), (0x7FA41C95, 29), (0xB613E842, 5), (0x0C9B5FD3, 23), (0x8E26A71F, 9)]

/-- rng_f of R118. -/
def rngF (key ctr : Word) : Word :=
  let k0 : BitVec 32 := key.setWidth 32
  let k1 : BitVec 32 := (key >>> 32).setWidth 32
  let r := rngRounds.zipIdx.foldl (fun (ab : BitVec 32 × BitVec 32) x =>
    let a := ab.1 + ab.2 + (if x.2 % 2 = 0 then k0 else k1) + BitVec.ofNat 32 x.1.1
    (a, ab.2.rotateLeft x.1.2 ^^^ a)) ((ctr >>> 32).setWidth 32, ctr.setWidth 32)
  (r.1.setWidth 64 <<< 32) ||| r.2.setWidth 64

def execRng (g : Guard) (d a b : BitVec 6) (s : State) : Out :=
  scalarOp g (.rng g d a b) d 2 (fun s => rngF (s.rdS a) (s.rdS b)) s

/-- The FP32 number in bits [31:0] of a register. -/
def fp32 (w : Word) : Num := decodeNum 0 [] (w.toNat % 2 ^ 32)

/-- An FP32 result: one rounding, flags into srec1 (R57, R110). -/
def fpResult (d : BitVec 6) (operandNan : Bool) (x : Num) (s : State) : State :=
  let (c, fl) := rndNum 0 [] 0 x
  writeS .sc d (BitVec.ofNat 64 c) 4 (raiseFlags .sc (fl ||| nvOf operandNan x) s)

def execFaddS (g : Guard) (d a b : BitVec 6) (s : State) : Out :=
  slotOut .sc g (.faddS g d a b) s fun s =>
    let x := fp32 (s.rdS a)
    let y := fp32 (s.rdS b)
    .ok (fpResult d (x.isNan || y.isNan) (Num.add x y) s)

def execFmulS (g : Guard) (d a b : BitVec 6) (s : State) : Out :=
  slotOut .sc g (.fmulS g d a b) s fun s =>
    let x := fp32 (s.rdS a)
    let y := fp32 (s.rdS b)
    .ok (fpResult d (x.isNan || y.isNan) (Num.mul x y) s)

def execFfmaS (g : Guard) (d a b : BitVec 6) (s : State) : Out :=
  slotOut .sc g (.ffmaS g d a b) s fun s =>
    let x := fp32 (s.rdS a)
    let y := fp32 (s.rdS b)
    let z := fp32 (s.rdS d)
    .ok (fpResult d (x.isNan || y.isNan || z.isNan) (Num.add (Num.mul x y) z) s)

/-- The fcmp column of Table 5-4 on numbers (R110). -/
def condNum (cc : Nat) (x y : Num) : Bool :=
  let un := x.isNan || y.isNan
  let o := Num.cmp x y
  match cc with
  | 0 => !un && o == .eq
  | 1 => un || o != .eq
  | 2 => !un && o == .lt
  | 3 => !un && o != .gt
  | 4 => !un && o == .gt
  | 5 => !un && o != .lt
  | 6 => un
  | _ => !un

def execFcmp (g : Guard) (p c : BitVec 4) (a b : BitVec 6) (s : State) : Out :=
  slotOut .sc g (.fcmp g p c a b) s fun s =>
    .ok (writeP .sc p (condNum c.toNat (fp32 (s.rdS a)) (fp32 (s.rdS b))) 2 s)

/-- cvt (R111): codes are zero-extended, integer formats written as the integer value. -/
def execCvt (g : Guard) (d a : BitVec 6) (f : BitVec 5) (m : BitVec 2) (x : BitVec 1) (s : State) : Out :=
  slotOut .sc g (.cvt g d a f m x) s fun s =>
    let src := if x = 1 then Num.ofInt (s.rdS a).toInt else fp32 (s.rdS a)
    let (c, fl) := rndNum f.toNat [] m.toNat src
    let v : Word :=
      if f.toNat ≤ 6 ∨ 22 ≤ f.toNat then BitVec.ofNat 64 c
      else match decodeNum f.toNat [] c with
        | .fin neg k e => let n : Int := (k * 2 ^ e.toNat : Nat); BitVec.ofInt 64 (if neg then -n else n)
        | _ => 0
    .ok (writeS .sc d v 3 (raiseFlags .sc fl s))

end Sys2Proof.Machine
end

