-- ==== Sys2Proof/Machine/Matrix.lean ====
section
/-! DEFINITION. The mx slot: checks at issue and execution of its commands (R144 to R162, R346). -/

namespace Sys2Proof.Machine

/-- Occupancy in granules (R145). -/
def occOf (dense : Bool) (k : Nat) : Nat := if dense then 8 else (k + 7) / 8

/-- Form, rank and poison mark of a register as the task's earlier mx commands will leave it (R149, R346). -/
def predReg (c : Core) (m : BitVec 4) : Bool × Nat × Bool :=
  let x := c.m[m.toNat]'m.isLt
  c.mxq.foldl (fun r q => match q.mres with
    | some (d, dense, k) => if d = m.toNat then (dense, k, false) else r
    | none => r) (x.dense, x.rank, x.poison)

/-- The free count F of R146, on predicted occupancies. -/
def freeGranules (s : State) : Nat :=
  16 * partMrg s.c.info.part
    - ((List.range 16).map fun m => let r := predReg s.c (BitVec.ofNat 4 m); occOf r.1 r.2.1).foldl (· + ·) 0

/-- A rank-deciding command (R148). -/
def decides (q : Cmd) : Bool :=
  match q.i with
  | .mmul _ _ _ _ => true
  | .mrcmp _ _ _ => true
  | .mfac _ _ _ _ => true
  | _ => false

/-- A checked command waits at issue for earlier rank-deciding ones (R148). -/
def rankKnown (s : State) : Res Unit := if s.c.mxq.any decides then .error .stall else .ok ()

/-- Rank as tval of Table 8-2 shows it. -/
def rankField (r : Bool × Nat × Bool) : Nat := if r.1 then 255 else r.2.1

/-- tval of causes 0x60 and 0x61 (Table 8-2). -/
def rankTval (avail need md kres ka kb : Nat) : Word :=
  BitVec.ofNat 64 (avail * 2 ^ 44 + need * 2 ^ 32 + md * 2 ^ 24 + kres * 2 ^ 16 + ka * 2 ^ 8 + kb)

/-- Checks 2 to 5 of R149 for a command that writes md from sources, and its queueing. want names the form that the sources
must have, result the form and rank of the result from the predicted sources. KA and KB of tval are 0 for a source that the
command does not have: Table 8-2 says so of KB, and the model takes KA alike for mld and mzr (log 88). -/
def mxChecked (i : Instr) (md : BitVec 4) (srcs : List (BitVec 4)) (want : Option Bool)
    (result : List (Bool × Nat × Bool) → Bool × Nat) (fill : Cmd → Cmd) (s : State) : Res State := do
  rankKnown s
  let rs := srcs.map (predReg s.c)
  if rs.any fun r => r.2.2 then .error (.fault 0x41 none)
  else if want = some false ∧ rs.any (fun r => r.1) then .error (opFault 9)
  else if want = some true ∧ rs.any (fun r => !r.1) then .error (opFault 10)
  else
    let (dense, k) := result rs
    let need := occOf dense k
    let old := predReg s.c md
    let avail := freeGranules s + occOf old.1 old.2.1
    let f (j : Nat) : Nat := ((rs[j]?).map rankField).getD 0
    let tv := rankTval avail need md.toNat (if dense then 255 else k) (f 0) (f 1)
    if !dense && decide (64 < k) then .error (.fault 0x60 (some tv))
    else if avail < need then .error (.fault 0x61 (some tv))
    else enqueue .mx (fill { newCmd .mx i s with mres := some (md.toNat, dense, k) }) s

/-- TOL as a command captures it (R346). -/
def captureTol (s : State) (q : Cmd) : Cmd := { q with x := s.src.mtol }

def execMzr (g : Guard) (d : BitVec 4) (s : State) : Out :=
  slotOut .mx g (.mzr g d) s (mxChecked (.mzr g d) d [] none (fun _ => (false, 0)) id)

/-- The form and rank of the first source. -/
def sameAs (rs : List (Bool × Nat × Bool)) : Bool × Nat :=
  match rs with
  | r :: _ => (r.1, r.2.1)
  | [] => (false, 0)

def execMcpy (g : Guard) (d a : BitVec 4) (s : State) : Out :=
  slotOut .mx g (.mcpy g d a) s (mxChecked (.mcpy g d a) d [a] none sameAs id)

def execMtrn (g : Guard) (d a : BitVec 4) (s : State) : Out :=
  slotOut .mx g (.mtrn g d a) s (mxChecked (.mtrn g d a) d [a] none sameAs id)

/-- mscl (R154): x is read at bundle entry. -/
def execMscl (g : Guard) (m : BitVec 4) (rs : BitVec 6) (s : State) : Out :=
  slotOut .mx g (.mscl g m rs) s fun s =>
    mxChecked (.mscl g m rs) m [m] none sameAs (fun q => { q with x := s.rdS rs }) s

def execMdns (g : Guard) (d a : BitVec 4) (s : State) : Out :=
  slotOut .mx g (.mdns g d a) s (mxChecked (.mdns g d a) d [a] none (fun _ => (true, 0)) id)

/-- madd (R155). -/
def maddResult (rs : List (Bool × Nat × Bool)) : Bool × Nat :=
  if rs.any (fun r => r.1) then (true, 0) else (false, (rs.map fun r => r.2.1).foldl (· + ·) 0)

def execMadd (g : Guard) (d a b : BitVec 4) (s : State) : Out :=
  slotOut .mx g (.madd g d a b) s (mxChecked (.madd g d a b) d [a, b] none maddResult id)

/-- mmul (R156): the bound min(ka, kb), or a dense result. -/
def mmulResult (rs : List (Bool × Nat × Bool)) : Bool × Nat :=
  if rs.any (fun r => r.1) then (true, 0) else (false, (rs.map fun r => r.2.1).foldl min 64)

def execMmul (g : Guard) (d a b : BitVec 4) (s : State) : Out :=
  slotOut .mx g (.mmul g d a b) s fun s =>
    mxChecked (.mmul g d a b) d [a, b] none mmulResult (captureTol s) s

def execMrcmp (g : Guard) (d a : BitVec 4) (s : State) : Out :=
  slotOut .mx g (.mrcmp g d a) s fun s =>
    mxChecked (.mrcmp g d a) d [a] (some false) (fun rs => (false, (sameAs rs).2)) (captureTol s) s

def execMfac (g : Guard) (d a : BitVec 4) (c : BitVec 7) (s : State) : Out :=
  slotOut .mx g (.mfac g d a c) s fun s =>
    mxChecked (.mfac g d a c) d [a] (some true) (fun _ => (false, c.toNat)) (captureTol s) s

/-- mrnk and mocc: no check of the source; a scalar destination of variable latency (R152). -/
def mxScalar (i : Instr) (rs : BitVec 6) (s : State) : Res State :=
  enqueue .mx { newCmd .mx i s with cell := destCell s rs } (undoS rs s)

def execMrnk (g : Guard) (m : BitVec 4) (rs : BitVec 6) (s : State) : Out :=
  slotOut .mx g (.mrnk g m rs) s (mxScalar (.mrnk g m rs) rs)

def execMocc (g : Guard) (m : BitVec 4) (rs : BitVec 6) (s : State) : Out :=
  slotOut .mx g (.mocc g m rs) s (mxScalar (.mocc g m rs) rs)

/-- Bytes of an image (R160). -/
def imageSize (dense : Bool) (k : Nat) : Nat := if dense then 32832 else 320 + 512 * k

/-- Format, shape and alignment of an image handle (R160), behind the layout that its handle check refuses (R199). -/
def imageTens (k : Acc) (h : BitVec 5) (s : State) : Res Tens := do
  let t ← useTens s h none
  let va := (elemAt t.d (t.org.map Int.toNat)).1 + ((t.org.head?).getD 0).toNat % 4
  if !layoutOk t then .error (.fault 0x37 none)
  else if t.d.fmt ≠ 12 ∨ t.ext.length ≠ 1 ∨ t.d.layout ≠ 0 then .error (opFault 12)
  else if va % 64 ≠ 0 then .error (.fault 0x32 (some (tvalVa k 3 va)))
  else .ok t

/-- The one-dimensional indexes from a to b - 1. -/
def span (a b : Nat) : List (List Nat) := (List.range (b - a)).map fun i => [a + i]

/-- Is an image header malformed (Table 8-5, reason 11)? -/
def badHeader (bs : List Nat) : Bool :=
  let form := (bs[0]?).getD 0
  let rank := (bs[1]?).getD 0
  decide (1 < form) || decide (64 < rank) || (form == 1 && rank != 0) || (bs.drop 2).any (· != 0)

/-- Does an operation that waits in a lane, or an earlier queued mx command, write bytes of a header: what reads it at issue waits
(R134, R149, R152, Table 11-2, Table 11-4)? -/
def headerWaits (s : State) (hh : List Nat) : Bool :=
  (s.c.lanes.flatten.any fun x => isAtomic x.i || meets (slippedReach s x).wr hh)
    || s.c.mxq.any fun q => q.ts.any fun t => q.wids.contains t.d.id && meets (regionHomes s t) hh

/-- mld (R149, R160): the header is read at issue. -/
def execMld (g : Guard) (m : BitVec 4) (h : BitVec 5) (s : State) : Out :=
  slotOut .mx g (.mld g m h) s fun s => do
    rankKnown s
    let t ← imageTens .read h s
    let n := (t.ext.head?).getD 0
    if n < 64 then .error (.fault 0x36 none)
    else do
      let hh ← engReads s t false (span 0 64)
      engHold s hh
      if hh.any (emptyAt s) || headerWaits s hh then .error .stall
      else if hh.any (poisoned s) then .error (.fault 0x41 none)
      else do
        let hdr ← mapRead (codeAt s t) (span 0 64)
        let dense := (hdr[0]?).getD 0 == 1
        let k := (hdr[1]?).getD 0
        if badHeader hdr then .error (opFault 11)
        else if n < imageSize dense k then .error (opFault 12)
        else do
          let rest ← engReads s t false (span 64 (imageSize dense k))
          engHold s rest
          mxChecked (.mld g m h) m [] none (fun _ => (dense, k))
            (fun q => { q with ts := [t], image := some (dense, k), hd := s.rdH h }) s

/-- mst (R149, R160). -/
def execMst (g : Guard) (m : BitVec 4) (h : BitVec 5) (s : State) : Out :=
  slotOut .mx g (.mst g m h) s fun s => do
    rankKnown s
    let t ← imageTens .write h s
    let r := predReg s.c m
    let size := imageSize r.1 r.2.1
    if (t.ext.head?).getD 0 < size then .error (opFault 12)
    else do
      let hs ← engWrites s t (span 0 size)
      engHold s hs
      if r.2.2 then .error (.fault 0x41 none)
      else enqueue .mx { newCmd .mx (.mst g m h) s with
        ts := [t], image := some (r.1, r.2.1), hd := s.rdH h, cnt := tilesOf hs, wids := [t.d.id] } s

/-- mapl (R149, R161): an unchecked command that makes checks 1 to 3. -/
def execMapl (g : Guard) (d a : BitVec 5) (m : BitVec 4) (s : State) : Out :=
  slotOut .mx g (.mapl g d a m) s fun s => do
    let ta ← useTens s a (some false)
    let td ← useTens s d none
    if ta.ext.length ≠ 2 ∨ (ta.ext[1]?).getD 0 ≠ 128 ∨ td.ext ≠ ta.ext ∨ 2 < td.d.fmt then .error (opFault 12)
    else do
      rowsReach s .read false ta (wholeRows ta)
      rowsReach s .write false td (wholeRows td)
      let ws ← engWrites s td (allIdx td.ext)
      let rs ← engReads s ta false (allIdx ta.ext)
      engHold s (ws ++ rs)
      let r := predReg s.c m
      if r.2.2 then .error (.fault 0x41 none)
      else if r.1 then .error (opFault 9)
      else enqueue .mx { newCmd .mx (.mapl g d a m) s with
        ts := [td, ta], hd := s.rdH d, cnt := tilesOf ws, wids := [td.d.id] } s

/-- The value of an element of a register's tile: exact in factor form (R154 to R156). -/
def MReg.elem (x : MReg) (i j : Nat) : Num :=
  if x.dense then decodeNum 1 [] (((x.arr[i]?).bind fun r => r[j]?).getD 0).toNat
  else xsum ((x.s.zip (x.u.zip x.v)).map fun p =>
    prod4 (decodeNum 1 [] ((p.2.1[i]?).getD 0).toNat) (decodeNum 1 [] ((p.2.2[j]?).getD 0).toNat)
      (decodeNum 0 [] p.1.toNat) Num.one)

/-- A dense register from values, rounded to BF16, with the flags of the roundings. -/
def denseFrom (f : Nat → Nat → Num × Flags) : MReg × Flags :=
  let rows := (List.range 128).map fun i => (List.range 128).map fun j =>
    let (x, f1) := f i j
    let (c, f2) := rndNum 1 [] 0 x
    (BitVec.ofNat 16 c, f1 ||| f2)
  (⟨true, [], [], [], rows.map (·.map (·.1)), false⟩, rows.flatten.foldl (fun a r => a ||| r.2) 0)

/-- The NaN tile of R159. -/
def MReg.nanTile : MReg :=
  ⟨false, [0x7FC00000], [List.replicate 128 0x7FC0], [List.replicate 128 0x7FC0], [], false⟩

/-- The columns of a factor pair as values. -/
def MReg.uNums (x : MReg) : List (List Num) := x.u.map nums16
def MReg.vNums (x : MReg) : List (List Num) := x.v.map nums16
def MReg.sNums (x : MReg) : List Num := nums32 x.s

def isFinite : Num → Bool
  | .fin _ _ _ => true
  | _ => false

/-- Are all values of a register finite (R159)? -/
def MReg.finite (x : MReg) : Bool :=
  if x.dense then x.arr.all fun r => (nums16 r).all isFinite
  else x.sNums.all isFinite && x.uNums.all (·.all isFinite) && x.vNums.all (·.all isFinite)

/-- The result of a recompression (R159): the NaN tile with NV for a NaN or infinite input, with OV for such an intermediate. -/
def recompressed (inputsOk : Bool) (r : Option (List (BitVec 32) × List (List (BitVec 16)) × List (List (BitVec 16)))) :
    MReg × Flags :=
  if !inputsOk then (MReg.nanTile, flagNV)
  else match r with
    | some (s, u, v) => (⟨false, s, u, v, [], false⟩, 0)
    | none => (MReg.nanTile, flagOV)

/-- TOL as a number: -0 acts as +0 (R147). -/
def tolOf (w : Word) : Num :=
  match decodeNum 0 [] (w.toNat % 2 ^ 32) with
  | .fin _ m e => .fin false m e
  | x => x

/-- The core C of a product, by columns (R156). -/
def productCore (a b : MReg) : Option (List (List Num)) :=
  (b.sNums.zip b.uNums).mapM fun p => (a.sNums.zip a.vNums).mapM fun q => do
    let g ← xd q.2 p.2
    let t ← mulF q.1 g
    mulF t p.1

/-- mmul (R156). -/
def mmulOf (tol : Num) (a b : MReg) : MReg × Flags :=
  if a.dense || b.dense then
    denseFrom fun i j => (xsum ((List.range 128).map fun l => prod4 (a.elem i l) (b.elem l j) Num.one Num.one), 0)
  else if a.rank = 0 ∨ b.rank = 0 then (MReg.zero, 0)
  else recompressed (a.finite && b.finite) ((productCore a b).bind fun c => recompress tol a.uNums c b.vNums)

/-- madd (R155). -/
def maddOf (a b : MReg) : MReg × Flags :=
  if a.dense || b.dense then
    denseFrom fun i j =>
      let x := a.elem i j
      let y := b.elem i j
      (Num.add x y, nvOf (x.isNan || y.isNan) (Num.add x y))
  else (⟨false, a.s ++ b.s, a.u ++ b.u, a.v ++ b.v, [], false⟩, 0)

/-- mscl (R154). -/
def msclOf (x : Num) (a : MReg) : MReg × Flags :=
  if a.dense then denseFrom fun i j => let y := a.elem i j; (Num.mul y x, nvOf (x.isNan || y.isNan) (Num.mul y x))
  else
    let rs := a.sNums.map fun y =>
      let p := Num.mul y x
      let (c, fl) := rndNum 0 [] 0 p
      (BitVec.ofNat 32 c, fl ||| nvOf (x.isNan || y.isNan) p)
    ({ a with s := rs.map (·.1) }, rs.foldl (fun f r => f ||| r.2) 0)

/-- mtrn (R154). -/
def mtrnOf (a : MReg) : MReg :=
  if a.dense then { a with arr := (List.range 128).map fun i => a.arr.map fun r => (r[i]?).getD 0 }
  else { a with u := a.v, v := a.u }

/-- mrcmp and mfac (R157). -/
def mrcmpOf (tol : Num) (a : MReg) : MReg × Flags :=
  let k := a.rank
  let diag := (List.range k).map fun j => (List.range k).map fun i => if i = j then (a.sNums[j]?).getD Num.zero else Num.zero
  recompressed a.finite (recompress tol a.uNums diag a.vNums)

def mfacOf (tol : Num) (cap : Nat) (a : MReg) : MReg × Flags :=
  recompressed a.finite (recompressDense tol ((List.range 128).map fun j => (List.range 128).map fun i => a.elem i j) cap)

/-- The bytes of an image (Table 8-5). -/
def imageBytes (x : MReg) : List Nat :=
  let le16 (c : BitVec 16) : List Nat := [c.toNat % 256, c.toNat / 256]
  let le32 (c : BitVec 32) : List Nat := (natLe 4 c.toNat).map BitVec.toNat
  (if x.dense then [1, 0] else [0, x.rank]) ++ List.replicate 62 0 ++
    (if x.dense then x.arr.flatMap fun r => r.flatMap le16
     else (x.s.flatMap le32) ++ List.replicate (256 - 4 * x.rank) 0 ++ x.u.flatMap (·.flatMap le16) ++ x.v.flatMap (·.flatMap le16))

/-- A register from the bytes of an image after its header. -/
def imageReg (dense : Bool) (k : Nat) (bs : List Nat) : MReg :=
  let at16 (o : Nat) : BitVec 16 := BitVec.ofNat 16 ((bs[o]?).getD 0 + 256 * (bs[o + 1]?).getD 0)
  if dense then ⟨true, [], [], [], (List.range 128).map fun i => (List.range 128).map fun j => at16 (256 * i + 2 * j), false⟩
  else
    let col (o : Nat) : List (BitVec 16) := (List.range 128).map fun i => at16 (o + 2 * i)
    ⟨false, (List.range k).map fun i => (at16 (4 * i + 2)).append (at16 (4 * i)),
      (List.range k).map fun j => col (256 + 256 * j), (List.range k).map fun j => col (256 + 256 * (k + j)), [], false⟩

/-- One row of mapl (R161): activations with their scales. -/
def maplRow (a1 a2 : Int) (fmt : Nat) (x : MReg) (row : List (Num × Num)) : List (Nat × Flags) :=
  let z := (x.s.zip x.uNums).map fun p =>
    let terms := (row.zip p.2).map fun q => prod4 q.1.1 q.2 q.1.2 Num.one
    let e := (chunks 32 5 terms).foldl (fun e run => faRun a1 run none e) 0
    faDrainScaled a1 e (decodeNum 0 [] p.1.toNat) 1
  let zs := z.map fun p => decodeNum 1 [] p.1
  let fl := z.foldl (fun f p => f ||| p.2) 0
  (List.range 128).map fun c =>
    let terms := (zs.zip x.vNums).map fun q => prod4 q.1 ((q.2[c]?).getD Num.zero) Num.one Num.one
    let e := (chunks 32 3 terms).foldl (fun e run => faRun a2 run none e) 0
    let (code, f2) := faDrain a2 e fmt
    (code, fl ||| f2)

def setM (m : Nat) (x : MReg) (s : State) : State :=
  s.onC fun c => if h : m < 16 then { c with m := c.m.set m x h } else c

/-- A register that R162 marks: form, rank and occupancy as the check gave them. -/
def poisonedReg (dense : Bool) (k : Nat) : MReg :=
  ⟨dense, List.replicate k 0, List.replicate k [], List.replicate k [], [], true⟩

/-- Poison every block that holds a byte of the list, and count those that were clean (R377). -/
def poisonHomes (hs : List Nat) (s : State) : State :=
  let new := ((hs.map homeBlock).eraseDups).filter fun b => !s.poison.contains b
  let s := new.foldl (fun s b => match hs.find? fun a => homeBlock a == b with
    | some a => countPoison (errorPlace s a) s
    | none => s) s
  { s with
    poison := (s.poison ++ hs.map homeBlock).eraseDups
    cleaned := s.cleaned.filter fun b => !(hs.map homeBlock).contains b }

/-- Complete a command that writes a register. -/
def finishReg (q : Cmd) (md : BitVec 4) (r : MReg × Flags) (s : State) : EngRes State :=
  .ok (popCmd q (engFlags q r.2 (setM md.toNat r.1 s)))

/-- A command whose sources may be poisoned (R162): it marks its destination instead. The mark counts as a poisoned
block of the core's pool, where the registers lie (R377; log 51). -/
def mxWrite (q : Cmd) (err : Bool) (md : BitVec 4) (srcs : List (BitVec 4)) (f : MReg × Flags) (s : State) : EngRes State :=
  if s.c.lanes.flatten.any fun x => match x.i with | .afac _ m _ _ _ => m == md && decide (x.no ≤ q.no) | _ => false then
    .error .wait
  else if err || srcs.any fun m => (s.mreg m).poison then
    let s := countPoison (0, s.me / 64 % 4) s
    match q.mres with
    | some (_, dense, k) => finishReg q md (poisonedReg dense k, 0) s
    | none => finishReg q md f s
  else finishReg q md f s

/-- Store an image or a tensor; poisoned sources or an error poison the destination's blocks (R162). -/
def mxStore (q : Cmd) (bad : Bool) (t : Tens) (l : List (List Nat × Nat)) (fl : Flags) (s : State) : EngRes State := do
  let hs ← engGet (homesOf (fun i => elemHomes s .write t.d (coords t i)) (l.map (·.1)))
  if bad then .ok (popCmd q (poisonHomes hs s))
  else do
    let cells ← engGet (regionCells s t l)
    let s' ← engWrite cells (vaOf t ((l.head?.map (·.1)).getD [])) s
    .ok (popCmd q (engFlags q fl s'))

/-- The execution of an mx command (R152 to R162). -/
def mxRun (env : EngineEnv) (q : Cmd) (s0 : State) : EngRes State := do
  let s := unheld s0
  let done (r : EngRes State) : EngRes State := r.map fun s' => s'.onC fun c => { c with spec := s0.c.spec }
  let x (m : BitVec 4) := s.mreg m
  match q.i with
  | .mzr _ d => done (mxWrite q env.error d [] (MReg.zero, 0) s)
  | .mcpy _ d a => done (mxWrite q env.error d [a] (x a, 0) s)
  | .mtrn _ d a => done (mxWrite q env.error d [a] (mtrnOf (x a), 0) s)
  | .mscl _ m _ => done (mxWrite q env.error m [m] (msclOf (fp32 q.x) (x m)) s)
  | .mdns _ d a =>
    done (mxWrite q env.error d [a] (if (x a).dense then (x a, 0) else denseFrom fun i j => ((x a).elem i j, 0)) s)
  | .madd _ d a b => done (mxWrite q env.error d [a, b] (maddOf (x a) (x b)) s)
  | .mmul _ d a b => done (mxWrite q env.error d [a, b] (mmulOf (tolOf q.x) (x a) (x b)) s)
  | .mrcmp _ d a => done (mxWrite q env.error d [a] (mrcmpOf (tolOf q.x) (x a)) s)
  | .mfac _ d a c => done (mxWrite q env.error d [a] (mfacOf (tolOf q.x) c.toNat (x a)) s)
  | .mrnk _ m _ => .ok (popCmd q (landCell q (BitVec.ofNat 64 (if (x m).dense then 128 else (x m).rank)) s0))
  | .mocc _ m _ => .ok (popCmd q (landCell q (BitVec.ofNat 64 (occOf (x m).dense (x m).rank)) s0))
  | .mld _ m _ =>
    match q.ts, q.image with
    | [t], some (dense, k) => do
      let idxs := span 64 (imageSize dense k)
      engReach q s t false idxs
      let bs ← engGet (idxs.mapM (codeAt s t))
      done (mxWrite q (env.error || (firstPoison s t false idxs).isSome) m [] (imageReg dense k bs, 0) s)
    | _, _ => .ok (popCmd q s0)
  | .mst _ m _ =>
    match q.ts with
    | [t] =>
      let bs := if (x m).poison then List.replicate (imageSize (x m).dense (x m).rank) 0 else imageBytes (x m)
      done (mxStore q (env.error || (x m).poison) t (bs.zipIdx.map fun b => ([b.2], b.1)) 0 s)
    | _ => .ok (popCmd q s0)
  | .mapl _ _ _ m =>
    match q.ts with
    | [td, ta] => do
      engReach q s ta false (allIdx ta.ext)
      let a1 := ((q.stgAt 0).setWidth 10).toInt
      let a2 := ((q.stgAt 0 >>> 16).setWidth 10).toInt
      let rows ← (List.range ((ta.ext.head?).getD 0)).mapM fun r => do
        let row ← engGet ((List.range 128).mapM fun k => do
          let code ← codeAt s ta [r, k]
          let sc ← scaleAt s ta.d ta.scale false (coords ta [r, k])
          .ok (valOfCode ta code, sc))
        .ok (maplRow a1 a2 td.d.fmt (x m) row)
      let outs := rows.flatten
      let l := (allIdx td.ext).zip (outs.map (·.1))
      if env.residue then .error (.residue ((regionCells s td l).toOption.getD []))
      else done (mxStore q (env.error || (x m).poison || (firstPoison s ta false (allIdx ta.ext)).isSome) td l
        (outs.foldl (fun f o => f ||| o.2) 0) s)
    | _ => .ok (popCmd q s0)
  | _ => .ok (popCmd q s0)

/-- MX_COMMAND_EXECUTE (R152): the command at the head of the mx queue. -/
def execMxCommandExecute (env : EngineEnv) (s : State) : Out :=
  runCmd "MX_COMMAND_EXECUTE" s.c.mxq.head? (mxRun env) s

end Sys2Proof.Machine
end

