-- ==== Sys2Proof/Machine/ScalarMem.lean ====
section
/-! DEFINITION. The sc slot's memory: loads, stores, handles, stream loads, atomics and ranked atomics (R106, R107, R112 to R117, R188, R202). -/

namespace Sys2Proof.Machine

/-- A phase or fence that was issued before and has not completed: it holds accesses outside the pool at issue (R184, R185). -/
def phaseHolds (s : State) : Bool :=
  s.c.syq.any fun q => decide (q.no < s.c.cmdNo) && match q.i with | .phase _ _ => true | .fence _ _ => true | _ => false

/-- The effective address: base plus a scaled signed offset (R106, R107). -/
def effAddr (base : Word) {n : Nat} (o : BitVec n) (size : Nat) : Word := base + o.signExtend 64 * BitVec.ofNat 64 size

/-- Alignment, translation and permission of a scalar access, in that order (R106): the home address of its first byte. -/
def scalarHome (s : State) (k : Acc) (ea : Word) (size : Nat) : Res Nat :=
  if ea.toNat % size ≠ 0 then .error (.fault 0x32 (some (tvalVa k 3 ea.toNat)))
  else match translate s s.c.info.ctx k false ea.toNat with
    | .error f => .error (.fault (f.cause k) (some f.tval))
    | .ok a => if !isPoolHome a && phaseHolds s then .error .stall else .ok a

/-- The bytes that a scalar load returns: an empty tile slips, a poisoned block raises cause 0x41 (R24, R106, R210). -/
def loadAt (s : State) (ea : Word) (size : Nat) : Res (List Byte) := do
  let a ← scalarHome s .read ea size
  if emptyAt s a then .error .slip
  else if poisoned s a then .error (.fault 0x41 none)
  else .ok (s.readBytes a size)

/-- Does the address lie in the context's descriptor table, whose stores a transaction joins (R188)? -/
def inDescTable (s : State) (ea : Word) : Bool :=
  match s.ctx? with
  | some c => decide (c.recd.dtbase ≤ ea.toNat) && decide (ea.toNat < c.recd.dtbase + 2 ^ 18)
  | none => false

/-- Join one action to the open transaction: a 17th aborts it (R188). -/
def joinTxn (a : Joined) (s : State) : State :=
  s.onC fun c =>
    if 16 ≤ c.txn.acts.length then abortTxn 3 c
    else { c with txn := { c.txn with acts := c.txn.acts ++ [a], count := c.txn.count + 1 } }

/-- Does a store put a code that is no format into the FMT field of a descriptor entry (R37)? -/
def badFmtStore (s : State) (ea : Word) (bs : List Byte) : Bool :=
  inDescTable s ea && (bs.zipIdx.any fun b => (ea.toNat + b.2) % 64 == 44 && decide (24 ≤ b.1.toNat % 32))

/-- A store of bytes whose address has resolved: one that gives a descriptor a code that is no format raises cause 0x13 (R37); held under speculation, joined to a transaction where it falls into the
descriptor table, otherwise performed (R97, R188, R216). -/
def storeAt (s : State) (ea : Word) (bs : List Byte) : Res State := do
  let a ← scalarHome s .write ea bs.length
  let cells := cellsAt a bs
  if badFmtStore s ea bs then .error (.fault 0x13 none)
  else if emptyAt s a then .error .slip
  else if bs.length < 8 ∧ poisoned s a then .error (.fault 0x42 none)
  else match s.c.spec with
    | some sp =>
      if 32 ≤ sp.held.length then .error (specWait s)
      else .ok (s.onC fun c => { c with spec := some { sp with held := sp.held ++ [⟨cells, inDescTable s ea⟩] } })
    | none =>
      if s.c.txn.act && inDescTable s ea then .ok (joinTxn (.store cells) s) else .ok (s.write cells)

/-- A load with its extension (R106). -/
def loadOp (g : Guard) (i : Instr) (d a : BitVec 6) (o : BitVec 6) (size : Nat) (ext : Nat → Word) (s : State) : Out :=
  slotOut .sc g i s fun s => do
    let bs ← loadAt s (effAddr (s.rdS a) o size) size
    .ok (writeVar .sc d (ext (leNat bs)) s)

/-- A store of the low bytes of sd (R106). -/
def storeOp (g : Guard) (i : Instr) (d a : BitVec 6) (o : BitVec 6) (size : Nat) (s : State) : Out :=
  slotOut .sc g i s fun s => storeAt s (effAddr (s.rdS a) o size) (natLe size (s.rdS d).toNat)

def sextNat (w n : Nat) : Word := (BitVec.ofNat w n).signExtend 64

def execLdB (g : Guard) (d a : BitVec 6) (k : BitVec 2) (o : BitVec 6) (s : State) : Out :=
  loadOp g (.ldB g d a k o) d a o 1 (sextNat 8) s

def execLdBz (g : Guard) (d a : BitVec 6) (k : BitVec 2) (o : BitVec 6) (s : State) : Out :=
  loadOp g (.ldBz g d a k o) d a o 1 (BitVec.ofNat 64) s

def execLdH (g : Guard) (d a : BitVec 6) (k : BitVec 2) (o : BitVec 6) (s : State) : Out :=
  loadOp g (.ldH g d a k o) d a o 2 (sextNat 16) s

def execLdHz (g : Guard) (d a : BitVec 6) (k : BitVec 2) (o : BitVec 6) (s : State) : Out :=
  loadOp g (.ldHz g d a k o) d a o 2 (BitVec.ofNat 64) s

def execLdW (g : Guard) (d a : BitVec 6) (k : BitVec 2) (o : BitVec 6) (s : State) : Out :=
  loadOp g (.ldW g d a k o) d a o 4 (sextNat 32) s

def execLdWz (g : Guard) (d a : BitVec 6) (k : BitVec 2) (o : BitVec 6) (s : State) : Out :=
  loadOp g (.ldWz g d a k o) d a o 4 (BitVec.ofNat 64) s

/-- Change a stream register. -/
def onZ (z : Nat) (f : Stream → Stream) (s : State) : State :=
  s.onC fun c => if h : z < 8 then { c with z := c.z.set z (f c.z[z]) h } else c

/-- The stream word that an address is, if it is one (R194, R202). -/
def streamWord (ea : Word) : Option Nat :=
  if ea.toNat / 2 ^ 40 = 0xFFD ∧ ea.toNat % 2 ^ 40 < 64 ∧ ea.toNat % 8 = 0 then some (ea.toNat % 64 / 8) else none

/-- The loads from stream word z that wait in the sc lane: each will take an element before a later one (R24, R202). -/
def laneTakes (z : Nat) (s : State) : Nat :=
  ((laneOf s 0).filter fun x => match x.i with
    | .ldD _ _ a _ o => streamWord (effAddr (x.regs.rdS a) o 8) == some z
    | _ => false).length

/-- A load from stream word z (R202): the oldest buffered element, or a wait for the next one. Cause 0x51 is of its issue: behind
other loads of its stream in the lane it counts the elements that they will take, and once released it waits. -/
def streamLoad (z : Nat) (d : BitVec 6) (s : State) : Res State :=
  let x := (s.c.z[z]?).getD Stream.unbound
  if speculating s then .error (specWait s)
  else if s.c.held.isNone && (!x.bound || (x.ended && decide (x.buf.length ≤ laneTakes z s))) then .error (.fault 0x51 none)
  else match x.waits, x.buf with
    | [], v :: rest => .ok (writeVar .sc d v (onZ z (fun x => { x with buf := rest, taken := x.taken + 1 }) s))
    | _, _ =>
      let cell := destCell s d
      .ok (undoS d (onZ z (fun x => { x with waits := x.waits ++ [(cell, s.c.pc)] }) s))

/-- ld.d (R106), or a stream load where its address is a stream word (R194, R202). -/
def execLdD (g : Guard) (d a : BitVec 6) (k : BitVec 2) (o : BitVec 6) (s : State) : Out :=
  slotOut .sc g (.ldD g d a k o) s fun s =>
    let ea := effAddr (s.rdS a) o 8
    match streamWord ea with
    | some z => streamLoad z d s
    | none => do
      let bs ← loadAt s ea 8
      .ok (writeVar .sc d (BitVec.ofNat 64 (leNat bs)) s)

def execStB (g : Guard) (d a : BitVec 6) (k : BitVec 2) (o : BitVec 6) (s : State) : Out :=
  storeOp g (.stB g d a k o) d a o 1 s

def execStH (g : Guard) (d a : BitVec 6) (k : BitVec 2) (o : BitVec 6) (s : State) : Out :=
  storeOp g (.stH g d a k o) d a o 2 s

def execStW (g : Guard) (d a : BitVec 6) (k : BitVec 2) (o : BitVec 6) (s : State) : Out :=
  storeOp g (.stW g d a k o) d a o 4 s

def execStD (g : Guard) (d a : BitVec 6) (k : BitVec 2) (o : BitVec 6) (s : State) : Out :=
  storeOp g (.stD g d a k o) d a o 8 s

/-- ldh and sth move a whole handle, 32-byte aligned, unchecked (R107). -/
def execLdh (g : Guard) (h : BitVec 5) (a : BitVec 6) (k : BitVec 2) (o : BitVec 7) (s : State) : Out :=
  slotOut .sc g (.ldh g h a k o) s fun s => do
    let bs ← loadAt s (effAddr (s.rdS a) o 32) 32
    .ok (postVar .sc (.h h) (BitVec.ofNat 256 (leNat bs)) (pushUndo 1 (h.setWidth 12) (s.c.r.rdH h) s))

def execSth (g : Guard) (h : BitVec 5) (a : BitVec 6) (k : BitVec 2) (o : BitVec 7) (s : State) : Out :=
  slotOut .sc g (.sth g h a k o) s fun s => storeAt s (effAddr (s.rdS a) o 32) (natLe 32 (s.rdH h).toNat)

/-- The new word of an atomic (R112, R113): codes 0 to 7 in opcode order, 8 is amob. -/
def atomicNew (op : Nat) (old sb cmp : Word) : Word :=
  match op with
  | 0 => old + sb
  | 1 => old &&& sb
  | 2 => old ||| sb
  | 3 => old ^^^ sb
  | 4 => if old.slt sb then sb else old
  | 5 => if sb.slt old then sb else old
  | 6 => sb
  | 7 => if old = cmp then sb else old
  | _ => if old.ult sb then old + 1 else old

/-- The word as the task's earlier joined atomics leave it (R188, R214). -/
def joinedWord (acts : List Joined) (a : Nat) (w : Word) : Word :=
  acts.foldl (fun w x => match x with | .atomic b v => if a = b then v else w | _ => w) w

/-- The home address of an atomic, with the faults of R106. -/
def atomicHome (s : State) (ea : Word) : Res Nat := do
  let a ← scalarHome s .atomic ea 8
  if emptyAt s a then .error .slip
  else if homePoisoned s a then .error (.fault 0x41 none)
  else .ok a

/-- An unranked atomic at its home location (R112, R113, R218): joined to an open transaction in cluster SRAM, cause 0xA2
outside it (R188). One that gives a descriptor a code that is no format raises cause 0x13 (R37), which only the old word tells: on
the descriptor table it waits at issue for the operations before it in its lane. -/
def atomicOp (g : Guard) (i : Instr) (op : Nat) (d a b : BitVec 6) (s : State) : Out :=
  slotOut .sc g i s fun s => do
    let h ← scalarHome s .atomic (s.rdS a) 8
    if s.c.held.isNone && s.c.txn.act && !isClusterHome h then .error (.fault 0xA2 none)
    else if s.c.held.isNone && inDescTable s (s.rdS a) && !(laneOf s 0).isEmpty then .error .stall else
    let h ← atomicHome s (s.rdS a)
    let old := joinedWord s.c.txn.acts h (homeWord s h)
    let new := atomicNew op old (s.rdS b) (s.rdS d)
    if badFmtStore s (s.rdS a) (natLe 8 new.toNat) then .error (.fault 0x13 none)
    else if s.c.txn.act && isClusterHome h then .ok (joinTxn (.atomic h new) (writeVar .sc d old s))
    else .ok ((writeVar .sc d old s).write (cellsAt h (natLe 8 new.toNat)))

/-- The ranked atomics that wait in the sc lane. -/
def rankedInLane (s : State) : Nat :=
  ((laneOf s 0).filter fun x => match x.i with
    | .amoAddR _ _ _ _ _ => true
    | .amoAndR _ _ _ _ _ => true
    | .amoOrR _ _ _ _ _ => true
    | .amoXorR _ _ _ _ _ => true
    | .amoMaxR _ _ _ _ _ => true
    | .amoMinR _ _ _ _ _ => true
    | .amoXchgR _ _ _ _ _ => true
    | .amoCasR _ _ _ _ _ => true
    | .amobR _ _ _ _ _ => true
    | _ => false).length

/-- The phase that applies a ranked atomic, where the task has issued it while the atomic waited in its lane (R116, R223). -/
def nextPhase (c : Core) : Option Nat :=
  (c.syq.find? fun q => decide (c.cmdNo ≤ q.no) && match q.i with | .phase _ _ => true | _ => false).map (·.no)

/-- A ranked atomic: it waits for the task's next phase boundary (R114 to R117); the 65th raises cause 0x83. -/
def rankedOp (g : Guard) (i : Instr) (op : Nat) (d a b : BitVec 6) (s : State) : Out :=
  slotOut .sc g i s fun s => do
    let _ ← scalarHome s .atomic (s.rdS a) 8
    let fresh := s.c.held.isNone
    if fresh && s.c.txn.act then .error (.fault 0xA2 none)
    else if fresh && decide (64 ≤ s.c.ranked.length + rankedInLane s) then .error (.fault 0x83 none)
    else
      let h ← atomicHome s (s.rdS a)
      let cell := destCell s d
      .ok ((undoS d s).onC fun c => { c with
        ranked := c.ranked ++ [⟨op, h, s.rdS b, s.rdS d, cell, nextPhase c⟩] })

def execAmoAdd (g : Guard) (d a b : BitVec 6) (k : BitVec 2) (s : State) : Out :=
  atomicOp g (.amoAdd g d a b k) 0 d a b s

def execAmoAnd (g : Guard) (d a b : BitVec 6) (k : BitVec 2) (s : State) : Out :=
  atomicOp g (.amoAnd g d a b k) 1 d a b s

def execAmoOr (g : Guard) (d a b : BitVec 6) (k : BitVec 2) (s : State) : Out :=
  atomicOp g (.amoOr g d a b k) 2 d a b s

def execAmoXor (g : Guard) (d a b : BitVec 6) (k : BitVec 2) (s : State) : Out :=
  atomicOp g (.amoXor g d a b k) 3 d a b s

def execAmoMax (g : Guard) (d a b : BitVec 6) (k : BitVec 2) (s : State) : Out :=
  atomicOp g (.amoMax g d a b k) 4 d a b s

def execAmoMin (g : Guard) (d a b : BitVec 6) (k : BitVec 2) (s : State) : Out :=
  atomicOp g (.amoMin g d a b k) 5 d a b s

def execAmoXchg (g : Guard) (d a b : BitVec 6) (k : BitVec 2) (s : State) : Out :=
  atomicOp g (.amoXchg g d a b k) 6 d a b s

def execAmoCas (g : Guard) (d a b : BitVec 6) (k : BitVec 2) (s : State) : Out :=
  atomicOp g (.amoCas g d a b k) 7 d a b s

/-- amob (R113). -/
def execAmob (g : Guard) (d a b : BitVec 6) (k : BitVec 2) (s : State) : Out :=
  atomicOp g (.amob g d a b k) 8 d a b s

def execAmoAddR (g : Guard) (d a b : BitVec 6) (k : BitVec 2) (s : State) : Out :=
  rankedOp g (.amoAddR g d a b k) 0 d a b s

def execAmoAndR (g : Guard) (d a b : BitVec 6) (k : BitVec 2) (s : State) : Out :=
  rankedOp g (.amoAndR g d a b k) 1 d a b s

def execAmoOrR (g : Guard) (d a b : BitVec 6) (k : BitVec 2) (s : State) : Out :=
  rankedOp g (.amoOrR g d a b k) 2 d a b s

def execAmoXorR (g : Guard) (d a b : BitVec 6) (k : BitVec 2) (s : State) : Out :=
  rankedOp g (.amoXorR g d a b k) 3 d a b s

def execAmoMaxR (g : Guard) (d a b : BitVec 6) (k : BitVec 2) (s : State) : Out :=
  rankedOp g (.amoMaxR g d a b k) 4 d a b s

def execAmoMinR (g : Guard) (d a b : BitVec 6) (k : BitVec 2) (s : State) : Out :=
  rankedOp g (.amoMinR g d a b k) 5 d a b s

def execAmoXchgR (g : Guard) (d a b : BitVec 6) (k : BitVec 2) (s : State) : Out :=
  rankedOp g (.amoXchgR g d a b k) 6 d a b s

def execAmoCasR (g : Guard) (d a b : BitVec 6) (k : BitVec 2) (s : State) : Out :=
  rankedOp g (.amoCasR g d a b k) 7 d a b s

def execAmobR (g : Guard) (d a b : BitVec 6) (k : BitVec 2) (s : State) : Out :=
  rankedOp g (.amobR g d a b k) 8 d a b s

end Sys2Proof.Machine
end

