-- ==== Sys2Proof/Machine/Trans.lean ====
section
/-! DEFINITION. The vector transcendentals, correctly rounded by enclosing the exact value in an interval of integers over a power of two until both ends round alike (R58, Table 4-9). -/

namespace Sys2Proof.Machine

/-- The functions of R58. -/
inductive TransFn where
  | exp | exp2 | log2 | rcp | rsq | sqrt | tanh | sigm
  deriving DecidableEq, Repr

/-- One Horner step of the exponential series on an interval over 2 ^ w, for a quotient k. -/
def expHorner (w r0 r1 : Nat) : Nat → Nat × Nat → Nat × Nat
  | 0, a => a
  | k + 1, (lo, hi) => expHorner w r0 r1 k (2 ^ w + lo * r0 / ((k + 1) * 2 ^ w), 2 ^ w + hi * r1 / ((k + 1) * 2 ^ w) + 1)

/-- Square an interval over 2 ^ w, n times. -/
def squareI (w : Nat) : Nat → Nat × Nat → Nat × Nat
  | 0, a => a
  | n + 1, (lo, hi) => squareI w n (lo * lo / 2 ^ w, hi * hi / 2 ^ w + 1)

/-- e ^ x for x in x0 to x1 over 2 ^ w, below 256. -/
def expI (w x0 x1 : Nat) : Nat × Nat :=
  squareI w 16 (expHorner w (x0 / 2 ^ 16) (x1 / 2 ^ 16 + 1) (w / 8) (2 ^ w, 2 ^ (w + 1)))

/-- One over an interval. -/
def recipI (w : Nat) (i : Nat × Nat) : Nat × Nat := (2 ^ (2 * w) / i.2, 2 ^ (2 * w) / i.1 + 1)

/-- The series of atanh from term k on, in t squared, on an interval: the tail of the upper end is at most 2. -/
def atanhSeries (w s0 s1 : Nat) : Nat → Nat → Nat × Nat
  | 0, _ => (0, 2 ^ (w + 1))
  | n + 1, k =>
    let (lo, hi) := atanhSeries w s0 s1 n (k + 1)
    (2 ^ w / (2 * k + 1) + lo * s0 / 2 ^ w, 2 ^ w / (2 * k + 1) + 1 + hi * s1 / 2 ^ w + 1)

/-- 2 * atanh t for t at most 1/3, on an interval over 2 ^ w. -/
def atanh2I (w t0 t1 : Nat) : Nat × Nat :=
  let (lo, hi) := atanhSeries w (t0 * t0 / 2 ^ w) (t1 * t1 / 2 ^ w + 1) (w / 3) 0
  (2 * (t0 * lo / 2 ^ w), 2 * (t1 * hi / 2 ^ w + 1))

/-- The natural logarithm of 2. -/
def ln2I (w : Nat) : Nat × Nat := atanh2I w (2 ^ w / 3) (2 ^ w / 3 + 1)

/-- m * 2 ^ e over 2 ^ w, rounded down. -/
def fixed (w m : Nat) (e : Int) : Nat :=
  let k := e + w
  if 0 ≤ k then m * 2 ^ k.toNat else m / 2 ^ (-k).toNat

/-- Is m * 2 ^ e at least 2 ^ b? -/
def atLeastPow (m : Nat) (e : Int) (b : Nat) : Bool := decide (m ≠ 0 ∧ (b : Int) ≤ (Nat.log2 m : Int) + e)

/-- The exact value of a function at a finite number that is not zero, as an interval with signs, or a value that is exact. -/
def transI (f : TransFn) (w : Nat) (neg : Bool) (m : Nat) (e : Int) : Ex × Ex :=
  let one := 2 ^ w
  let pt (x : Ex) : Ex × Ex := (x, x)
  match f with
  | .exp =>
    if atLeastPow m e 8 then (if neg then pt (.q false 1 (2 ^ 300)) else pt (.q false (2 ^ 300) 1))
    else
      let x := fixed w m e
      let i := expI w x x
      let i := if neg then recipI w i else i
      (.q false i.1 one, .q false i.2 one)
  | .exp2 =>
    if atLeastPow m e 10 then (if neg then pt (.q false 1 (2 ^ 1024)) else pt (.q false (2 ^ 1024) 1))
    else
      let x : Int := if neg then -((fixed w m e : Nat) : Int) else ((fixed w m e : Nat) : Int)
      let n := x / (one : Int)
      let fr := (x % (one : Int)).toNat
      let sc (v : Nat) : Ex := match scaleQ v one (-n) with | (a, b) => .q false a b
      if fr = 0 then pt (sc one)
      else
        let l := ln2I w
        let i := expI w (fr * l.1 / one) (fr * l.2 / one + 1)
        (sc i.1, sc i.2)
  | .log2 =>
    let k := Nat.log2 m
    let n : Int := e + k
    if m = 2 ^ k then pt (.q (decide (n < 0)) n.natAbs 1)
    else
      let t := (m - 2 ^ k) * one / (m + 2 ^ k)
      let y := atanh2I w t (t + 1)
      let l := ln2I w
      let lo : Int := n * one + ((y.1 * one / l.2 : Nat) : Int)
      let hi : Int := n * one + ((y.2 * one / l.1 + 1 : Nat) : Int)
      (.q (decide (lo < 0)) lo.natAbs one, .q (decide (hi < 0)) hi.natAbs one)
  | .rcp => match scaleQ 1 m e with | (a, b) => pt (.q neg a b)
  | .rsq => pt (rsqrtEx m e)
  | .sqrt => pt (sqrtEx m e)
  | .tanh =>
    if atLeastPow m e 6 then pt (.q neg (2 ^ 64 - 1) (2 ^ 64))
    else
      let x := fixed w m (e + 1)
      let i := expI w x x
      (.q neg (i.1 - one) (i.1 + one), .q neg (i.2 - one) (i.2 + one))
  | .sigm =>
    if atLeastPow m e 8 then (if neg then pt (.q false 1 (2 ^ 300)) else pt (.q false (2 ^ 64 - 1) (2 ^ 64)))
    else
      let x := fixed w m e
      let i := expI w x x
      let i := if neg then i else recipI w i
      (.q false one (one + i.2), .q false one (one + i.1))

/-- Round the interval, trying the precisions of the list; the last one's lower end stands if its ends still differ
(no BF16 or FP32 operand is known to need it, log 7). -/
def transRound (f : TransFn) (fmt : Nat) (neg : Bool) (m : Nat) (e : Int) : List Nat → Nat × Flags
  | [] => (0, 0)
  | w :: ws =>
    let i := transI f w neg m e
    let a := rndEx fmt [] 0 i.1
    let b := rndEx fmt [] 0 i.2
    if a = b then a else if ws.isEmpty then a else transRound f fmt neg m e ws

/-- A transcendental of a number, rounded once to the format with RNE, with its flags (R58, Table 4-9). -/
def trans (f : TransFn) (fmt : Nat) (x : Num) : Nat × Flags :=
  let out (y : Ex) (fl : Flags) : Nat × Flags :=
    let r := rndEx fmt [] 0 y
    (r.1, r.2 ||| fl)
  match x with
  | .nan => out .nan 0
  | .inf neg =>
    match f with
    | .exp | .exp2 => if neg then out (.q false 0 1) 0 else out (.inf false) 0
    | .log2 | .rsq | .sqrt =>
      if neg then out .nan flagNV else if f = .rsq then out (.q false 0 1) 0 else out (.inf false) 0
    | .rcp => out (.q neg 0 1) 0
    | .tanh => out (.q neg 1 1) 0
    | .sigm => if neg then out (.q false 0 1) 0 else out (.q false 1 1) 0
  | .fin neg m e =>
    if m = 0 then
      match f with
      | .exp | .exp2 => out (.q false 1 1) 0
      | .log2 => out (.inf true) flagDZ
      | .rcp | .rsq => out (.inf neg) flagDZ
      | .sqrt | .tanh => out (.q neg 0 1) 0
      | .sigm => out (.q false 1 2) 0
    else if neg && (f == .log2 || f == .rsq || f == .sqrt) then out .nan flagNV
    else transRound f fmt neg m e [512, 1024]

end Sys2Proof.Machine
end

