-- ==== Sys2Proof/Machine/Vector.lean ====
section
/-! DEFINITION. The ve slot: elementwise arithmetic, transcendentals, compares, raw codes, conversion, reductions, movement, the generator (R133 to R143). -/

namespace Sys2Proof.Machine

/-- The operands of a ve instruction through the handle check and the check of the scales that they use, hd first (R45, R133,
R197; the order of two operands, and of these checks and the instruction's own, is log 24's). use is hd's use of its
scales. -/
def vecTens (s : State) (d : BitVec 5) (xs : List (BitVec 5)) (use : Option Bool := some false) : Res (Tens × List Tens) := do
  let td ← wholeTensor s .write true d use
  let ts ← xs.mapM fun x => wholeTensor s .read true x (some false)
  .ok (td, ts)

/-- At most 16,384 elements (R133, reason 2). -/
def vecSize (t : Tens) : Res Unit := if 16384 < count t.ext then .error (opFault 2 (count t.ext)) else .ok ()

/-- Size and extents of R133: a source has hd's extents or exactly one element. -/
def vecShape (d : Tens) (xs : List Tens) : Res Unit := do
  vecSize d
  if xs.any fun x => x.ext != d.ext && count x.ext != 1 then .error (opFault 1) else .ok ()

/-- Steps 4 and 5 of the handle check of hd and of each source, with the scales of hd, which are read (R135). -/
def vecReach (s : State) (d : Tens) (xs : List Tens) : Res Unit :=
  together (pipeWrites s d (allIdx d.ext) :: scaleReads s d false (allIdx d.ext)
    :: xs.map fun x => pipeReads s x false (allIdx x.ext))

/-- NV of the sources' own values (log 81). -/
def sourceNv (s : State) (xs : List Tens) : Res Flags := do
  let fs ← xs.mapM fun x => mapRead (scaleNv s x false) (allIdx x.ext)
  .ok (fs.flatten.foldl (· ||| ·) 0)

/-- The index at which a source is read for an index of hd: a single element is broadcast. -/
def pick (d x : Tens) (idx : List Nat) : List Nat := if x.ext = d.ext then idx else x.ext.map fun _ => 0

/-- The value of a source at an index of hd. -/
def srcVal (s : State) (d x : Tens) (idx : List Nat) : Except TransFault Num := valAt s x false (pick d x idx)

/-- The raw code of a source at an index of hd. -/
def srcCode (s : State) (d x : Tens) (idx : List Nat) : Except TransFault Nat := codeAt s x (pick d x idx)

/-- R135: the code of x / d_i under a mode, with its flags. -/
def outCode (s : State) (d : Tens) (mode : Nat) (idx : List Nat) (x : Num) : Except TransFault (Nat × Flags) := do
  let k ← scaleAt s d.d d.scale false (coords d idx)
  let (q, f1) := divScale x k
  let (c, f2) := rndEx d.d.fmt d.d.cb mode q
  .ok (c, f1 ||| f2)

/-- Write codes with their flags into hd (R133 to R135). -/
def vecWrite (d : Tens) (xs : List Tens) (idxs : List (List Nat)) (outs : List (Nat × Flags)) (s : State) : Res State := do
  let nv ← sourceNv s xs
  let cells ← pipeFault .write (regionCells s d (idxs.zip (outs.map (·.1))))
  let s' ← pipeWrite cells s
  .ok (raiseFlags .ve (outs.foldl (fun f o => f ||| o.2) nv) s')

/-- vsum and vscan drain elements: where a residue does not match, the destination's bytes are each prior or new, and the
fault follows (R50, R379). The first mismatching element is a free value (log 80). -/
def vecDrain (d : Tens) (xs : List Tens) (idxs : List (List Nat)) (outs : List (Nat × Flags)) (s : State) : Res State := do
  if idxs.isEmpty || !s.c.upsets.contains 3 then vecWrite d xs idxs outs s
  else
    let cells ← pipeFault .write (regionCells s d (idxs.zip (outs.map (·.1))))
    let at_ := (Config.freeWord s.c.fresh).toNat
    let t := noteMismatch 3 0 (at_ / 128) at_ (s.onC fun c => { c with upsets := c.upsets.erase 3, fresh := c.fresh + 1 })
    match s.c.spec with
    | none => .ok (applyFree cells t)
    | some _ => .ok t

/-- An elementwise operation once its operands are resolved: each element's code and flags from the state and the index. -/
def vecMap (d : Tens) (xs : List Tens) (f : State → List Nat → Except TransFault (Nat × Flags)) (s : State) : Res State := do
  vecReach s d xs
  let outs ← mapRead (f s) (allIdx d.ext)
  vecWrite d xs (allIdx d.ext) outs s

/-- An elementwise operation on values (Table 7-6): the exact result with its own flags, converted under R135. -/
def vecArith (d : BitVec 5) (xs : List (BitVec 5)) (f : List Num → Num × Flags) (s : State) : Res State := do
  let (td, ts) ← vecTens s d xs
  vecShape td ts
  vecMap td ts (fun s idx => do
    let vs ← ts.mapM fun x => srcVal s td x idx
    let (x, f1) := f vs
    let (c, f2) ← outCode s td 0 idx x
    .ok (c, f1 ||| f2)) s

/-- The arithmetic of R57, with NV where a NaN is made. -/
def ruled (vs : List Num) (x : Num) : Num × Flags := (x, nvOf (vs.any Num.isNan) x)

def vAt (vs : List Num) (i : Nat) : Num := (vs[i]?).getD Num.zero

def execVadd (g : Guard) (d a b : BitVec 5) (s : State) : Out :=
  slotOut .ve g (.vadd g d a b) s (vecArith d [a, b] fun v => ruled v (Num.add (vAt v 0) (vAt v 1)))

def execVsub (g : Guard) (d a b : BitVec 5) (s : State) : Out :=
  slotOut .ve g (.vsub g d a b) s (vecArith d [a, b] fun v => ruled v (Num.add (vAt v 0) (vAt v 1).neg))

def execVmul (g : Guard) (d a b : BitVec 5) (s : State) : Out :=
  slotOut .ve g (.vmul g d a b) s (vecArith d [a, b] fun v => ruled v (Num.mul (vAt v 0) (vAt v 1)))

def execVfma (g : Guard) (d a b c : BitVec 5) (s : State) : Out :=
  slotOut .ve g (.vfma g d a b c) s
    (vecArith d [a, b, c] fun v => ruled v (Num.add (Num.mul (vAt v 0) (vAt v 1)) (vAt v 2)))

def execVfms (g : Guard) (d a b c : BitVec 5) (s : State) : Out :=
  slotOut .ve g (.vfms g d a b c) s
    (vecArith d [a, b, c] fun v => ruled v (Num.add (Num.mul (vAt v 0) (vAt v 1)) (vAt v 2).neg))

def execVmax (g : Guard) (d a b : BitVec 5) (s : State) : Out :=
  slotOut .ve g (.vmax g d a b) s (vecArith d [a, b] fun v => (Num.maxN (vAt v 0) (vAt v 1), 0))

def execVmin (g : Guard) (d a b : BitVec 5) (s : State) : Out :=
  slotOut .ve g (.vmin g d a b) s (vecArith d [a, b] fun v => (Num.minN (vAt v 0) (vAt v 1), 0))

def execVabs (g : Guard) (d a : BitVec 5) (s : State) : Out :=
  slotOut .ve g (.vabs g d a) s (vecArith d [a] fun v => ((vAt v 0).abs, 0))

def execVneg (g : Guard) (d a : BitVec 5) (s : State) : Out :=
  slotOut .ve g (.vneg g d a) s (vecArith d [a] fun v => ((vAt v 0).neg, 0))

def execVclamp (g : Guard) (d a b c : BitVec 5) (s : State) : Out :=
  slotOut .ve g (.vclamp g d a b c) s
    (vecArith d [a, b, c] fun v => (Num.minN (Num.maxN (vAt v 0) (vAt v 1)) (vAt v 2), 0))

def execVsel (g : Guard) (d a b c : BitVec 5) (s : State) : Out :=
  slotOut .ve g (.vsel g d a b c) s
    (vecArith d [a, b, c] fun v => (if (vAt v 0).isZero then vAt v 2 else vAt v 1, 0))

/-- R136: hd is FP32 or BF16. -/
def vecTrans (f : TransFn) (d a : BitVec 5) (s : State) : Res State := do
  let td ← wholeTensor s .write true d
  let ta ← wholeTensor s .read true a (some false)
  vecShape td [ta]
  if 1 < td.d.fmt then .error (.fault 0x13 none)
  else vecMap td [ta] (fun s idx => do
    let v ← srcVal s td ta idx
    .ok (trans f td.d.fmt v)) s

def execVexp (g : Guard) (d a : BitVec 5) (s : State) : Out := slotOut .ve g (.vexp g d a) s (vecTrans .exp d a)
def execVexp2 (g : Guard) (d a : BitVec 5) (s : State) : Out := slotOut .ve g (.vexp2 g d a) s (vecTrans .exp2 d a)
def execVlog2 (g : Guard) (d a : BitVec 5) (s : State) : Out := slotOut .ve g (.vlog2 g d a) s (vecTrans .log2 d a)
def execVrcp (g : Guard) (d a : BitVec 5) (s : State) : Out := slotOut .ve g (.vrcp g d a) s (vecTrans .rcp d a)
def execVrsq (g : Guard) (d a : BitVec 5) (s : State) : Out := slotOut .ve g (.vrsq g d a) s (vecTrans .rsq d a)
def execVsqrt (g : Guard) (d a : BitVec 5) (s : State) : Out := slotOut .ve g (.vsqrt g d a) s (vecTrans .sqrt d a)
def execVtanh (g : Guard) (d a : BitVec 5) (s : State) : Out := slotOut .ve g (.vtanh g d a) s (vecTrans .tanh d a)
def execVsigm (g : Guard) (d a : BitVec 5) (s : State) : Out := slotOut .ve g (.vsigm g d a) s (vecTrans .sigm d a)

/-- The cmp column of Table 5-4 on elements: values for the signed codes, raw codes for the unsigned ones (R137). -/
def condElem (cc : Nat) (x y : Num) (p q : Nat) : Bool :=
  let un := x.isNan || y.isNan
  let o := Num.cmp x y
  match cc with
  | 0 => !un && o == .eq
  | 1 => un || o != .eq
  | 2 => !un && o == .lt
  | 3 => !un && o != .lt
  | 4 => decide (p < q)
  | 5 => decide (q ≤ p)
  | 6 => !un && o == .gt
  | 7 => !un && o != .gt
  | 8 => decide (q < p)
  | _ => decide (p ≤ q)

/-- vcmp (R137): the column is that of ha's format; a compare of raw codes reads no scale. -/
def execVcmp (g : Guard) (d a b : BitVec 5) (c : BitVec 4) (s : State) : Out :=
  slotOut .ve g (.vcmp g d a b c) s fun s => do
    let td ← wholeTensor s .write true d (some false)
    let ta ← wholeTensor s .read true a
    let fa := ta.d.fmt
    let cc := c.toNat
    let use := if decide (6 < fa) && [4, 5, 8, 9].contains cc then none else some false
    let ta ← useTens s a use
    let tb ← wholeTensor s .read true b use
    vecShape td [ta, tb]
    if fa ≤ 6 ∧ 8 ≤ cc then .error (opFault 6)
    else
      vecMap td [ta, tb] (fun s idx => do
        let x ← srcVal s td ta idx
        let y ← srcVal s td tb idx
        let p ← srcCode s td ta idx
        let q ← srcCode s td tb idx
        let r := if fa ≤ 6 then condNum cc x y else condElem cc x y p q
        outCode s td 0 idx (if r then Num.one else Num.zero)) s

/-- Raw codes combined bit by bit (R138). The result is the raw code, code 10 of TRN2 too, which R40 says that the device never
writes as the result of a conversion (log 82). -/
def vecBits (f : Nat → Nat → Nat) (d a b : BitVec 5) (s : State) : Res State := do
  let td ← wholeTensor s .write true d
  let ta ← wholeTensor s .read true a
  let tb ← wholeTensor s .read true b
  vecShape td [ta, tb]
  if ta.d.fmt ≠ tb.d.fmt ∨ ta.d.fmt ≠ td.d.fmt then .error (opFault 7)
  else vecMap td [ta, tb] (fun s idx => do
    let x ← srcCode s td ta idx
    let y ← srcCode s td tb idx
    .ok (f x y, 0)) s

def execVand (g : Guard) (d a b : BitVec 5) (s : State) : Out := slotOut .ve g (.vand g d a b) s (vecBits (· &&& ·) d a b)
def execVor (g : Guard) (d a b : BitVec 5) (s : State) : Out := slotOut .ve g (.vor g d a b) s (vecBits (· ||| ·) d a b)
def execVxor (g : Guard) (d a b : BitVec 5) (s : State) : Out := slotOut .ve g (.vxor g d a b) s (vecBits (· ^^^ ·) d a b)

/-- An index or shift operand has a format 7 to 13 (R138, R141, R179). -/
def isIndexFmt (fmt : Nat) : Bool := decide (7 ≤ fmt) && decide (fmt ≤ 13)

/-- A code of width w shifted right by n: arithmetic for formats 7 to 10. -/
def shrCode (fmt x n : Nat) : Nat :=
  if 7 ≤ fmt ∧ fmt ≤ 10 then codeOfInt (fmtWidth fmt) (signedOf (fmtWidth fmt) x / 2 ^ n) else x / 2 ^ n

/-- vshl and vshr (R138): the amount is hb's integer modulo the code width. Reason 4 comes before reason 7 (log 24). -/
def vecShift (left : Bool) (d a b : BitVec 5) (s : State) : Res State := do
  let td ← wholeTensor s .write true d
  let ta ← wholeTensor s .read true a
  let tb ← wholeTensor s .read true b
  vecShape td [ta, tb]
  if !isIndexFmt tb.d.fmt then .error (opFault 4)
  else if ta.d.fmt ≠ td.d.fmt then .error (opFault 7)
  else vecMap td [ta, tb] (fun s idx => do
    let w := fmtWidth ta.d.fmt
    let x ← srcCode s td ta idx
    let y ← srcCode s td tb idx
    let n := (intOfCode tb.d.fmt y % (w : Int)).toNat
    .ok (if left then x * 2 ^ n % 2 ^ w else shrCode ta.d.fmt x n, 0)) s

def execVshl (g : Guard) (d a b : BitVec 5) (s : State) : Out := slotOut .ve g (.vshl g d a b) s (vecShift true d a b)
def execVshr (g : Guard) (d a b : BitVec 5) (s : State) : Out := slotOut .ve g (.vshr g d a b) s (vecShift false d a b)

/-- A conversion of each element under a mode (R135, R139). -/
def vecConvert (td ta : Tens) (mode : Nat) (s : State) : Res State :=
  vecMap td [ta] (fun s idx => do
    let v ← srcVal s td ta idx
    outCode s td mode idx v) s

def execVcvt (g : Guard) (d a : BitVec 5) (m : BitVec 2) (s : State) : Out :=
  slotOut .ve g (.vcvt g d a m) s fun s => do
    let td ← wholeTensor s .write true d (some false)
    let ta ← wholeTensor s .read true a (some false)
    vecShape td [ta]
    vecConvert td ta m.toNat s

/-- vmov (Table 7-6): codes of one format are copied unchanged, without scales. -/
def execVmov (g : Guard) (d a : BitVec 5) (s : State) : Out :=
  slotOut .ve g (.vmov g d a) s fun s => do
    let fd ← wholeTensor s .write true d
    let fa ← wholeTensor s .read true a
    if fd.d.fmt = fa.d.fmt then do
      vecShape fd [fa]
      vecMap fd [fa] (fun s idx => do
        let x ← srcCode s fd fa idx
        .ok (x, 0)) s
    else do
      let td ← useTens s d (some false)
      let ta ← useTens s a (some false)
      vecShape td [ta]
      vecConvert td ta 0 s

def execVdqnt (g : Guard) (d a : BitVec 5) (s : State) : Out :=
  slotOut .ve g (.vdqnt g d a) s fun s => do
    let (td, ts) ← vecTens s d [a] none
    vecShape td ts
    if 2 < td.d.fmt then .error (.fault 0x13 none)
    else match ts with
      | [ta] => vecConvert td ta 0 s
      | _ => .ok s

/-- vcbk (R139): the entry of each code, without scales. -/
def execVcbk (g : Guard) (d a : BitVec 5) (s : State) : Out :=
  slotOut .ve g (.vcbk g d a) s fun s => do
    let td ← wholeTensor s .write true d
    let ta ← wholeTensor s .read true a
    vecShape td [ta]
    if 2 < td.d.fmt ∨ ta.d.fmt < 16 ∨ 21 < ta.d.fmt then .error (.fault 0x13 none) else vecConvert td ta 0 s

/-- The greatest of finite magnitudes; zero where there is none. -/
def amaxOf (l : List Num) : Num :=
  l.foldl (fun m x => match x with
    | .fin _ k e => Num.maxN m (.fin false k e)
    | _ => m) Num.zero

/-- L of R139: the largest finite positive magnitude of a format. -/
def largestMag (fmt : Nat) (cb : List (BitVec 16)) : Num :=
  if fmt ≤ 6 then .fin false (fpFmt fmt).maxM (fpFmt fmt).maxE
  else if fmt ≤ 15 then .ofInt (intRange fmt).2
  else amaxOf ((candidates fmt cb).map (·.2))

/-- The scale code of a run (R139): 1.0 for an amax of zero or a format without magnitude, otherwise amax / L rounded up and
held to the largest finite BF16 value. -/
def runScale (fmt : Nat) (cb : List (BitVec 16)) (vals : List Num) : Nat :=
  let a := amaxOf vals
  let l := largestMag fmt cb
  if a.isZero || l.isZero then 0x3F80
  else
    let c := (rndEx 1 [] 3 (divScale a l).1).1
    if c = 0x7F80 then 0x7F7F else c

/-- The scale coordinates of the runs that a region touches, with each run's scale code (R139, R176). The run is that of the
innermost dimension, or of dimension 0 where run0 says so. -/
def runScales (td : Tens) (run0 : Bool) (vals : List (List Nat × Num)) : List (List Nat × Nat) :=
  let keys := (vals.map fun v => scaleCoords td.d run0 (coords td v.1)).eraseDups
  keys.map fun k =>
    (k, runScale td.d.fmt td.d.cb ((vals.filter fun v => scaleCoords td.d run0 (coords td v.1) == k).map (·.2)))

/-- Quantised codes under new scales. -/
def quantCodes (td : Tens) (run0 : Bool) (mode : Nat) (scales : List (List Nat × Nat)) (vals : List (List Nat × Num)) :
    List (Nat × Flags) :=
  vals.map fun v =>
    let k := ((scales.find? fun x => x.1 == scaleCoords td.d run0 (coords td v.1)).map (·.2)).getD 0x3F80
    let (q, f1) := divScale v.2 (decodeNum 1 [] k)
    let (c, f2) := rndEx td.d.fmt td.d.cb mode q
    (c, f1 ||| f2)

/-- vqnt (R139): scales and codes together. Cause 0x13 comes before reason 3 (log 24). -/
def execVqnt (g : Guard) (d a : BitVec 5) (m : BitVec 2) (s : State) : Out :=
  slotOut .ve g (.vqnt g d a m) s fun s => do
    let td ← wholeTensor s .write true d (some false)
    let ta ← wholeTensor s .read true a (some false)
    vecShape td [ta]
    if td.d.fmt < 3 then .error (.fault 0x13 none)
    else
      match td.scale with
      | none => .error (opFault 3)
      | some sc => do
        let idxs := allIdx td.ext
        let kc := (idxs.map fun i => scaleCoords td.d false (coords td i)).eraseDups
        let homes ← pipeFault .write (homesOf (elemHomes s .write sc) kc)
        together [vecReach s { td with scale := none } [ta], if homes.any (emptyAt s) then .error .slip else .ok ()]
        let xs ← mapRead (srcVal s td ta) idxs
        let vals := idxs.zip xs
        let scales := runScales td false vals
        let outs := quantCodes td false m.toNat scales vals
        let c1 ← pipeFault .write (regionCells s td (idxs.zip (outs.map (·.1))))
        let c2 ← pipeFault .write (codeCells s sc scales)
        let nv ← sourceNv s [ta]
        let s' ← pipeWrite (c1 ++ c2) s
        .ok (raiseFlags .ve (outs.foldl (fun f o => f ||| o.2) nv) s')

/-- The rows of a region: the indexes of all dimensions but the innermost. -/
def rowsOf (ext : List Nat) : List (List Nat) := allIdx ext.dropLast

def rowLen (ext : List Nat) : Nat := ext.getLast?.getD 0

/-- A reduction (R140): one code and flags for each row of ha, hd having ha's extents with innermost extent 1. drains says that
each is a drained element (vsum), which takes no scale of hd. -/
def vecReduce (d a : BitVec 5) (drains : Bool) (f : State → Tens → List Nat → List Num → Except TransFault (Nat × Flags))
    (s : State) : Res State := do
  let td ← wholeTensor s .write true d (if drains then none else some false)
  let ta ← wholeTensor s .read true a (some false)
  vecSize td
  vecSize ta
  if td.ext ≠ ta.ext.dropLast ++ [1] then .error (opFault 1)
  else if drains && !drainFmt td.d.fmt then .error (.fault 0x13 none)
  else do
    vecReach s td [ta]
    let outs ← mapRead (fun r => do
      let vs ← (List.range (rowLen ta.ext)).mapM fun j => valAt s ta false (r ++ [j])
      f s td (r ++ [0]) vs) (rowsOf ta.ext)
    (if drains then vecDrain else vecWrite) td [ta] ((rowsOf ta.ext).map (· ++ [0])) outs s

/-- vsum (R140). -/
def execVsum (g : Guard) (d a : BitVec 5) (s : State) : Out :=
  slotOut .ve g (.vsum g d a) s (vecReduce d a true fun _ td _ vs =>
    let an := td.d.anchor.toInt
    .ok (faDrain an (vs.foldl (faAdd an) 0) td.d.fmt))

def execVmaxr (g : Guard) (d a : BitVec 5) (s : State) : Out :=
  slotOut .ve g (.vmaxr g d a) s (vecReduce d a false fun s td idx vs =>
    outCode s td 0 idx (match vs with | [] => .inf true | v :: vs => vs.foldl Num.maxN v))

def execVminr (g : Guard) (d a : BitVec 5) (s : State) : Out :=
  slotOut .ve g (.vminr g d a) s (vecReduce d a false fun s td idx vs =>
    outCode s td 0 idx (match vs with | [] => .inf false | v :: vs => vs.foldl Num.minN v))

def execVpopc (g : Guard) (d a : BitVec 5) (s : State) : Out :=
  slotOut .ve g (.vpopc g d a) s (vecReduce d a false fun s td idx vs =>
    outCode s td 0 idx (.ofInt (vs.filter fun v => !v.isZero).length))

/-- The accumulators of the positions of a row. -/
def scanFa (an : Int) : FaElem → List Num → List FaElem
  | _, [] => []
  | e, v :: vs => let e' := faAdd an e v; e' :: scanFa an e' vs

/-- vscan (R140, Table 7-7): hd has ha's extents. -/
def execVscan (g : Guard) (d a : BitVec 5) (s : State) : Out :=
  slotOut .ve g (.vscan g d a) s fun s => do
    let td ← wholeTensor s .write true d
    let ta ← wholeTensor s .read true a (some false)
    vecSize td
    vecSize ta
    if td.ext ≠ ta.ext then .error (opFault 1)
    else if !drainFmt td.d.fmt then .error (.fault 0x13 none)
    else do
      vecReach s td [ta]
      let an := td.d.anchor.toInt
      let outs ← mapRead (fun r => do
        let vs ← (List.range (rowLen ta.ext)).mapM fun j => valAt s ta false (r ++ [j])
        .ok ((scanFa an 0 vs).map fun e => faDrain an e td.d.fmt)) (rowsOf ta.ext)
      vecDrain td [ta] (allIdx td.ext) outs.flatten s

/-- A movement within rows (R141): each row of hd from the state, the row and the length. -/
def vecRows (td : Tens) (xs : List Tens) (f : List Nat → Except TransFault (List Num)) (s : State) : Res State := do
  vecReach s td xs
  let rows ← mapRead (fun r => do
    let vs ← f r
    (vs.zipIdx).mapM fun x => outCode s td 0 (r ++ [x.2]) x.1) (rowsOf td.ext)
  vecWrite td xs (allIdx td.ext) rows.flatten s

/-- A row of a source, broadcast where it has one element. -/
def rowVals (s : State) (td x : Tens) (r : List Nat) : Except TransFault (List Num) :=
  (List.range (rowLen td.ext)).mapM fun j => srcVal s td x (r ++ [j])

/-- The value that a vperm index takes from a row: +0 at or beyond the row's length. The spec states no value for a negative
index: draw number n (log 6). -/
def permVal (row : List Num) (n : Nat) (i : Int) : Num :=
  if i < 0 then decodeNum 0 [] ((Config.freeWord n).toNat % 2 ^ 32) else (row[i.toNat]?).getD Num.zero

/-- vperm (R141). -/
def execVperm (g : Guard) (d a b : BitVec 5) (s : State) : Out :=
  slotOut .ve g (.vperm g d a b) s fun s => do
    let td ← wholeTensor s .write true d (some false)
    let ta ← wholeTensor s .read true a (some false)
    let tb ← wholeTensor s .read true b
    vecShape td [ta, tb]
    if !isIndexFmt tb.d.fmt then .error (opFault 4)
    else do
      let s' ← vecRows td [ta, tb] (fun r => do
        let row ← rowVals s td ta r
        (List.range (rowLen td.ext)).mapM fun j => do
          let k ← srcCode s td tb (r ++ [j])
          .ok (permVal row (s.c.fresh + (r ++ [j]).foldl (fun n i => n * 65536 + i) 0) (intOfCode tb.d.fmt k))) s
      .ok (s'.onC fun c => { c with fresh := c.fresh + 65536 ^ td.ext.length })

/-- vcmpr (R141). -/
def execVcmpr (g : Guard) (d a b : BitVec 5) (s : State) : Out :=
  slotOut .ve g (.vcmpr g d a b) s fun s => do
    let td ← wholeTensor s .write true d (some false)
    let ta ← wholeTensor s .read true a (some false)
    let tb ← wholeTensor s .read true b (some false)
    vecShape td [ta, tb]
    vecRows td [ta, tb] (fun r => do
      let xs ← rowVals s td ta r
      let ks ← rowVals s td tb r
      let kept := ((xs.zip ks).filter fun x => !x.2.isZero).map (·.1)
      .ok (kept ++ List.replicate (rowLen td.ext - kept.length) Num.zero)) s

/-- Successive elements at the positions that hold (Table 7-8). -/
def spread : List Bool → List Num → List Num
  | [], _ => []
  | false :: ks, xs => Num.zero :: spread ks xs
  | true :: ks, [] => Num.zero :: spread ks []
  | true :: ks, x :: xs => x :: spread ks xs

/-- vexpd (R141): ha's innermost extent may differ from hd's; a single element is broadcast (R133). -/
def execVexpd (g : Guard) (d a b : BitVec 5) (s : State) : Out :=
  slotOut .ve g (.vexpd g d a b) s fun s => do
    let td ← wholeTensor s .write true d (some false)
    let ta ← wholeTensor s .read true a (some false)
    let tb ← wholeTensor s .read true b (some false)
    vecShape td [tb]
    if count ta.ext ≠ 1 ∧ (ta.ext.length ≠ td.ext.length ∨ ta.ext.dropLast ≠ td.ext.dropLast) then .error (opFault 1)
    else
     vecRows td [ta, tb] (fun r => do
      let xs ← if count ta.ext = 1 then rowVals s td ta r
        else (List.range (rowLen ta.ext)).mapM fun j => valAt s ta false (r ++ [j])
      let ks ← rowVals s td tb r
      .ok (spread (ks.map fun k => !k.isZero) xs)) s

/-- A value for each row-major position of hd (Table 7-8). -/
def vecFill (d : BitVec 5) (f : Nat → Num) (s : State) : Res State := do
  let td ← wholeTensor s .write true d (some false)
  vecShape td []
  vecReach s td []
  let outs ← pipeFault .read ((allIdx td.ext).zipIdx.mapM fun x => outCode s td 0 x.1 (f x.2))
  vecWrite td [] (allIdx td.ext) outs s

def execVbcast (g : Guard) (d : BitVec 5) (a : BitVec 6) (s : State) : Out :=
  slotOut .ve g (.vbcast g d a) s fun s => vecFill d (fun _ => fp32 (s.rdS a)) s

/-- viota (Table 7-8): sa + i is an exact integer; the spec does not wrap it to 64 bits (log 82). -/
def execViota (g : Guard) (d : BitVec 5) (a : BitVec 6) (s : State) : Out :=
  slotOut .ve g (.viota g d a) s fun s => vecFill d (fun i => .ofInt ((s.rdS a).toInt + i)) s

/-- vrng (R142): raw codes, no scales, no flags. -/
def execVrng (g : Guard) (d : BitVec 5) (a b : BitVec 6) (s : State) : Out :=
  slotOut .ve g (.vrng g d a b) s fun s => do
    let td ← wholeTensor s .write true d
    vecShape td []
    vecReach s td []
    let idxs := allIdx td.ext
    vecWrite td [] idxs (idxs.zipIdx.map fun x =>
      ((rngF (s.rdS a) (s.rdS b + BitVec.ofNat 64 x.2)).toNat % 2 ^ fmtWidth td.d.fmt, 0)) s

end Sys2Proof.Machine
end

