-- ==== Sys2Proof/Machine/Copy.lean ====
section
/-! DEFINITION. The cp slot: the copy engine's commands, their checks at issue and their execution; publishing and barrier arrival (R163 to R178, R186, R187, R204, R206, R207, R229, R326, R328, R402). -/

namespace Sys2Proof.Machine

/-- The address of the byte of a descriptor that holds CUR (Table 10-2). -/
def curVa (s : State) (id : Nat) : Nat := ((s.ctx?.map fun c => c.recd.dtbase).getD 0) + 64 * id + 46

/-- The home of that byte for a publish, which writes it for the task (R195, R305). -/
def curHome (s : State) (id : Nat) : Except TransFault Nat := translate s s.c.info.ctx .write false (curVa s id)

/-- Does a publish meet a word that it cannot read the rest of (R211)? -/
def curPoisoned (s : State) (id : Nat) : Bool := match curHome s id with | .ok a => homePoisoned s a | .error _ => false

/-- Swap a tensor's buffers: its descriptor's CUR is inverted (R187, R195). -/
def publish (id : Nat) (s : State) : State :=
  match curHome s id with
  | .error _ => s
  | .ok a => s.write [(a, homeByte s a ^^^ 0x20)]

/-- A publish as an engine makes it: lost permission is cause 0x70, a poisoned descriptor word cause 0x71 (R167, R211). -/
def engPublish (id : Nat) (cells : List Host.Cell) (s : State) : EngRes State :=
  match curHome s id with
  | .error f => .error (.fail 0x70 1 f.tval cells)
  | .ok a => if homePoisoned s a then .error (.fail 0x71 1 (BitVec.ofNat 64 (curVa s id)) cells)
    else .ok (s.write [(a, homeByte s a ^^^ 0x20)])

/-- The barrier as the task sees it. -/
def barOf (c : Core) (b : Nat) : Barrier := (SMap.get? c.bars b).getD ⟨0, false, false, false⟩

/-- The task's arrival is counted (R186). -/
def arrive (b level : Nat) (s : State) : State :=
  s.onC fun c => { c with bars := SMap.put c.bars b ⟨level, true, true, true⟩ }

/-- Would an arrival meet an incomplete generation at another level (cause 0x80)? -/
def levelClash (c : Core) (b level : Nat) : Bool := (barOf c b).begun && (barOf c b).level != level

/-- The elements of a region with row offsets (R170): destination index and source index. -/
def rowPairs (ext : List Nat) (od os : Nat) : List (List Nat × List Nat) :=
  match ext with
  | [] => []
  | e :: es => (List.range (e - od)).flatMap fun i => (allIdx es).map fun t => ((i + od) :: t, (i + os) :: t)

/-- Bits [15:0] of a staging register (R170). -/
def offs (w : Word) : Nat := w.toNat % 65536

/-- A destination of a command with a row offset, through the handle check, the scales that it uses with it: an offset at or
beyond the extent of dimension 0 leaves no index to touch (R45, R170, R197). -/
def offsetDst (s : State) (r : BitVec 5) (od : Nat) (use : Option Bool := none) : Res Tens := do
  let t ← useTens s r none
  rowsReach s .write false t (rowsFrom t.ext od (t.ext.head?.getD 0 - od))
  useTens s r use

/-- The source of n slices of a destination's shape from row offset os on: steps 1 to 3, the number of dimensions, the bounds
of every index touched, steps 4 and 5, the scales that it uses (R45, R164, R170, R197). -/
def offsetSrc (s : State) (r : BitVec 5) (td : Tens) (os n : Nat) (use : Option Bool := none) : Res Tens := do
  let t ← useTens s r none
  let e := t.ext.head?.getD 0
  let none_ := n == 0 || td.ext.tail.any (· == 0)
  if td.ext.length ≠ t.ext.length then .error (opFault 15)
  else if !none_ ∧ (e < os + n ∨ (t.ext.zip td.ext).tail.any fun x => decide (x.1 < x.2)) then .error (.fault 0x36 none)
  else do
    rowsReach s .read false t (if none_ then [] else rowsFrom td.ext os n)
    useTens s r use

/-- Reason 13: formats differ, or the codebook indices of formats 16 to 21 (R169). -/
def sameCodes (td ts : Tens) : Res Unit :=
  if td.d.fmt ≠ ts.d.fmt ∨ (16 ≤ td.d.fmt ∧ td.d.fmt ≤ 21 ∧ td.d.cbi ≠ ts.d.cbi) then .error (opFault 13) else .ok ()

/-- The tensors that a write of codes, and of scales where they are written, changes. -/
def writerIds (td : Tens) (withScale : Bool) : List Nat :=
  td.d.id :: (if withScale then (td.scale.map fun x => x.id).toList else [])

/-- A cp command as captured. -/
def cpCmd (i : Instr) (c : BitVec 4) (hd : BitVec 256) (ts : List Tens) (cnt wids : List Nat) (s : State) : Cmd :=
  { newCmd .cp i s with chan := c.toNat, ts := ts, hd := hd, cnt := cnt, wids := wids }

/-- The scale coordinates of a list of indexes. -/
def scaleKeys (td : Tens) (run0 : Bool) (idxs : List (List Nat)) : List (List Nat) :=
  match td.scale with
  | none => []
  | some _ => (idxs.map fun i => scaleCoords td.d run0 (coords td i)).eraseDups

/-- cpy (R171, R402). A source without need of its scales is captured without them, but is checked with them. -/
def execCpy (g : Guard) (c : BitVec 4) (d rs : BitVec 5) (s : State) : Out :=
  slotOut .cp g (.cpy g c d rs) s fun s => do
    let q := newCmd .cp (.cpy g c d rs) s
    let od := offs (q.stgAt 1)
    let td ← offsetDst s d od (some false)
    let t0 ← offsetSrc s rs td (offs (q.stgAt 0)) (td.ext.head?.getD 0 - od) (some false)
    let sw ← engScaleWrites s td.scale (scaleKeys td false ((rowPairs td.ext od 0).map (·.1)))
    sameCodes td t0
    let ts := if td.scale.isNone then { t0 with scale := none } else t0
    let ps := rowPairs td.ext od (offs (q.stgAt 0))
    let ws ← engWrites s td (ps.map (·.1))
    let rr ← engReads s ts false (ps.map (·.2))
    engHold s (ws ++ rr ++ sw)
    enqueue .cp (cpCmd (.cpy g c d rs) c (s.rdH d) [td, ts] (tilesOf (ws ++ sw)) (writerIds td true) s) s

/-- cpt (R171). -/
def execCpt (g : Guard) (c : BitVec 4) (d rs : BitVec 5) (s : State) : Out :=
  slotOut .cp g (.cpt g c d rs) s fun s => do
    let q := newCmd .cp (.cpt g c d rs) s
    let os := offs (q.stgAt 0)
    let oc := offs (q.stgAt 1)
    let td ← wholeTensor s .write false d
    let ts ← useTens s rs none
    match td.ext, ts.ext with
    | [e0, e1], [f0, f1] => do
      let touches := decide (e0 ≠ 0) && decide (e1 ≠ 0)
      if touches ∧ (f1 < oc + e0 ∨ f0 < os + e1) then .error (.fault 0x36 none)
      else do
        rowsReach s .read false ts (if touches then (List.range e1).map fun j => ([j + os], oc, e0) else [])
        sameCodes td ts
        if !([0, 1, 2, 7, 8, 11, 12].contains td.d.fmt) then .error (.fault 0x13 none)
        else do
          let ws ← engWrites s td (allIdx td.ext)
          let rr ← engReads s ts false ((allIdx td.ext).map fun i => [(i[1]?).getD 0 + os, (i[0]?).getD 0 + oc])
          engHold s (ws ++ rr)
          enqueue .cp (cpCmd (.cpt g c d rs) c (s.rdH d) [td, ts] (tilesOf ws) (writerIds td false) s) s
    | _, _ => .error (opFault 15)

/-- cpq (R172): two destinations, hd and the handle after it. -/
def execCpq (g : Guard) (c : BitVec 4) (d rs : BitVec 5) (m : BitVec 2) (s : State) : Out :=
  slotOut .cp g (.cpq g c d rs m) s fun s => do
    let q := newCmd .cp (.cpq g c d rs m) s
    let t1 ← wholeTensor s .write false d (some false)
    let k1 ← engScaleWrites s t1.scale (scaleKeys t1 false (allIdx t1.ext))
    let t2 ← wholeTensor s .write false (d + 1) (some true)
    let k2 ← engScaleWrites s t2.scale (scaleKeys t2 true (allIdx t2.ext))
    let ts ← offsetSrc s rs t1 (offs (q.stgAt 0)) (t1.ext.head?.getD 0)
    if t1.ext ≠ t2.ext ∨ t1.ext.length ≠ 2 then .error (opFault 15)
    else if 2 < ts.d.fmt ∨ t1.d.fmt < 3 ∨ t1.d.fmt ≠ t2.d.fmt then .error (.fault 0x13 none)
    else if t1.scale.isNone ∨ t2.scale.isNone then .error (opFault 3)
    else do
        let ps := rowPairs t1.ext 0 (offs (q.stgAt 0))
        let idxs := ps.map (·.1)
        let w1 ← engWrites s t1 idxs
        let w2 ← engWrites s t2 idxs
        let rr ← engReads s ts false (ps.map (·.2))
        let ws := w1 ++ w2 ++ k1 ++ k2
        engHold s (ws ++ rr)
        enqueue .cp (cpCmd (.cpq g c d rs m) c (s.rdH d) [t1, t2, ts] (tilesOf ws) (writerIds t1 true ++ writerIds t2 true) s) s

/-- cpqs (R173). -/
def execCpqs (g : Guard) (c : BitVec 4) (d rs : BitVec 5) (m : BitVec 2) (s : State) : Out :=
  slotOut .cp g (.cpqs g c d rs m) s fun s => do
    let q := newCmd .cp (.cpqs g c d rs m) s
    let td ← wholeTensor s .write false d (some false)
    let kr ← match td.scale with
      | none => .ok []
      | some x => pipeFault .read (homesOf (elemHomes s .read x) (scaleKeys td false (allIdx td.ext)))
    let ts ← offsetSrc s rs td (offs (q.stgAt 0)) (td.ext.head?.getD 0) (some false)
    if td.scale.isNone then .error (opFault 3)
    else do
      let ps := rowPairs td.ext 0 (offs (q.stgAt 0))
      let ws ← engWrites s td (ps.map (·.1))
      let rr ← engReads s ts false (ps.map (·.2))
      engHold s (ws ++ rr ++ kr)
      enqueue .cp (cpCmd (.cpqs g c d rs m) c (s.rdH d) [td, ts] (tilesOf ws) (writerIds td false) s) s

/-- The virtual address of a compressed block (R199). -/
def blockVa (t : Tens) : Nat := t.d.base + (t.org.head?.getD 0).toNat * t.res

/-- The home addresses of n bytes from an address on. -/
def byteHomes (s : State) (k : Acc) (va n : Nat) : Except TransFault (List Nat) :=
  (List.range n).mapM fun i => translate s s.c.info.ctx k false (va + i)

/-- Steps 4 and 5 for a block that is read or written in its whole reserve (R199); an empty region makes no access (R197). -/
def blockReach (s : State) (k : Acc) (t : Tens) : Res (List Nat) :=
  if t.view = 2 ∧ k = .write ∧ count t.ext ≠ 0 then .error (.fault 0x34 (some (tvalVa .write 3 (blockVa t))))
  else do
    let hs ← if count t.ext = 0 then .ok [] else pipeFault k (byteHomes s k (blockVa t) t.res)
    if t.res % 32 ≠ 0 ∨ t.res < 32 then .error (.fault 0x37 none) else .ok hs

/-- The block operand of cpz and cpx by its handle register: one of another layout is refused at step 5 of its handle check
(R174, R199). -/
def blockTensor (s : State) (k : Acc) (r : BitVec 5) : Res Tens := do
  let t ← useTens s r none
  if t.d.layout = 2 then do
    let _ ← blockReach s k t
    .ok t
  else do
    rowsReach s k false t (wholeRows t)
    .error (.fault 0x37 none)

/-- The region of cpz and cpx by its handle register from a row offset on (R197). -/
def regionTensor (s : State) (k : Acc) (r : BitVec 5) (o : Nat) : Res Tens := do
  let t ← useTens s r none
  rowsReach s k false t (rowsFrom t.ext o (t.ext.head?.getD 0 - o))
  .ok t

/-- cpz (R174, R206): the region spans the extents of hs less its row offset. R170 gives the span of hd's extents, and hd is one
block, whose extents R207 asks only for their product (DESIGN CHOICE, log 101). -/
def execCpz (g : Guard) (c : BitVec 4) (d rs : BitVec 5) (s : State) : Out :=
  slotOut .cp g (.cpz g c d rs) s fun s => do
    let q := newCmd .cp (.cpz g c d rs) s
    let td ← blockTensor s .write d
    let ts ← regionTensor s .read rs (offs (q.stgAt 0))
    let idxs := (rowPairs ts.ext (offs (q.stgAt 0)) 0).map (·.1)
    sameCodes td ts
    if td.ext.length ≠ ts.ext.length ∨ count td.ext ≠ idxs.length ∨ 65535 < idxs.length then .error (opFault 15)
    else do
      let ws ← blockReach s .write td
      let rr ← engReads s ts false idxs
      engHold s (ws ++ rr)
      enqueue .cp (cpCmd (.cpz g c d rs) c (s.rdH d) [td, ts] (tilesOf ws) (writerIds td false) s) s

/-- cpx (R174, R207). -/
def execCpx (g : Guard) (c : BitVec 4) (d rs : BitVec 5) (s : State) : Out :=
  slotOut .cp g (.cpx g c d rs) s fun s => do
    let q := newCmd .cp (.cpx g c d rs) s
    let ts ← blockTensor s .read rs
    let td ← regionTensor s .write d (offs (q.stgAt 1))
    let idxs := (rowPairs td.ext (offs (q.stgAt 1)) 0).map (·.1)
    if td.ext.length ≠ ts.ext.length ∨ count ts.ext ≠ idxs.length then .error (opFault 15)
    else do
      let ws ← engWrites s td idxs
      let rr ← blockReach s .read ts
      engHold s (ws ++ rr)
      enqueue .cp (cpCmd (.cpx g c d rs) c (s.rdH d) [td, ts] (tilesOf ws) (writerIds td false) s) s

/-- Fields of the binding word cp:3 (Table 9-7). -/
def bindBar (w : Word) : Nat := w.toNat / 2 ^ 16 % 64
def bindArrive (w : Word) : Bool := w.getLsbD 8
def bindLevel (w : Word) : Nat := w.toNat % 8

/-- cpk (R175): in a transaction its publish and arrival join at issue (R188). -/
def execCpk (g : Guard) (c : BitVec 4) (d rs : BitVec 5) (s : State) : Out :=
  slotOut .cp g (.cpk g c d rs) s fun s => do
    let q := newCmd .cp (.cpk g c d rs) s
    let od := offs (q.stgAt 1)
    let td ← offsetDst s d od
    let ts ← offsetSrc s rs td (offs (q.stgAt 0)) (td.ext.head?.getD 0 - od)
    let cur ← pipeFault .write (curHome s td.d.id)
    let w := q.stgAt 3
    if td.view ≠ 1 then .error (opFault 14)
    else do
      sameCodes td ts
      if s.c.info.nlev ≤ bindLevel w then .error (opFault 15)
      else do
        let ps := rowPairs td.ext od (offs (q.stgAt 0))
        let ws ← engWrites s td (ps.map (·.1))
        let rr ← engReads s ts false (ps.map (·.2))
        engHold s (ws ++ rr ++ [cur])
        let q := cpCmd (.cpk g c d rs) c (s.rdH d) [td, ts] [] (writerIds td false) s
        let q := { q with cnt := tilesOf ws, joined := s.c.txn.act }
        let s' ← enqueue .cp q s
        if s.c.txn.act then
          let s' := joinTxn (.pub td.d.id (q.no + 1)) s'
          .ok (if bindArrive w && s'.c.txn.act then joinTxn (.bara (bindBar w) (bindLevel w) (q.no + 1)) s' else s')
        else .ok s'

/-- The binding of a channel ends (R177, R204). -/
def unbindChan (c : BitVec 4) (s : State) : State :=
  s.onC fun k => { k with z := k.z.map fun x => if x.bound && x.chan == c then { x with bound := false, buf := [] } else x }

/-- cpbs (R176): it touches the elements from cp:0 on (R164); the binding stands from issue on; an earlier binding of z or of the channel ends, with its command (R204). -/
def execCpbs (g : Guard) (c : BitVec 4) (z : BitVec 3) (rs : BitVec 5) (s : State) : Out :=
  slotOut .cp g (.cpbs g c z rs) s fun s => do
    let ts ← useTens s rs none
    let q := cpCmd (.cpbs g c z rs) c 0 [ts] [] [] s
    let pos := (q.stgAt 0).toNat % 2 ^ 32
    let rr ← engReads s ts false ((allIdx ts.ext).drop pos)
    engHold s rr
    let s' ← enqueue .cp q s
    let old := s.c.cpq.filter fun x => match x.i with | .cpbs _ c' z' _ => c' == c || z' == z | _ => false
    let s' := old.foldl (fun s x => popCmd x s) s'
    let s' := unbindChan c s'
    .ok (onZ z.toNat (fun x => ⟨true, c, some ts, pos, false, 0, [], x.waits, none⟩) s')

/-- cpw (R168, R177). -/
def execCpw (g : Guard) (c : BitVec 4) (s : State) : Out :=
  slotOut .cp g (.cpw g c) s fun s =>
    if s.c.cpq.any fun q => q.chan == c.toNat then .error .stall else .ok s

/-- The bytes that a command would still write, as the region's codes stand (R177). -/
def wouldWrite (s : State) (q : Cmd) : List Host.Cell :=
  let s := unheld s
  match q.i, q.ts with
  | .cpy _ _ _ _, [td, ts] =>
    tellable s td ((rowPairs td.ext (offs (q.stgAt 1)) (offs (q.stgAt 0))).map fun p => (p.1, codeAt s ts p.2))
  | .cpk _ _ _ _, [td, ts] =>
    tellable s td ((rowPairs td.ext (offs (q.stgAt 1)) (offs (q.stgAt 0))).map fun p => (p.1, codeAt s ts p.2))
  | .cpt _ _ _ _, [td, ts] =>
    tellable s td ((allIdx td.ext).map fun i =>
      (i, codeAt s ts [(i[1]?).getD 0 + offs (q.stgAt 0), (i[0]?).getD 0 + offs (q.stgAt 1)]))
  | .cpf _ _ _, [td] =>
    tellable s td ((allIdx td.ext).map fun i => (i, .ok ((q.stgAt 0).toNat % 2 ^ fmtWidth td.d.fmt)))
  | _, _ => []

/-- cpf (R171). -/
def execCpf (g : Guard) (c : BitVec 4) (d : BitVec 5) (s : State) : Out :=
  slotOut .cp g (.cpf g c d) s fun s => do
    let td ← wholeTensor s .write false d
    let ws ← engWrites s td (allIdx td.ext)
    engHold s ws
    enqueue .cp (cpCmd (.cpf g c d) c (s.rdH d) [td] (tilesOf ws) (writerIds td false) s) s

/-- cpr (R178): the handle that its direction does not use is ignored. -/
def execCpr (g : Guard) (c : BitVec 4) (d rs : BitVec 5) (s : State) : Out :=
  slotOut .cp g (.cpr g c d rs) s fun s => do
    let q := newCmd .cp (.cpr g c d rs) s
    if (q.stgAt 1).getLsbD 63 then do
      let ts ← useTens s rs none
      let rr ← engReads s ts false (allIdx ts.ext)
      engHold s (2 ^ 64 :: rr)
      enqueue .cp (cpCmd (.cpr g c d rs) c 0 [ts] [] [] s) s
    else do
      let td ← useTens s d none
      let ws ← engWrites s td (allIdx td.ext)
      engHold s (2 ^ 64 :: ws)
      enqueue .cp (cpCmd (.cpr g c d rs) c (s.rdH d) [td] (tilesOf ws) (writerIds td false) s) s

/-- One step of CRC-32C, reflected (R175). -/
def crcBit (c : BitVec 32) : BitVec 32 := if c.getLsbD 0 then (c >>> 1) ^^^ 0x82F63B78 else c >>> 1

def crcByte (c : BitVec 32) (b : Byte) : BitVec 32 :=
  let x := c ^^^ b.setWidth 32
  crcBit (crcBit (crcBit (crcBit (crcBit (crcBit (crcBit (crcBit x)))))))

/-- CRC-32C with initial value and final XOR of all ones (R175). -/
def crc32c (bs : List Byte) : BitVec 32 := bs.foldl crcByte 0xFFFFFFFF ^^^ 0xFFFFFFFF

/-- The packed bytes of one row of codes (R175): from a word boundary, pads zero, up to the last byte that holds a bit of an
element. -/
def packRow (fmt : Nat) (codes : List Nat) : List Byte :=
  let n := codesPerWord fmt
  let b := fmtWidth fmt
  let words := chunks n (codes.length / n + 1) codes
  let bytes := words.flatMap fun w => natLe 4 ((w.zipIdx.map fun x => x.1 * 2 ^ (b * x.2)).foldl (· + ·) 0)
  let last := codes.length - 1
  if codes.isEmpty then [] else bytes.take (last / n * 4 + (last % n * b + b - 1) / 8 + 1)

/-- The codes of one packed row of k elements. -/
def unpackRow (fmt k : Nat) (bs : List Byte) : List Nat :=
  let n := codesPerWord fmt
  let b := fmtWidth fmt
  (List.range k).map fun i => leNat ((bs.drop (i / n * 4)).take 4) / 2 ^ (b * (i % n)) % 2 ^ b

/-- The bytes of a packed row of k elements. -/
def packLen (fmt k : Nat) : Nat := (packRow fmt (List.replicate k 0)).length

/-- Codes of a region in rows of a length. -/
def rowsBy (k : Nat) (codes : List Nat) : List (List Nat) := if k = 0 then [] else chunks k (codes.length / k + 1) codes

/-- A compressed block (R206, R207). -/
def blockOf (fmt : Nat) (codes : List Nat) : List Byte :=
  let kept := codes.filter (· != 0)
  let n := codesPerWord fmt
  let vlen := 4 * ((kept.length + n - 1) / n)
  let hdr := natLe 4 vlen ++ natLe 2 codes.length ++ [BitVec.ofNat 8 fmt]
  let chk := hdr.foldl (· ^^^ ·) 0xA5
  let mask := (codes.zipIdx.map fun x => if x.1 = 0 then 0 else 2 ^ x.2).foldl (· + ·) 0
  let vals := packRow fmt kept
  hdr ++ [chk] ++ List.replicate 8 0 ++ natLe (4 * ((codes.length + 31) / 32)) mask ++ vals
    ++ List.replicate (vlen - vals.length) 0

/-- Codes of the kept elements at the set bits of a mask. -/
def unmask : List Bool → List Nat → List Nat
  | [], _ => []
  | false :: ms, vs => 0 :: unmask ms vs
  | true :: ms, v :: vs => v :: unmask ms vs
  | true :: ms, [] => 0 :: unmask ms []

/-- Expand a block, or none where a check of R207 fails. Bits that the bitmask's padding has beyond COUNT are not looked at
(DESIGN CHOICE, log 102). -/
def expandBlock (fmt cnt res : Nat) (bs : List Byte) : Option (List Nat) :=
  let vlen := leAt bs 0 4
  let cw := (cnt + 31) / 32
  let mask := leAt bs 16 (4 * cw)
  let bits := (List.range cnt).map fun i => decide (mask / 2 ^ i % 2 = 1)
  let k := (bits.filter id).length
  let n := codesPerWord fmt
  if (bs.take 7).foldl (· ^^^ ·) 0xA5 ≠ (bs[7]?).getD 0 ∨ leAt bs 6 1 % 32 ≠ fmt ∨ leAt bs 4 2 ≠ cnt
      ∨ vlen ≠ 4 * ((k + n - 1) / n) ∨ res < 16 + 4 * cw + vlen then none
  else some (unmask bits (unpackRow fmt k (bs.drop (16 + 4 * cw))))

/-- Complete a cp command that writes cells. -/
def cpDone (q : Cmd) (cells : List Host.Cell) (fl : Flags) (detail : Word) (s : State) : EngRes State := do
  let s' ← engWrite cells detail s
  .ok (popCmd q (engFlags q fl s'))

/-- The scales that cpy writes (R402): of each run covered, the scale of the source run of its lowest-indexed copied element,
or 1.0. -/
def copyScales (s : State) (td ts : Tens) (ps : List (List Nat × List Nat)) : Except TransFault (List (List Nat × Nat)) :=
  (scaleKeys td false (ps.map (·.1))).mapM fun k =>
    match ps.find? fun p => scaleCoords td.d false (coords td p.1) == k, ts.scale with
    | some p, some x => do
      let c ← rawCode s x (scaleCoords ts.d false (coords ts p.2))
      .ok (k, c)
    | _, _ => .ok (k, 0x3F80)

/-- A host access lies, for every byte, in one host range that permits it (R326). -/
def hostAllows (s : State) (write : Bool) (a n : Nat) : Bool :=
  match s.ctx? with
  | none => false
  | some c => c.hranges.any fun r =>
      decide (r.2.base ≤ a) && decide (a + n ≤ r.2.limit) && (if write then r.2.tw else r.2.tr)

/-- Does a target of cpr exist, over a link that is up (R178, R326, R328, R373, R401)? -/
def remoteOk (s : State) (w : Word) (a n : Nat) : Bool :=
  let t := w.toNat % 65536
  if t = 0xFFFF then s.links.linkUp && s.links.ide && hostAllows s (w.getLsbD 63) a n
  else decide (t < 576) && s.links.pod.isSome && s.links.planes != 0 && ((s.ctx?.bind fun c => c.job).isSome)

/-- Raise barrier misuse, or count the arrival that a cpk is bound to (R175, R186). -/
def cpkArrive (q : Cmd) (s : State) : EngRes State :=
  let w := q.stgAt 3
  if !bindArrive w then .ok (popCmd q s)
  else if levelClash s.c (bindBar w) (bindLevel w) then .error (.fail 0x80 1 0 [])
  else if (barOf s.c (bindBar w)).arrived then .error .wait
  else .ok (popCmd q (arrive (bindBar w) (bindLevel w) s))

/-- The copy under way has published, which stands: its tiles fill (R200), and it arrives at once, or waits to arrive or to meet
its clash (R175). -/
def cpkPublished (q : Cmd) (s : State) : EngRes State :=
  let q' := { q with image := some (true, 0), cnt := [] }
  let s' := s.onC fun c => { c with
    cpq := c.cpq.map fun x => if x.no = q.no then q' else x
    counts := countDown q.cnt c.counts }
  match cpkArrive q' s' with
  | .error _ => .ok s'
  | r => r

/-- cpk at execution (R175): attempts that a corrupted read spoils, or a source that does not match, fail. -/
def cpkRun (env : EngineEnv) (q : Cmd) (td ts : Tens) (s : State) : EngRes State := do
  let ps := rowPairs td.ext (offs (q.stgAt 1)) (offs (q.stgAt 0))
  engReady q s ts false (ps.map (·.2))
  let codes ← engGet (ps.mapM fun p => codeAt s ts p.2)
  let cells ← engGet (regionCells s td ((ps.map (·.1)).zip codes))
  let packed := (rowsBy (rowLen td.ext) codes).flatMap (packRow ts.d.fmt)
  let want : BitVec 32 := (q.stgAt 2).setWidth 32
  let crc := crc32c packed
  if crc ≠ want ∨ 4 ≤ env.corrupt then
    let last : BitVec 32 := if crc ≠ want ∧ env.corrupt = 0 then crc else (Config.freeWord s.c.fresh).setWidth 32
    .error (.fail 0x74 4 (last.append want) cells)
  else do
    let s' ← engWrite cells (vaOf td ((ps.head?.map (·.1)).getD [])) s
    if q.joined then .ok (popCmd q s') else cpkPublished q (← engPublish td.d.id cells s')

/-- Saturated elements into sat14 or sat15, held at 2^48 - 1 (Table 9-9). -/
def addSat (c : Nat) (n : Nat) (s : State) : State :=
  s.onC fun k => if h : c - 14 < 2 then
    { k with sat := k.sat.set (c - 14) (BitVec.ofNat 64 (min (2 ^ 48 - 1) ((k.sat[c - 14]).toNat + n))) h } else k

/-- The scales of a destination that a command reads: reached, full and clean (R173, R201, R210). -/
def scaleReady (q : Cmd) (s : State) (td : Tens) (idxs : List (List Nat)) : EngRes Unit :=
  match td.scale with
  | none => .ok ()
  | some x =>
    (scaleKeys td false idxs).forM fun k =>
      match elemHomes s .read x k with
      | .error f => .error (.fail 0x70 1 f.tval [])
      | .ok hs =>
        if hs.any (emptyBut q s) then .error .wait
        else if hs.any (poisoned s) then .error (.fail 0x71 1 (BitVec.ofNat 64 ((elemAt x k).1 % 2 ^ 52)) [])
        else .ok ()

/-- Does a cpr name its own package, whose context of the job is the task's own (R328, R401)? -/
def selfTarget (s : State) (w : Word) : Bool := s.links.pod.any fun p => p.1 == w.toNat % 65536

/-- The bytes of a cpr's remote side that stand in this package's model: the host's memory, or the task's own context (R178,
R326, R328). Addresses of the task's own windows are no memory of the target's context. -/
def remoteHomes (s : State) (k : Acc) (w : Word) (a n : Nat) : Option (List Nat) :=
  if w.toNat % 65536 = 0xFFFF then some ((List.range n).map fun i => hostHome (a + i))
  else if selfTarget s w && decide (a + n ≤ 0xFFD * 2 ^ 40) then (byteHomes s k a n).toOption
  else none

/-- The execution of a cp command (R163 to R178). -/
def cpRun (env : EngineEnv) (q : Cmd) (s0 : State) : EngRes State := do
  let s := unheld s0
  let done (r : EngRes State) : EngRes State := r.map fun s' => s'.onC fun c => { c with spec := s0.c.spec }
  done (match q.i, q.ts with
  | .cpy _ _ _ _, [td, ts] => withCells (wouldWrite s q) do
    let ps := rowPairs td.ext (offs (q.stgAt 1)) (offs (q.stgAt 0))
    engReady q s ts false (ps.map (·.2))
    let codes ← engGet (ps.mapM fun p => codeAt s ts p.2)
    let c1 ← engGet (regionCells s td ((ps.map (·.1)).zip codes))
    let ks ← engGet (copyScales s td ts ps)
    let c2 ← match td.scale with
      | none => .ok []
      | some x => engGet (codeCells s x ks)
    cpDone q (c1 ++ c2) 0 (vaOf td ((ps.head?.map (·.1)).getD [])) s
  | .cpt _ _ _ _, [td, ts] => withCells (wouldWrite s q) do
    let idxs := allIdx td.ext
    let src := fun (i : List Nat) => [(i[1]?).getD 0 + offs (q.stgAt 0), (i[0]?).getD 0 + offs (q.stgAt 1)]
    engReady q s ts false (idxs.map src)
    let codes ← engGet (idxs.mapM fun i => codeAt s ts (src i))
    let cells ← engGet (regionCells s td (idxs.zip codes))
    cpDone q cells 0 (vaOf td (idxs.headD [])) s
  | .cpq _ _ _ _ m, [t1, t2, ts] => do
    let ps := rowPairs t1.ext 0 (offs (q.stgAt 0))
    let idxs := ps.map (·.1)
    engReach q s ts false (ps.map (·.2))
    let vs ← engGet (ps.mapM fun p => valAt s ts false p.2)
    let vals := idxs.zip vs
    let one (t : Tens) (run0 : Bool) : EngRes (List Host.Cell × Flags) := do
      let sc := runScales t run0 vals
      let outs := quantCodes t run0 m.toNat sc vals
      let c1 ← engGet (regionCells s t (idxs.zip (outs.map (·.1))))
      let c2 ← match t.scale with
        | none => .ok []
        | some x => engGet (codeCells s x sc)
      .ok (c1 ++ c2, outs.foldl (fun f o => f ||| o.2) 0)
    let (a, f1) ← one t1 false
    let (b, f2) ← one t2 true
    withCells (a ++ b) (engReady q s ts false (ps.map (·.2)))
    cpDone q (a ++ b) (f1 ||| f2) (vaOf t1 (idxs.headD [])) s
  | .cpqs _ c _ _ m, [td, ts] => do
    let ps := rowPairs td.ext 0 (offs (q.stgAt 0))
    engReach q s ts false (ps.map (·.2))
    scaleReady q s td (ps.map (·.1))
    let outs ← engGet (ps.mapM fun p => do
      let v ← valAt s ts false p.2
      let k ← scaleAt s td.d td.scale false (coords td p.1)
      let (x, f1) := divScale v k
      let (code, f2) := rndEx td.d.fmt td.d.cb m.toNat x
      .ok (code, f1 ||| f2))
    let cells ← engGet (regionCells s td ((ps.map (·.1)).zip (outs.map (·.1))))
    withCells cells (engReady q s ts false (ps.map (·.2)))
    let n := (outs.filter fun o => o.2 &&& flagSAT != 0).length
    let s' ← cpDone q cells (outs.foldl (fun f o => f ||| o.2) 0) (vaOf td ((ps.head?.map (·.1)).getD [])) s
    .ok (addSat c.toNat n s')
  | .cpz _ _ _ _, [td, ts] => do
    let idxs := (rowPairs ts.ext (offs (q.stgAt 0)) 0).map (·.1)
    engReady q s ts false idxs
    if idxs.isEmpty then .ok (popCmd q s)
    else do
      let codes ← engGet (idxs.mapM fun i => codeAt s ts i)
      let blk := blockOf ts.d.fmt codes
      let hs ← engGet (byteHomes s .write (blockVa td) td.res)
      if td.res < blk.length then .error (.fail 0x72 1 (BitVec.ofNat 64 (blockVa td + td.res)) (hs.zip blk))
      else cpDone q (hs.zip (blk ++ List.replicate (td.res - blk.length) 0)) 0 (BitVec.ofNat 64 (blockVa td)) s
  | .cpx _ _ _ _, [td, ts] => do
    let idxs := (rowPairs td.ext (offs (q.stgAt 1)) 0).map (·.1)
    if idxs.isEmpty then .ok (popCmd q s)
    else do
      let hs ← engGet (byteHomes s .read (blockVa ts) ts.res)
      if hs.any (emptyBut q s) then .error .wait
      else if hs.any (poisoned s) then .error (.fail 0x71 1 (BitVec.ofNat 64 (blockVa ts)) [])
      else match expandBlock td.d.fmt idxs.length ts.res (hs.map s.readByte) with
        | none => .error (.fail 0x73 1 0 [])
        | some codes => do
          let cells ← engGet (regionCells s td (idxs.zip codes))
          cpDone q cells 0 (vaOf td (idxs.headD [])) s
  | .cpk _ _ _ _, [td, ts] =>
    if q.image.isSome then cpkArrive q s else withCells (wouldWrite s q) (cpkRun env q td ts s)
  | .cpbs _ _ z _, [ts] =>
    let x := s.c.z[z.toNat]'z.isLt
    if !x.bound then .ok (popCmd q s)
    else if count ts.ext ≤ x.pos then .ok (popCmd q (onZ z.toNat (fun x => { x with ended := true }) s))
    else .error .wait
  | .cpf _ _ _, [td] => do
    let cells ← engGet (regionCells s td ((allIdx td.ext).map fun i => (i, (q.stgAt 0).toNat % 2 ^ fmtWidth td.d.fmt)))
    cpDone q cells 0 (vaOf td ((allIdx td.ext).headD [])) s
  | .cpr _ _ _ _, [t] =>
    let w := q.stgAt 1
    let a := (q.stgAt 0).toNat % 2 ^ 52
    let k := rowLen t.ext
    let rows := (rowsOf t.ext).length
    let n := rows * packLen t.d.fmt k
    if w.getLsbD 63 then do
      let idxs := allIdx t.ext
      engReady q s t false idxs
      let codes ← engGet (idxs.mapM fun i => codeAt s t i)
      let bytes := (rowsBy k codes).flatMap (packRow t.d.fmt)
      if !remoteOk s w a n then .error (.fail 0x77 1 (BitVec.ofNat 64 a) [])
      else if w.toNat % 65536 = 0xFFFF ∨ selfTarget s w then
        match remoteHomes s .write w a n with
        | none => .error (.fail 0x77 1 (BitVec.ofNat 64 a) [])
        | some hs => cpDone q (hs.zip bytes) 0 (BitVec.ofNat 64 a) s
      else if env.remote.isNone then .error (.fail 0x77 1 (BitVec.ofNat 64 a) [])
      else .ok (popCmd q s)
    else
      match if selfTarget s w ∨ w.toNat % 65536 = 0xFFFF then (remoteHomes s .read w a n).map fun hs => hs.map s.readByte else env.remote with
      | none => .error (.fail 0x77 1 (BitVec.ofNat 64 a) [])
      | some bs =>
        if !remoteOk s w a n then .error (.fail 0x77 1 (BitVec.ofNat 64 a) [])
        else if bs.length ≠ n then .error .wait
        else do
          let codes := (chunks (packLen t.d.fmt k) rows bs).flatMap (unpackRow t.d.fmt k)
          let cells ← engGet (regionCells s t ((allIdx t.ext).zip codes))
          cpDone q cells 0 (vaOf t ((allIdx t.ext).headD [])) s
  | _, _ => .ok (popCmd q s))

/-- The command at the head of a channel. -/
def chanHead (c : Core) (ch : BitVec 4) : Option Cmd := c.cpq.find? fun q => q.chan == ch.toNat

/-- CP_COMMAND_EXECUTE (R163). -/
def execCpCommandExecute (chan : BitVec 4) (env : EngineEnv) (s : State) : Out :=
  runCmd "CP_COMMAND_EXECUTE" (chanHead s.c chan) (cpRun env) s

/-- The bytes that a command of the channel, queued or executing, would still write (R177). -/
def abortCells (s : State) (q : Cmd) : List Host.Cell :=
  match q.i with
  | .cpy _ _ _ _ => wouldWrite s q
  | .cpk _ _ _ _ => if q.image.isSome then [] else wouldWrite s q
  | .cpt _ _ _ _ => wouldWrite s q
  | .cpf _ _ _ => wouldWrite s q
  | .cpbs _ _ _ _ => []
  | _ =>
    match cpRun .quiet q s with
    | .ok s' => wroteCells s s'
    | .error (.fail _ _ _ cells) => cells
    | .error _ => []

/-- cpab (R177): every command of the channel stops; its direct destination bytes are each prior or new. -/
def execCpab (g : Guard) (c : BitVec 4) (s : State) : Out :=
  slotOut .cp g (.cpab g c) s fun s =>
    let mine := s.c.cpq.filter fun q => q.chan == c.toNat
    let s := mine.foldl (fun s q => discardCmd q (applyFree (abortCells s q) s)) s
    let gone := fun (f : Failing) => f.cmd.slot == 5 && f.cmd.chan == c.toNat
    .ok (unbindChan c (s.onC fun k => { k with failing := if k.failing.any gone then none else k.failing }))

/-- The machine as a stream command translates that holds its translation of a page (R310, R311). -/
def withPage (e : Option RangeEntry) (s : State) : State :=
  match e, s.ctx? with
  | some e, some c => { s with mon := { s.mon with ctxs := SMap.put s.mon.ctxs s.c.info.ctx { c with ranges := (64, e) :: c.ranges } } }
  | _, _ => s

/-- The translation of the page of an element, as a command holds it from its first access on (R310): device memory alone is
mapped by pages. -/
def pageHold (s : State) (t : Tens) (idx : List Nat) : Option RangeEntry :=
  let va := (elemAt t.d (coords t idx)).1
  match translate s s.c.info.ctx .read false va with
  | .ok h =>
    if 2 ^ 48 ≤ homePhys h then none
    else
      let base := va / 4096 * 4096
      some ⟨base, base + 4096, BitVec.ofNat 64 (homePhys h) - BitVec.ofNat 64 va, true, true, false, false, decide (homeTag h = 0),
        false, homeTag h % 64, false⟩
  | .error _ => none

/-- STREAM_ELEMENT_DELIVERY (R176, R202): the next element of z, to the oldest waiting load or into the buffer. -/
def execStreamElementDelivery (z : BitVec 3) (s : State) : Out :=
  let x := s.c.z[z.toNat]'z.isLt
  let head := chanHead s.c x.chan
  match x.src, head with
  | some t, some q =>
    (match q.i with
    | .cpbs _ _ z' _ =>
      if z' ≠ z ∨ !x.bound ∨ x.ended ∨ count t.ext ≤ x.pos ∨ (64 ≤ x.buf.length ∧ x.waits.isEmpty) then
        .refused (.notEnabled "STREAM_ELEMENT_DELIVERY")
      else
        let idx := ((allIdx t.ext)[x.pos]?).getD []
        runCmd "STREAM_ELEMENT_DELIVERY" (some q) (fun q s => do
          let u := withPage x.page (unheld s)
          engReady q u t false [idx]
          let code ← engGet (codeAt u t idx)
          let v : Word := BitVec.ofNat 64 code
          let last := decide (count t.ext ≤ x.pos + 1)
          let step (y : Stream) : Stream := { y with pos := y.pos + 1, ended := last, page := if last then none else pageHold u t idx }
          let s' := match x.waits with
            | [] => onZ z.toNat (fun y => { step y with buf := y.buf ++ [v] }) s
            | w :: ws =>
              let s1 := onZ z.toNat (fun y => { step y with waits := ws, taken := y.taken + 1 }) s
              if w.1 = 0 then s1 else landLate ⟨cellDst w.1, v.setWidth 256, s1.c.now, 1, w.2, true⟩ s1
          .ok (if last then popCmd q s' else s')) s
    | _ => .refused (.notEnabled "STREAM_ELEMENT_DELIVERY"))
  | _, _ => .refused (.notEnabled "STREAM_ELEMENT_DELIVERY")

end Sys2Proof.Machine
end

