-- ==== Sys2Proof/Machine/Sparse.lean ====
section
/-! DEFINITION. The sp slot: gather, scatter, filter, masks, counting and the poste restante queue (R163 to R169, R179 to R182). -/

namespace Sys2Proof.Machine

/-- The indexes of row i: a slice along dimension 0. -/
def rowIdx (ext : List Nat) (i : Nat) : List (List Nat) := (allIdx ext.tail).map fun t => i :: t

def ext0 (t : Tens) : Nat := (t.ext.head?).getD 0

/-- ha and hd have one shape below dimension 0 (R179). -/
def sameRows (td ta : Tens) : Res Unit :=
  if td.ext.length ≠ ta.ext.length ∨ td.ext.tail ≠ ta.ext.tail then .error (opFault 15) else .ok ()

/-- An index tensor (reason 4) of one dimension that covers n rows (reason 15, Table 9-4). -/
def indexOk (t : Tens) (n : Nat) : Res Unit :=
  if !isIndexFmt t.d.fmt then .error (opFault 4)
  else if t.ext.length ≠ 1 ∨ ext0 t < n then .error (opFault 15)
  else .ok ()

/-- A mask tensor of at least n bits (reason 16). -/
def maskOk (t : Tens) (n : Nat) : Res Unit :=
  if t.d.fmt ≠ 12 ∨ t.ext.length ≠ 1 ∨ ext0 t < (n + 7) / 8 then .error (opFault 16) else .ok ()

/-- Queue an sp command with its tensors, its written tiles and its written tensors. -/
def spCmd (i : Instr) (hd : BitVec 256) (ts : List Tens) (ws : List Nat) (wids : List Nat) (s : State) : Cmd :=
  { newCmd .sp i s with ts := ts, hd := hd, cnt := tilesOf ws, wids := wids }

/-- An operand that an sp command reads, through every check of step 2 of R164: with its scales where it uses them. -/
def spSource (s : State) (r : BitVec 5) (use : Option Bool) : Res (Tens × List Nat) := do
  let t ← wholeTensor s .read false r use
  let hs ← engReads s t false (allIdx t.ext)
  .ok (t, hs)

/-- gth, sct, scta and flt: rows of one tensor into another (R179, R180). chk are the checks of formats and shapes, use says
whether ha is read with its scales, and old whether the command reads hd too. -/
def spRows (i : Instr) (d a b : BitVec 5) (chk : Tens → Tens → Tens → Res Unit) (use : Option Bool) (old : Bool) (s : State) :
    Res State := do
  let td ← wholeTensor s .write false d
  let rd ← if old then engReads s td false (allIdx td.ext) else .ok []
  let (ta, ra) ← spSource s a use
  let (tb, rb) ← spSource s b none
  chk td ta tb
  let ws ← engWrites s td (allIdx td.ext)
  engHold s (ws ++ ra ++ rb ++ rd)
  enqueue .sp (spCmd i (s.rdH d) [td, ta, tb] ws (writerIds td false) s) s

def execGth (g : Guard) (d a b : BitVec 5) (s : State) : Out :=
  slotOut .sp g (.gth g d a b) s (spRows (.gth g d a b) d a b (fun td ta tb => do
    sameCodes td ta
    sameRows td ta
    indexOk tb (ext0 td)) none false)

def execSct (g : Guard) (d a b : BitVec 5) (s : State) : Out :=
  slotOut .sp g (.sct g d a b) s (spRows (.sct g d a b) d a b (fun td ta tb => do
    sameCodes td ta
    sameRows td ta
    indexOk tb (ext0 ta)) none false)

/-- scta (R180). -/
def execScta (g : Guard) (d a b : BitVec 5) (s : State) : Out :=
  slotOut .sp g (.scta g d a b) s (spRows (.scta g d a b) d a b (fun td ta tb => do
    if 2 < td.d.fmt then .error (.fault 0x13 none)
    else do
      sameRows td ta
      indexOk tb (ext0 ta)) (some false) true)

def execFlt (g : Guard) (d a b : BitVec 5) (s : State) : Out :=
  slotOut .sp g (.flt g d a b) s (spRows (.flt g d a b) d a b (fun td ta tb => do
    sameCodes td ta
    sameRows td ta
    maskOk tb (ext0 ta)) none false)

/-- bmk (R179): a mask of a comparison. -/
def execBmk (g : Guard) (d a b : BitVec 5) (s : State) : Out :=
  slotOut .sp g (.bmk g d a b) s fun s => do
    let td ← wholeTensor s .write false d
    let (ta, ra) ← spSource s a (some false)
    let (tb, rb) ← spSource s b (some false)
    if tb.ext ≠ ta.ext ∧ count tb.ext ≠ 1 then .error (opFault 15)
    else do
      maskOk td (count ta.ext)
      let ws ← engWrites s td (span 0 ((count ta.ext + 7) / 8))
      engHold s (ws ++ ra ++ rb)
      enqueue .sp (spCmd (.bmk g d a b) (s.rdH d) [td, ta, tb] ws (writerIds td false) s) s

/-- cnt (R179, R181). -/
def execCnt (g : Guard) (d : BitVec 6) (a : BitVec 5) (s : State) : Out :=
  slotOut .sp g (.cnt g d a) s fun s => do
    let ta ← wholeTensor s .read false a
    maskOk ta 0
    let ra ← engReads s ta false (allIdx ta.ext)
    engHold s ra
    enqueue .sp { spCmd (.cnt g d a) 0 [ta] [] [] s with cell := destCell s d } (undoS d s)

/-- dfr (R182). -/
def execDfr (g : Guard) (a b : BitVec 5) (s : State) : Out :=
  slotOut .sp g (.dfr g a b) s fun s => do
    let ta ← wholeTensor s .read false a
    let tb ← wholeTensor s .read false b
    if ta.d.fmt ≠ 0 ∨ tb.d.fmt ≠ 12 then .error (.fault 0x13 none)
    else if ta.ext.length ≠ 2 ∨ (ta.ext[1]?).getD 0 < 1 ∨ 4 < (ta.ext[1]?).getD 0 then .error (opFault 15)
    else do
      maskOk tb (ext0 ta)
      let ra ← engReads s ta false (allIdx ta.ext)
      let rb ← engReads s tb false (allIdx tb.ext)
      engHold s (ra ++ rb)
      enqueue .sp (spCmd (.dfr g a b) 0 [ta, tb] [] [] s) s

/-- dfd (R182): both of its tensors are written. -/
def execDfd (g : Guard) (d a : BitVec 5) (s : State) : Out :=
  slotOut .sp g (.dfd g d a) s fun s => do
    let td ← wholeTensor s .write false d
    let ta ← wholeTensor s .write false a
    if td.d.fmt ≠ 0 ∨ ta.d.fmt ≠ 11 then .error (.fault 0x13 none)
    else if td.ext.length ≠ 2 ∨ (td.ext[1]?).getD 0 < 1 ∨ 4 < (td.ext[1]?).getD 0 ∨ ta.ext.length ≠ 1
        ∨ ext0 ta ≠ ext0 td then .error (opFault 15)
    else do
      let w1 ← engWrites s td (allIdx td.ext)
      let w2 ← engWrites s ta (allIdx ta.ext)
      engHold s (w1 ++ w2)
      enqueue .sp (spCmd (.dfd g d a) (s.rdH d) [td, ta] (w1 ++ w2) [td.d.id, ta.d.id] s) s

/-- The first n integers of an index tensor. -/
def indexVals (q : Cmd) (s : State) (t : Tens) (n : Nat) : EngRes (List Int) := do
  engReady q s t false (span 0 n)
  let cs ← engGet ((span 0 n).mapM (codeAt s t))
  .ok (cs.map (intOfCode t.d.fmt))

/-- The first n bits of a mask tensor (R179). -/
def maskBits (q : Cmd) (s : State) (t : Tens) (n : Nat) : EngRes (List Bool) := do
  let m := (n + 7) / 8
  engReady q s t false (span 0 m)
  let cs ← engGet ((span 0 m).mapM (codeAt s t))
  .ok ((List.range n).map fun i => decide ((cs[i / 8]?).getD 0 / 2 ^ (i % 8) % 2 = 1))

/-- A row number of a tensor, or none outside it. -/
def inRows (t : Tens) (x : Int) : Option Nat := if 0 ≤ x ∧ x < (ext0 t : Int) then some x.toNat else none

/-- The codes of a row. -/
def rowCodes (q : Cmd) (s : State) (t : Tens) (i : Nat) : EngRes (List Nat) := do
  engReady q s t false (rowIdx t.ext i)
  engGet ((rowIdx t.ext i).mapM (codeAt s t))

/-- Rows without those that a later row to the same place replaces. -/
def lastRows : List (Nat × List Nat) → List (Nat × List Nat)
  | [] => []
  | r :: rs => if rs.any fun x => x.1 == r.1 then lastRows rs else r :: lastRows rs

/-- Write rows of codes, of which a later one to the same row stands. -/
def putRows (q : Cmd) (td : Tens) (rows : List (Nat × List Nat)) (fl : Flags) (s : State) : EngRes State := do
  let l := (lastRows rows).flatMap fun r => (rowIdx td.ext r.1).zip r.2
  let cells ← engGet (regionCells s td l)
  cpDone q cells fl (vaOf td ((l.head?.map (·.1)).getD [])) s

/-- One row of scta (R180): the old values, then those of every selected row. -/
def sctaRow (s : State) (td ta : Tens) (row : Nat) (sel : List Nat) : Except TransFault (List (Nat × Flags)) :=
  (rowIdx td.ext row).mapM fun idx => do
    let an := td.d.anchor.toInt
    let old ← valAt s td false idx
    let e ← sel.foldlM (fun e i => do
      let v ← valAt s ta false (i :: idx.tail)
      .ok (faAdd an e v)) (faAdd an 0 old)
    .ok (faDrain an e td.d.fmt)

/-- The queue without the oldest n entries of a path. -/
def dropPath (path : BitVec 4) : Nat → List Poste → List Poste
  | _, [] => []
  | 0, l => l
  | n + 1, e :: es => if e.path == path then dropPath path n es else e :: dropPath path (n + 1) es

/-- |a| > |b|, false where either is NaN (bmk). -/
def magGreater (x y : Num) : Bool := !x.isNan && !y.isNan && Num.cmp x.abs y.abs == .gt

/-- The execution of an sp command (R179 to R182). -/
def spRun (env : EngineEnv) (q : Cmd) (s0 : State) : EngRes State := do
  let s := unheld s0
  let done (r : EngRes State) : EngRes State := r.map fun s' => s'.onC fun c => { c with spec := s0.c.spec }
  done (match q.i, q.ts with
  | .gth _ _ _ _, [td, ta, tb] => do
    let ix ← indexVals q s tb (ext0 td)
    let rows ← ix.mapM fun x => match inRows ta x with
      | some r => rowCodes q s ta r
      | none => .ok ((rowIdx td.ext 0).map fun _ => 0)
    putRows q td ((List.range (ext0 td)).zip rows) 0 s
  | .sct _ _ _ _, [td, ta, tb] => do
    let ix ← indexVals q s tb (ext0 ta)
    let sel := (ix.zipIdx.filterMap fun x => (inRows td x.1).map fun r => (r, x.2))
    let rows ← sel.mapM fun p => do
      let cs ← rowCodes q s ta p.2
      .ok (p.1, cs)
    putRows q td rows 0 s
  | .scta _ _ _ _, [td, ta, tb] => do
    let ix ← indexVals q s tb (ext0 ta)
    let sel := (ix.zipIdx.filterMap fun x => (inRows td x.1).map fun r => (r, x.2))
    let tgt := (sel.map (·.1)).eraseDups
    engReady q s ta false (sel.flatMap fun p => rowIdx ta.ext p.2)
    engReady q s td false (tgt.flatMap (rowIdx td.ext))
    let rows ← tgt.mapM fun r => do
      let o ← engGet (sctaRow s td ta r ((sel.filter fun p => p.1 == r).map (·.2)))
      .ok (r, o)
    let codes := rows.map fun r => (r.1, r.2.map (·.1))
    if env.residue then
      .error (.residue ((regionCells s td (codes.flatMap fun r => (rowIdx td.ext r.1).zip r.2)).toOption.getD []))
    else putRows q td codes ((rows.flatMap (·.2)).foldl (fun f o => f ||| o.2) 0) s
  | .flt _ _ _ _, [td, ta, tb] => do
    let bits ← maskBits q s tb (ext0 ta)
    let kept := (bits.zipIdx.filter fun b => b.1).map (·.2)
    if ext0 td < kept.length then .error (.fail 0x75 1 0 [])
    else do
      let rows ← kept.mapM (rowCodes q s ta)
      putRows q td ((List.range kept.length).zip rows) 0 s
  | .bmk _ _ _ _, [td, ta, tb] => do
    let idxs := allIdx ta.ext
    engReady q s ta false idxs
    engReady q s tb false (allIdx tb.ext)
    let bits ← engGet (idxs.mapM fun i => do
      let x ← valAt s ta false i
      let y ← valAt s tb false (pick ta tb i)
      .ok (magGreater x y))
    let bytes := (chunks 8 (bits.length / 8 + 1) bits).map fun b =>
      (b.zipIdx.map fun x => if x.1 then 2 ^ x.2 else 0).foldl (· + ·) 0
    let cells ← engGet (regionCells s td (bytes.zipIdx.map fun b => ([b.2], b.1)))
    cpDone q cells 0 (vaOf td [0]) s
  | .cnt _ _ _, [ta] => do
    let bits ← maskBits q s ta (8 * ext0 ta)
    .ok (popCmd q (landCell q (BitVec.ofNat 64 (bits.filter id).length) s))
  | .dfr _ _ _, [ta, tb] => do
    let w := (ta.ext[1]?).getD 0
    let bits ← maskBits q s tb (ext0 ta)
    let sel := (bits.zipIdx.filter fun b => b.1).map (·.2)
    let new ← sel.mapM fun i => do
      let cs ← rowCodes q s ta i
      .ok (⟨BitVec.ofNat 16 ((q.stgAt 0).toNat + i), (q.stgAt 1).setWidth 4, (cs.take w).map (BitVec.ofNat 32)⟩ : Poste)
    if 4096 < s.c.poste.length + new.length then .error (.fail 0x76 1 0 [])
    else .ok (popCmd q (s.onC fun c => { c with poste := c.poste ++ new }))
  | .dfd _ _ _, [td, ta] => do
    let path : BitVec 4 := (q.stgAt 0).setWidth 4
    let w := (td.ext[1]?).getD 0
    let got := (s.c.poste.filter fun e => e.path == path).take (ext0 td)
    let rows := (List.range (ext0 td)).map fun j =>
      (List.range w).map fun k => ((((got[j]?).bind fun e => e.vals[k]?)).getD 0).toNat
    let ids := (List.range (ext0 td)).map fun j => ((got[j]?).map fun e => e.index.toNat).getD 0xFFFF
    let c1 ← engGet (regionCells s td ((allIdx td.ext).zip rows.flatten))
    let c2 ← engGet (regionCells s ta ((allIdx ta.ext).zip ids))
    let s' ← cpDone q (c1 ++ c2) 0 (vaOf td [0, 0]) s
    .ok (s'.onC fun c => { c with poste := dropPath path got.length c.poste })
  | _, _ => .ok (popCmd q s))

/-- SP_COMMAND_EXECUTE (R163). -/
def execSpCommandExecute (env : EngineEnv) (s : State) : Out :=
  runCmd "SP_COMMAND_EXECUTE" s.c.spq.head? (spRun env) s

end Sys2Proof.Machine
end

