-- ==== Sys2Proof/Machine/Flags.lean ====
section
/-! DEFINITION. The feature vector and the special registers: what sread reads and what swrite writes (R73, R77, R88, R97, R101, R131, R147, R173, R188, R203, R233, R317, R375, R376, R383). -/

namespace Sys2Proof.Machine

/-- Features of Table 5-11. -/
def features : List Nat := [0, 1, 2, 3, 4, 5, 6, 7, 8, 9, 10, 11, 12, 32, 33, 34, 35, 36, 37, 38, 39, 64, 65, 66, 67, 68]

/-- Is a feature hidden by a mask (Table 16-6)? -/
def hidden (fm : Word) (n : Nat) : Bool :=
  if n ≤ 12 then fm.getLsbD n
  else if 32 ≤ n ∧ n ≤ 39 then fm.getLsbD n
  else if 64 ≤ n ∧ n ≤ 68 then fm.getLsbD (n - 24)
  else false

/-- The presented version. -/
def pver (fm : Word) : Nat := fm.toNat / 2 ^ 56

/-- The mask of the task's context; with no context nothing is hidden. -/
def fmaskOf (s : State) : Word := (s.ctx?.map fun c => c.recd.fmask).getD 0x0400000000000000

/-- One word of the feature vector under a mask (R73, R77). -/
def featWord (fm : Word) (k : Nat) : Word :=
  let bits := (features.filter fun n => n / 64 == k && !hidden fm n).foldl (fun w n => w ||| ((1 : Word) <<< (n % 64))) 0
  if k = 3 then bits ||| (BitVec.ofNat 64 (pver fm) <<< 56) else bits

/-- The feature of an assigned opcode (Tables 5-2 to 5-10); every mx opcode but 0 belongs to feature 64 (R69, R77). -/
def featureOf (k : Slot) (op : Nat) : Option Nat :=
  if op = 0 then some 0
  else match k with
    | .br => if op ≤ 0x10 then some 0 else if op ≤ 0x12 then some 33 else if op ≤ 0x14 then some 37 else if op ≤ 0x17 then some 0 else none
    | .sc =>
      if op ≤ 0x24 then some 1 else if op ≤ 0x35 then some 2 else if op = 0x36 then some 5 else if op ≤ 0x3B then some 4
      else if op ≤ 0x43 then some 3 else if op ≤ 0x4D then some 32 else none
    | .ar => if op ≤ 9 then some 6 else if op = 0x0A then some 65 else if op = 0x0B then some 66 else none
    | .ve =>
      if op ≤ 0x0A then some 7 else if op ≤ 0x12 then some 8 else if op ≤ 0x19 then some 7 else if op ≤ 0x1D then some 9
      else if op ≤ 0x28 then some 7 else if op = 0x29 then some 5 else none
    | .mx => some 64
    | .cp =>
      if op = 4 then some 67 else if op = 7 then some 39 else if op = 8 then some 38 else if op ≤ 0x0C then some 10 else none
    | .sp => if op ≤ 6 then some 11 else if op ≤ 8 then some 36 else none
    | .sy =>
      if op ≤ 6 then some 12 else if op ≤ 9 then some 34 else if op ≤ 0x0B then some 12 else if op ≤ 0x13 then some 35
      else if op ≤ 0x16 then some 12 else none

/-- Is a word masked at step 2 of R74 (R77)? -/
def masked (fm : Word) (k : Slot) (w : BitVec 32) : Bool :=
  match featureOf k (w.toNat / 2 ^ 20 % 128) with
  | some n => n != 0 && hidden fm n
  | none => false

/-- A special-register code that a version below 4 does not have (R317). -/
def v4Code (c : Nat) : Bool := (0x50 ≤ c && c ≤ 0x58) || c == 0x68 || c == 0x69

/-- One more masked decode (R77, R317); the counter saturates. -/
def countMasked (s : State) : State :=
  match s.ctx? with
  | none => s
  | some c =>
    let c' := { c with masked := if c.masked = BitVec.allOnes 64 then c.masked else c.masked + 1 }
    { s with mon := { s.mon with ctxs := SMap.put s.mon.ctxs s.c.info.ctx c' } }

/-- A special register whose sread counts as a masked access under a version below 4 (R317, log 71). -/
def countedCode (fm : Word) (c : Nat) : Bool := decide (pver fm < 4) && decide (0x38 ≤ c) && decide (c ≤ 0x3C)

/-- An undo tag (Table 3-5). -/
def undoTag (t : Trap) (k : Nat) : Word :=
  match t.undo[k]? with
  | none => 0
  | some u => 0x8000 ||| (u.cls.setWidth 64 <<< 12) ||| u.idx.setWidth 64

/-- Word j of a saved value (R32). -/
def undoWord (t : Trap) (k j : Nat) : Word :=
  match t.undo[k]? with
  | none => 0
  | some u => (u.val >>> (64 * j)).setWidth 64

/-- lstat (Table 6-2). -/
def lstatOf (c : Core) : Word :=
  BitVec.ofNat 64 (c.r.rpos.toNat * 2 ^ 36 + c.loops.length * 2 ^ 33 + (if c.drain then 2 ^ 32 else 0)
    + (c.loops.head?.map fun l => l.trip).getD 0)

/-- lcnt: T - trip of the innermost loop (R88). -/
def lcntOf (c : Core) : Word := BitVec.ofNat 64 ((c.loops.head?.map fun l => l.n + l.e - l.trip).getD 0)

/-- specst (Table 6-3). -/
def specstOf (c : Core) : Word :=
  match c.spec with
  | none => 0
  | some sp => BitVec.ofNat 64 (sp.pred % 16 * 2 ^ 8 + 2 ^ 7 + sp.held.length)

/-- xstat (Table 9-12). -/
def xstatOf (t : Txn) : Word :=
  BitVec.ofNat 64 (t.count % 32 * 2 ^ 8 + (if t.act then 2 ^ 7 else 0) + (if t.commit then 2 ^ 6 else 0) + t.reason.toNat)

/-- A stream status (Table 10-6). -/
def zstOf (z : Stream) : Word :=
  BitVec.ofNat 64 (z.taken.toNat * 2 ^ 16 + (if z.bound then 2 ^ 15 else 0) + (if z.ended then 2 ^ 14 else 0)
    + z.chan.toNat * 2 ^ 10 + z.buf.length)

/-- What sread copies, by code (Table 6-5). -/
def spRead (code : Nat) (s : State) : Word :=
  let c := s.c
  let t := c.trap
  if code = 0 then t.tstat
  else if code = 1 then t.tpc
  else if code = 2 then t.tval
  else if code = 3 then t.isav
  else if code = 4 then t.psnap.setWidth 64
  else if 0x08 ≤ code ∧ code ≤ 0x0E then undoTag t (code - 8)
  else if 0x10 ≤ code ∧ code ≤ 0x2B then undoWord t ((code - 0x10) / 4) ((code - 0x10) % 4)
  else if 0x30 ≤ code ∧ code ≤ 0x37 then (c.srec[code - 0x30]?).getD 0
  else if 0x38 ≤ code ∧ code ≤ 0x3B then featWord (fmaskOf s) (code - 0x38)
  else if code = 0x3C then (if pver (fmaskOf s) < 4 then 0 else fmaskOf s)
  else if code = 0x3D then (s.health.uavail[s.me / 64]?).getD 0
  else if 0x40 ≤ code ∧ code ≤ 0x47 then BitVec.ofNat 64 ((c.info.ranks[code - 0x40]?).getD 0)
  else if 0x48 ≤ code ∧ code ≤ 0x4F then BitVec.ofNat 64 ((c.info.extents[code - 0x48]?).getD 1)
  else if 0x50 ≤ code ∧ code ≤ 0x57 then (c.wm[code - 0x50]?).getD 0
  else if code = 0x58 then c.r.mtol
  else if code = 0x59 then xstatOf c.txn
  else if code = 0x5A then lstatOf c
  else if code = 0x5B then lcntOf c
  else if code = 0x5C then specstOf c
  else if 0x60 ≤ code ∧ code ≤ 0x67 then (c.z[code - 0x60]?.map zstOf).getD 0
  else if code = 0x68 ∨ code = 0x69 then (c.sat[code - 0x68]?).getD 0
  else 0

/-- Raise a reserved-field fault where any of the bits is set. -/
def res0 (bits : Word) : Res Unit := if bits = 0 then .ok () else .error (.fault 0x11 none)

/-- Save a special register in the undo list: CLASS 3, its sread code (Table 3-5). -/
def undoSp (code : Nat) (v : Word) (s : State) : State := pushUndo 3 (BitVec.ofNat 12 code) (v.setWidth 256) s

/-- Set one register of a vector of words. -/
def setW {n : Nat} (v : Vector Word n) (i : Nat) (x : Word) : Vector Word n := if h : i < n then v.set i x h else v

/-- swrite of tstat (R31, R101): only SCHK and RESUME are written. -/
def writeTstat (v : Word) (s : State) : Res State := do
  let t := s.c.trap
  res0 (v &&& 0xFFFFFFFF10F0F800)
  let resume := v.toNat / 2 ^ 16 % 16
  if 8 < resume then .error (.fault 0x11 none)
  else if !t.handler ∧ resume ≠ t.tstat.toNat / 2 ^ 16 % 16 then .error (.fault 0xC0 none)
  else
    let v' := (t.tstat &&& ~~~(0x800F0000 : Word)) ||| (v &&& 0x800F0000)
    .ok ((undoSp 0 t.tstat s).onC fun c => { c with trap := { c.trap with tstat := v' } })

/-- swrite of tpc and isav: in a handler only (R101). -/
def writeTpc (v : Word) (s : State) : Res State :=
  if s.c.trap.handler then .ok ((undoSp 1 s.c.trap.tpc s).onC fun c => { c with trap := { c.trap with tpc := v } })
  else .error (.fault 0xC0 none)

def writeIsav (v : Word) (s : State) : Res State :=
  if s.c.trap.handler then .ok ((undoSp 3 s.c.trap.isav s).onC fun c => { c with trap := { c.trap with isav := v } })
  else .error (.fault 0xC0 none)

/-- swrite of a sticky record (R375). -/
def writeSrec (r : Nat) (v : Word) (s : State) : Res State := do
  res0 (v &&& 0x7FE0000000000000)
  .ok ((undoSp (0x30 + r) ((s.c.srec[r]?).getD 0) s).onC fun c => { c with srec := setW c.srec r v })

/-- swrite of a watermark (R131, Table 7-4), with latency 1: an adrn of the same bundle tests the prior record (R20, R23). -/
def writeWm (w : Nat) (v : Word) (s : State) : Res State := do
  res0 (v &&& 0x7F80FFFFFFFFFF00)
  let old := (s.c.wm[w]?).getD 0
  .ok (post .br (.sp (0x50 + w)) (v.setWidth 256) 1 (undoSp (0x50 + w) old s))

/-- swrite of mtol (R147), with latency 1: an mx command of the same bundle captures the prior value (R14). -/
def writeMtol (v : Word) (s : State) : Res State := do
  res0 (v &&& 0xFFFFFFFF00000000)
  match decodeNum 0 [] (v.toNat % 2 ^ 32) with
  | .fin neg m _ =>
    if neg ∧ m ≠ 0 then .error (.fault 0x11 none)
    else .ok (post .br (.sp 0x58) (v.setWidth 256) 1 (undoSp 0x58 s.c.r.mtol s))
  | _ => .error (.fault 0x11 none)

/-- swrite of lstat (R88): RPOS alone is written, with latency 1, since operands of the bundle are named at its entry. -/
def writeLstat (v : Word) (s : State) : Res State := do
  res0 (v &&& 0xFFFFFF0000000000)
  let rp := v.toNat / 2 ^ 36 % 16
  if !s.c.loops.isEmpty ∧ rp ≠ s.c.r.rpos.toNat then .error (.fault 0x03 none)
  else .ok (post .br (.sp 0x5A) (BitVec.ofNat 256 rp) 1 (undoSp 0x5A (lstatOf s.c) s))

/-- swrite of a saturation counter (R173). -/
def writeSat (x : Nat) (v : Word) (s : State) : Res State := do
  res0 (v &&& 0xFFFF000000000000)
  .ok ((undoSp (0x68 + x) ((s.c.sat[x]?).getD 0) s).onC fun c => { c with sat := setW c.sat x v })

end Sys2Proof.Machine
end

