-- ==== Sys2Proof/Machine/Branch.lean ====
section
/-! DEFINITION. The br slot: branches, loops, predicates, ending, trapping, speculation, fused rows, special registers (R81 to R101). -/

namespace Sys2Proof.Machine

/-- Change the bundle in progress. -/
def onBun (f : Bundle → Bundle) (s : State) : State := s.onC fun c => { c with bun := f c.bun }

/-- A branch target: A + 32 * offset (R61). -/
def branchTarget (a : Word) {n : Nat} (o : BitVec n) : Word := a + 32 * o.signExtend 64

/-- A bundle that stands last in an active body may not hold the word: cause 0x03, at slot 0 (R84). In handler mode the loop
engine is suspended (R371). -/
def notLast (s : State) : Res Unit :=
  if !s.c.trap.handler && s.c.loops.any fun l => l.last == s.c.pc then .error (.fault 0x03 none) else .ok ()

/-- Redirect fetch (R81); ends says that the branch may end loops that it leaves (R82). -/
def redirect (ends : Bool) (t : Word) (s : State) : Res State := do
  notLast s
  .ok (onBun (fun b => { b with next := t, taken := ends }) s)

/-- Inside an emulation sequence a b names a bundle of the sequence or its end (R354); the sequence's position is its own
pc, and the target is an index relative to the bundle that holds the branch. -/
def emuBranch {n : Nat} (e : Emu) (o : BitVec n) (s : State) : Res State :=
  let t : Int := (e.pos : Int) + o.toInt
  if 0 ≤ t ∧ t ≤ e.len then .ok (onBun (fun b => { b with next := BitVec.ofNat 64 t.toNat, taken := true }) s)
  else
    let w := (((s.c.info.patch.emu[e.start + e.pos]?).getD [])[0]?).getD 0
    .error (.fault 0xD1 (some (patchTval e.pos e.patch w)))

/-- NOP: no effect (R61). -/
def execNop (g : Guard) (t : BitVec 4) (s : State) : Out :=
  slotOut .br g (.nop g t) s fun s => .ok s

/-- NOP of another slot (R61): no effect, in its lane neither. -/
def execNopSlot (_k : Slot) (_g : Guard) (s : State) : Out := .next s

/-- b (R81). -/
def execB (g : Guard) (o : BitVec 20) (s : State) : Out :=
  slotOut .br g (.b g o) s fun s =>
    match s.c.emu with
    | some e => emuBranch e o s
    | none => redirect true (branchTarget s.c.pc o) s

/-- jmp (R81): all 64 bits of sa. -/
def execJmp (g : Guard) (t : BitVec 4) (a : BitVec 6) (s : State) : Out :=
  slotOut .br g (.jmp g t a) s fun s => redirect true (s.brS a) s

/-- call (R81): the link is A + 32, in s47 of every core, and no loop ends (R82). -/
def execCall (g : Guard) (o : BitVec 20) (s : State) : Out :=
  slotOut .br g (.call g o) s fun s => do
    let s' ← redirect false (branchTarget s.c.pc o) s
    .ok (writeS .br 47 (s.c.pc + 32) 1 s')

/-- ret (R81). -/
def execRet (g : Guard) (t : BitVec 4) (a : BitVec 6) (s : State) : Out :=
  slotOut .br g (.ret g t a) s fun s => redirect true (s.brS a) s

/-- The bound of a loop bundle from its image's loop-bound table (R315). -/
def loopBound (s : State) : Option Nat := (s.c.info.loopBounds.find? fun b => b.1 == s.c.pc.toNat).map (·.2)

/-- Opening a loop (R83, R84, R315): T = 0 skips the body; otherwise the entry is pushed once the bundle completes. Where one
bundle meets several causes at slot 0 the spec gives no order: last in a body, the body's bound, the loop-bound table, then
the fifth entry (log 78). -/
def openLoop (rot pre : Bool) (rs : BitVec 6) (l : BitVec 12) (s : State) : Res State := do
  if s.c.trap.handler then .error (.fault 0x03 none)
  else
    notLast s
    let w := (s.brS rs).toNat
    let n := w % 2 ^ 32
    let e := if rot then w / 2 ^ 32 % 16 else 0
    let len := l.toNat + 1
    let a := s.c.pc
    let last := a + BitVec.ofNat 64 (32 * len)
    if s.c.loops.head?.any fun x => decide (x.last.toNat < last.toNat) then .error (.fault 0x03 none)
    else if (loopBound s).any fun b => decide (b < n + e) then .error (.fault 0x04 none)
    else if 4 ≤ s.c.loops.length ∧ n + e ≠ 0 then .error (.fault 0x02 none)
    else if n + e = 0 then .ok (onBun (fun b => { b with next := a + BitVec.ofNat 64 (32 * (len + 1)) }) s)
    else
      let s := onBun (fun b => { b with push := some ⟨a + 32, last, n, e, 0, rot, pre, none⟩ }) s
      if rot then
        .ok ((List.range 7).foldl (fun s i => writeP .br (BitVec.ofNat 4 (9 + i)) false 1 s) (writeP .br 8 (decide (0 < n)) 1 s))
      else .ok s

def execLoop (g : Guard) (rs : BitVec 6) (l : BitVec 12) (s : State) : Out :=
  slotOut .br g (.loop g rs l) s (openLoop false false rs l)

def execLoopRot (g : Guard) (rs : BitVec 6) (l : BitVec 12) (s : State) : Out :=
  slotOut .br g (.loopRot g rs l) s (openLoop true false rs l)

def execLoopPre (g : Guard) (rs : BitVec 6) (l : BitVec 12) (s : State) : Out :=
  slotOut .br g (.loopPre g rs l) s (openLoop false true rs l)

def execLoopRotPre (g : Guard) (rs : BitVec 6) (l : BitVec 12) (s : State) : Out :=
  slotOut .br g (.loopRotPre g rs l) s (openLoop true true rs l)

/-- lbrk (R87): the innermost loop ends once the bundle has completed; cause 0x03 with none active, and in handler mode
(R371). -/
def execLbrk (g : Guard) (t : BitVec 4) (s : State) : Out :=
  slotOut .br g (.lbrk g t) s fun s =>
    if s.c.trap.handler ∨ s.c.loops.isEmpty then .error (.fault 0x03 none)
    else .ok (onBun (fun b => { b with lbrk := true }) s)

/-- pmark: a safe point (R93); a nop in handler mode (R371). -/
def execPmark (g : Guard) (t : BitVec 4) (s : State) : Out :=
  slotOut .br g (.pmark g t) s fun s =>
    .ok (if s.c.trap.handler then s else onBun (fun b => { b with safe := true }) s)

/-- The predicate instructions (R89), latency 1. -/
def execPset (g : Guard) (t : BitVec 4) (d : BitVec 4) (s : State) : Out :=
  slotOut .br g (.pset g t d) s fun s => .ok (writeP .br d true 1 s)

def execPclr (g : Guard) (t : BitVec 4) (d : BitVec 4) (s : State) : Out :=
  slotOut .br g (.pclr g t d) s fun s => .ok (writeP .br d false 1 s)

def execPand (g : Guard) (t : BitVec 4) (d a b : BitVec 4) (s : State) : Out :=
  slotOut .br g (.pand g t d a b) s fun s => .ok (writeP .br d (s.rdP a && s.rdP b) 1 s)

def execPor (g : Guard) (t : BitVec 4) (d a b : BitVec 4) (s : State) : Out :=
  slotOut .br g (.por g t d a b) s fun s => .ok (writeP .br d (s.rdP a || s.rdP b) 1 s)

def execPxor (g : Guard) (t : BitVec 4) (d a b : BitVec 4) (s : State) : Out :=
  slotOut .br g (.pxor g t d a b) s fun s => .ok (writeP .br d (s.rdP a != s.rdP b) 1 s)

def execPnot (g : Guard) (t : BitVec 4) (d a : BitVec 4) (s : State) : Out :=
  slotOut .br g (.pnot g t d a) s fun s => .ok (writeP .br d (!s.rdP a) 1 s)

/-- end (R90): fetch halts once the bundle has completed. -/
def execEndTask (g : Guard) (t : BitVec 4) (s : State) : Out :=
  slotOut .br g (.endTask g t) s fun s => .ok (onBun (fun b => { b with ended := true }) s)

/-- trap (R91): cause 0x00 at slot 0, tval := zext(code). -/
def execTrap (g : Guard) (t : BitVec 4) (c : BitVec 8) (s : State) : Out :=
  slotOut .br g (.trap g t c) s fun _ => .error (.fault 0x00 (some (c.setWidth 64)))

/-- rett (R92): legal in a handler only; the bundle completes, then the return is made. Outside one, and standing last in a loop
body, it meets two causes of slot 0, and the spec gives no order: that of R84 comes first (log 78). -/
def execRett (g : Guard) (t : BitVec 4) (s : State) : Out :=
  slotOut .br g (.rett g t) s fun s =>
    if s.c.trap.handler then .ok (onBun (fun b => { b with rett := true }) s)
    else do
      notLast s
      .error (.fault 0xC0 none)

/-- spec (R96): nested speculation 0xB0, in handler mode too (R371); 0xB1 in a fused row. Opened once the bundle completes. These
come before cause 0x03 of a spec that stands last in a loop body; the spec gives no order (log 78). -/
def execSpec (g : Guard) (p : BitVec 4) (o : BitVec 16) (s : State) : Out :=
  slotOut .br g (.spec g p o) s fun s => do
    if s.c.trap.handler ∨ s.c.spec.isSome then .error (.fault 0xB0 none)
    else if s.c.fused.fused then .error (.fault 0xB1 none)
    else
      notLast s
      .ok (onBun (fun b => { b with spec := some (p, branchTarget s.c.pc o) }) s)

/-- specx (R98): aborts the active speculation; a nop with none. -/
def execSpecx (g : Guard) (t : BitVec 4) (s : State) : Out :=
  slotOut .br g (.specx g t) s fun s => do
    notLast s
    .ok (if s.c.spec.isSome then onBun (fun b => { b with abort := true }) s else s)

/-- dcpl (R100): releases a fused row; a nop in a core that is not fused. -/
def execDcpl (g : Guard) (t : BitVec 4) (s : State) : Out :=
  slotOut .br g (.dcpl g t) s fun s => .ok (if s.c.fused.fused then onBun (fun b => { b with dcpl := true }) s else s)

/-- rjn (R100): a nop in a core that was never fused or still is. The other cores of the row come at a moment that no rule
counts; a follower that differs from the leader, or whose leader has ended, as the launch table may know (R240), raises cause 0x84
(log 16). -/
def execRjn (g : Guard) (t : BitVec 4) (s : State) : Out :=
  slotOut .br g (.rjn g t) s fun s =>
    let f := s.c.fused
    if !f.ever ∨ f.fused then .ok s
    else if f.rank ≠ 0 ∧ (0 < rowEnded s (· == 0) ∨ Config.leaderEnded s.c.fresh ∨ Config.leaderWord s.c.fresh ≠ s.c.pc + 32) then
      .error (.fault 0x84 none)
    else .ok (onBun (fun b => { b with rejoin := true }) (s.onC fun c => { c with fresh := c.fresh + 1 }))

/-- sread of a register with no read behaviour of its own (R101), latency 2; under a version below 4, one of fmask or feat0 to
feat3 counts as a masked access (R317). -/
def execSread (g : Guard) (t : BitVec 4) (d : BitVec 6) (c : BitVec 10) (s : State) : Out :=
  slotOut .br g (.sread g t d c) s fun s =>
    let s' := writeS .br d (spRead c.toNat s) 2 s
    .ok (if countedCode (fmaskOf s) c.toNat then countMasked s' else s')

/-- sread of a watermark: it waits for every earlier ar operation (R131); those that have not slipped have completed. -/
def execSreadWm (g : Guard) (t : BitVec 4) (d : BitVec 6) (w : BitVec 3) (s : State) : Out :=
  slotOut .br g (.sreadWm g t d w) s fun s =>
    if !(laneOf s 1).isEmpty then .error .stall else .ok (writeS .br d (spRead (0x50 + w.toNat) s) 2 s)

/-- sread of a sticky record (R376): it waits for the slot's earlier commands, and for its lane. -/
def execSreadSrec (g : Guard) (t : BitVec 4) (d : BitVec 6) (r : BitVec 3) (s : State) : Out :=
  slotOut .br g (.sreadSrec g t d r) s fun s =>
    let busy :=
      match r.toNat with
      | 0 => false
      | 1 => !(laneOf s 0).isEmpty
      | 2 => !(laneOf s 1).isEmpty
      | 3 => !(laneOf s 2).isEmpty
      | 4 => !s.c.mxq.isEmpty
      | 5 => !s.c.cpq.isEmpty
      | 6 => !s.c.spq.isEmpty
      | _ => !s.c.syq.isEmpty
    if busy then .error .stall else .ok (writeS .br d (spRead (0x30 + r.toNat) s) 2 s)

/-- sread of a saturation counter (R173): it waits for every earlier command of that channel. -/
def execSreadSat (g : Guard) (t : BitVec 4) (d : BitVec 6) (x : BitVec 1) (s : State) : Out :=
  slotOut .br g (.sreadSat g t d x) s fun s =>
    if s.c.cpq.any fun q => q.chan == 14 + x.toNat then .error .stall
    else .ok (writeS .br d (spRead (0x68 + x.toNat) s) 2 s)

/-- swrite of a register that is read only: ignored (R4, R101). -/
def execSwrite (g : Guard) (t : BitVec 4) (rs : BitVec 6) (c : BitVec 10) (s : State) : Out :=
  slotOut .br g (.swrite g t rs c) s fun s => .ok s

def execSwriteTstat (g : Guard) (t : BitVec 4) (rs : BitVec 6) (s : State) : Out :=
  slotOut .br g (.swriteTstat g t rs) s fun s => writeTstat (s.rdS rs) s

def execSwriteTpc (g : Guard) (t : BitVec 4) (rs : BitVec 6) (s : State) : Out :=
  slotOut .br g (.swriteTpc g t rs) s fun s => writeTpc (s.rdS rs) s

def execSwriteIsav (g : Guard) (t : BitVec 4) (rs : BitVec 6) (s : State) : Out :=
  slotOut .br g (.swriteIsav g t rs) s fun s => writeIsav (s.rdS rs) s

def execSwriteSrec (g : Guard) (t : BitVec 4) (rs : BitVec 6) (r : BitVec 3) (s : State) : Out :=
  slotOut .br g (.swriteSrec g t rs r) s fun s => writeSrec r.toNat (s.rdS rs) s

/-- swrite of a watermark (R131). It waits for the ar operations that wait in their lane, so that the register takes its values and
drains test them in issue order; R131 interlocks sread alone (DESIGN CHOICE, log 98). -/
def execSwriteWm (g : Guard) (t : BitVec 4) (rs : BitVec 6) (w : BitVec 3) (s : State) : Out :=
  slotOut .br g (.swriteWm g t rs w) s fun s =>
    match writeWm w.toNat (s.rdS rs) s with
    | .ok s' => if (laneOf s 1).isEmpty then .ok s' else .error .stall
    | r => r

def execSwriteMtol (g : Guard) (t : BitVec 4) (rs : BitVec 6) (s : State) : Out :=
  slotOut .br g (.swriteMtol g t rs) s fun s => writeMtol (s.rdS rs) s

def execSwriteLstat (g : Guard) (t : BitVec 4) (rs : BitVec 6) (s : State) : Out :=
  slotOut .br g (.swriteLstat g t rs) s fun s => writeLstat (s.rdS rs) s

def execSwriteSat (g : Guard) (t : BitVec 4) (rs : BitVec 6) (x : BitVec 1) (s : State) : Out :=
  slotOut .br g (.swriteSat g t rs x) s fun s => writeSat x.toNat (s.rdS rs) s

/-- bkpt (R94): halts for debug before any slot of its bundle commits where breakpoints are enabled; on resume, and
otherwise, a nop. -/
def execBkpt (g : Guard) (t : BitVec 4) (k : BitVec 16) (s : State) : Out :=
  slotOut .br g (.bkpt g t k) s fun s =>
    if (s.ctx?.map fun c => c.bkpts).getD false && !s.c.bkptSkip then
      if speculating s then .error (specWait s)
      else if waitsInFlight s.c then .error .stall
      else .ok (s.onC fun c =>
        let c := haltNow c
        { c with bkptTag := k, bkptSkip := true, bun := { c.bun with stopped := true } })
    else .ok (s.onC fun c => { c with bkptSkip := false })

end Sys2Proof.Machine
end

