-- ==== Sys2Proof/Machine/Sync.lean ====
section
/-! DEFINITION. The sy slot at issue: phases, barriers, publishes, fences, transactions, collectives, plan commands, statistics, events (R183 to R192, R213 to R222, R252). -/

namespace Sys2Proof.Machine

/-- A sy command as captured. -/
def syCmd (i : Instr) (s : State) : Cmd := newCmd .sy i s

/-- sy:0 and sy:1 as the bundle reads them. -/
def sy0 (s : State) : Word := s.rdStg 24
def sy1 (s : State) : Word := s.rdStg 25

/-- The scope level of sy:0, which must lie below the launch's level count (R183). -/
def syLevel (s : State) : Res Nat :=
  let l := (sy0 s).toNat % 8
  if s.c.info.nlev ≤ l then .error (opFault 15) else .ok l

/-- phase (R184): it applies the ranked atomics issued so far (R116); cause 0xA2 in a transaction. -/
def execPhase (g : Guard) (l : BitVec 3) (s : State) : Out :=
  slotOut .sy g (.phase g l) s fun s =>
    if s.c.txn.act then .error (.fault 0xA2 none)
    else do
      let no := s.c.cmdNo
      let s' ← enqueue .sy (syCmd (.phase g l) s) s
      .ok (s'.onC fun c => { c with ranked := c.ranked.map fun r => if r.armed.isNone then { r with armed := some no } else r })

/-- bara (R186): the arrival joins an open transaction (R188). -/
def execBara (g : Guard) (b : BitVec 6) (s : State) : Out :=
  slotOut .sy g (.bara g b) s fun s => do
    let l ← syLevel s
    if levelClash s.c b.toNat l then .error (.fault 0x80 none)
    else if s.c.txn.act then .ok (joinTxn (.bara b.toNat l 0) s)
    else enqueue .sy { syCmd (.bara g b) s with x := BitVec.ofNat 64 l } s

/-- Is an arrival of the task at a barrier under way: queued, bound to a queued cpk, joined, or counted in a generation that
is not complete? -/
def arrivalPending (c : Core) (b : Nat) : Bool :=
  (c.syq.any fun q => match q.i with | .bara _ k => k.toNat == b | .bar _ k => k.toNat == b | _ => false)
    || (c.cpq.any fun q => match q.i with
      | .cpk _ _ _ _ => bindArrive (q.stgAt 3) && bindBar (q.stgAt 3) == b && !q.joined
      | _ => false)
    || (c.txn.acts.any fun a => match a with | .bara k _ _ => k == b | _ => false)
    || (barOf c b).arrived

/-- The wait of barw (R186): on the task's latest arrival; cause 0x80 with none since the last completed barw. -/
def barWait (b : Nat) (s : State) : Res State :=
  if arrivalPending s.c b then .error .stall
  else if (barOf s.c b).issued then
    .ok (s.onC fun c => { c with bars := SMap.put c.bars b { barOf c b with issued := false } })
  else .error (.fault 0x80 none)

def execBarw (g : Guard) (b : BitVec 6) (s : State) : Out :=
  slotOut .sy g (.barw g b) s (barWait b.toNat)

/-- bar (R186): it arrives at its first issue, which waits; where the core's record names this bundle it is barw. -/
def execBar (g : Guard) (b : BitVec 6) (s : State) : Out :=
  slotOut .sy g (.bar g b) s fun s =>
    if s.c.barRec = some s.c.pc then barWait b.toNat s
    else do
      let l ← syLevel s
      if levelClash s.c b.toNat l then .error (.fault 0x80 none)
      else
        let s' ← if s.c.txn.act then .ok (joinTxn (.bara b.toNat l 0) s)
          else enqueue .sy { syCmd (.bar g b) s with x := BitVec.ofNat 64 l } s
        .ok (stalled (s'.onC fun c => { c with barRec := some c.pc }))

/-- The latest earlier writer of a tensor: its number plus 1, 0 for none, and whether it failed (R187). -/
def latestWriter (c : Core) (id : Nat) : Nat × Bool :=
  match SMap.get? c.writers id with
  | some (no, bad) => (no + 1, bad)
  | none => (0, false)

/-- pub (R187): it joins an open transaction (R188), where a failed writer leaves nothing to swap. -/
def execPub (g : Guard) (h : BitVec 5) (s : State) : Out :=
  slotOut .sy g (.pub g h) s fun s => do
    let t ← useTens s h none
    let _ ← pipeFault .write (curHome s t.d.id)
    if !layoutOk t then .error (.fault 0x37 none)
    else if t.view ≠ 1 then .error (opFault 14)
    else
      let _ ← syLevel s
      let (w, bad) := latestWriter s.c t.d.id
      if s.c.txn.act then .ok (if bad then joinTxn (.store []) s else joinTxn (.pub t.d.id w) s)
      else enqueue .sy { syCmd (.pub g h) s with ts := [t], hd := s.rdH h, x := BitVec.ofNat 64 w, void := bad } s

/-- fence (R185). -/
def execFence (g : Guard) (l : BitVec 3) (s : State) : Out :=
  slotOut .sy g (.fence g l) s fun s => enqueue .sy (syCmd (.fence g l) s) s

/-- Operations that wait in the slip lanes: a transaction opens, ends and aborts behind them (R222, Table 11-4). -/
def lanesHold (s : State) : Bool := s.c.lanes.any fun l => !l.isEmpty

/-- xbeg (R188): every access before it is performed first (R222). -/
def execXbeg (g : Guard) (s : State) : Out :=
  slotOut .sy g (.xbeg g) s fun s =>
    if s.c.txn.act then .error (.fault 0xA1 none)
    else if !s.c.syq.isEmpty || lanesHold s then .error .stall
    else .ok (s.onC fun c => { c with txn := ⟨true, [], false, 0, 0⟩ })

/-- The address of a word of a statistics entry (R251). -/
def statVa (s : State) (id w : Nat) : Nat := ((s.ctx?.map fun c => c.recd.stbase).getD 0) + 64 * id + 8 * w

/-- One word of a statistics entry, at its home address (R251): an access of the task (R305). -/
def statHome (s : State) (k : Acc) (id w : Nat) : Except TransFault Nat :=
  translate s s.c.info.ctx k false (statVa s id w)

/-- The bits of a statistics word that software writes (Table 14-4). -/
def statMask (w : Nat) : Word :=
  match w with
  | 0 => 0x0000000100000000
  | 1 => 0xFFFFFFFFFFFFFFFF
  | 2 => 0xFFFFFFFFFFFFFFFF
  | 3 => 0x0000000000FFFFFF
  | 4 => 0xFFFFFFFFFFFFFFFF
  | 5 => 0x0000FFFFFFFFFFFF
  | _ => 0

/-- The bytes of a statistics write (R191, R252): the word, VERSION + 1, and STALE cleared for words 1 and 2, in one effect. -/
def statCells (id w : Nat) (v : Word) (s : State) : List Host.Cell :=
  match statHome s .write id 0, statHome s .write id w with
  | .ok a0, .ok a =>
    let old := homeWord s a0
    let stale := if w = 0 then v &&& 0x100000000 else if w = 1 ∨ w = 2 then 0 else old &&& 0x100000000
    let ver : Word := (old + 1) &&& 0xFFFFFFFF
    (if w = 0 then [] else cellsAt a (natLe 8 (v &&& statMask w).toNat)) ++ cellsAt a0 (natLe 8 (stale ||| ver).toNat)
  | _, _ => []

/-- A statistics write of the task. -/
def statWrite (id w : Nat) (v : Word) (s : State) : State := s.write (statCells id w v s)

/-- Does a joined action write part of a poisoned word, or read one (R211)? The address that it fails at. -/
def joinedPoison (s : State) : Joined → Option Nat
  | .pub id _ => if curPoisoned s id then some (curVa s id) else none
  | .statw id _ _ => match statHome s .write id 0 with
    | .ok a => if homePoisoned s a then some (statVa s id 0) else none
    | .error _ => none
  | _ => none

/-- Does a joined action still wait for something before the commit (R187, R188)? -/
def joinedWaits (c : Core) : Joined → Bool
  | .pub id w => (c.cpq ++ c.spq ++ c.mxq).any fun q => decide (q.no < w) && q.wids.contains id
  | .bara b _ _ => (barOf c b).arrived
  | _ => false

/-- One joined action takes effect (R188, R222). -/
def performJoined (a : Joined) (s : State) : State :=
  match a with
  | .pub id _ => publish id s
  | .statw id w v => statWrite id w v s
  | .bara b l _ => arrive b l s
  | .store cells => s.write cells
  | .atomic a v => s.write (cellsAt a (natLe 8 v.toNat))

/-- xend (R188): it stalls until every joined command is complete, then commits in order of issue. Where the transaction
aborts while it stalls, it completes. A joined action that the engine cannot perform for poison fails as an execution fault of
the engine, inside the transaction (R165, R211). -/
def execXend (g : Guard) (s : State) : Out :=
  slotOut .sy g (.xend g) s fun s =>
    if !s.c.txn.act then (if s.c.xendRec = some s.c.pc then .ok s else .error (.fault 0xA0 none))
    else if !s.c.syq.isEmpty || lanesHold s || (s.c.cpq.any fun q => q.joined) || s.c.failing.isSome
        || s.c.txn.acts.any (joinedWaits s.c) then
      .ok (stalled (s.onC fun c => { c with xendRec := some c.pc }))
    else match s.c.txn.acts.findSome? (joinedPoison s) with
    | some va => .ok (s.onC fun c => { abortTxn 2 c with failing := some ⟨newCmd .sy (.xend g) s, 0x71, 1, BitVec.ofNat 64 va⟩ })
    | none =>
      let s' := s.c.txn.acts.foldl (fun s a => performJoined a s) s
      .ok (s'.onC fun c => { c with txn := { c.txn with act := false, acts := [], commit := true, reason := 0 } })

/-- xabt (R188). -/
def execXabt (g : Guard) (s : State) : Out :=
  slotOut .sy g (.xabt g) s fun s => if s.c.txn.act && lanesHold s then .error .stall else .ok (s.onC (abortTxn 4))

/-- TRANSACTION_ABORT: another agent's conflicting write, or one of the other reasons of Table 9-12 (R188). -/
def execTransactionAbort (reason : BitVec 4) (s : State) : Out :=
  if s.c.txn.act ∧ 1 ≤ reason.toNat ∧ reason.toNat ≤ 5 then .next (s.onC (abortTxn reason))
  else .refused (.notEnabled "TRANSACTION_ABORT")

/-- A whole tensor as an operand: its current buffer from element 0 on (R189, R334). -/
def wholeTens (s : State) (id : Nat) : Res Tens := do
  let d ← loadDesc s id
  if d.layout = 1 ∧ d.nd < 2 then .error (.fault 0x37 none)
  else
    let t ← baseOf s id d false
    .ok { d := t, ext := t.dims, org := t.dims.map fun _ => 0, res := 0, acls := 0, view := 0, scale := none, xform := 0
          src := none, srcScale := none, perm := none }

/-- A collective-group entry (Table 17-5). -/
structure Group where
  nmem   : Nat
  valid  : Bool
  swred  : Bool
  minv   : Nat
  period : Nat
  tmo    : Nat
  job    : Nat
  mlist  : Nat
  bad    : Bool
  deriving DecidableEq, Repr

def groupOf (bs : List Byte) : Group :=
  let f := leAt bs 2 1
  let n := leAt bs 0 2
  let v := leAt bs 3 1
  let p := leAt bs 4 4
  let t := leAt bs 8 4
  { nmem := n, valid := decide (f % 2 = 1), swred := decide (f / 2 % 2 = 1), minv := v, period := p, tmo := t
    job := leAt bs 12 4, mlist := leAt bs 16 8
    bad := decide (n < 1) || decide (4096 < n) || decide (f / 4 ≠ 0) || decide (v < 2) || decide (4 < v) || decide (p < 1)
      || decide (1000000 < p) || decide (t < 1) || decide (60000 < t) || decide (leAt bs 24 40 ≠ 0) }

/-- The pages of a collective's group that can be told at issue: its entry, and its member list where the entry as it stands
is sound (R164, R332). -/
def groupPages (s : State) (id : Nat) : Res (List Nat) := do
  let base := (s.ctx?.map fun c => c.recd.cgbase).getD 0
  let hs ← pipeFault .read (byteHomes s .read (base + 64 * id) 64)
  let g := groupOf (hs.map s.readByte)
  if !g.valid ∨ g.bad then .ok hs
  else do
    let ws ← pipeFault .read (byteHomes s .read g.mlist (8 * g.nmem))
    .ok (hs ++ ws)

/-- A collective at issue (R164, R189). -/
def collIssue (i : Instr) (id : BitVec 8) (s : State) : Res State := do
  let w := (sy0 s).toNat
  let ts ← wholeTens s (w % 4096)
  let td ← wholeTens s (w / 2 ^ 16 % 4096)
  let rr ← engReads s ts false (allIdx ts.ext)
  let ws ← engWrites s td (allIdx td.ext)
  let gs ← groupPages s id.toNat
  if 1 < ts.d.fmt ∨ 2 < td.d.fmt then .error (.fault 0x13 none)
  else do
    engHold s (rr ++ ws ++ gs)
    enqueue .sy { syCmd i s with ts := [td, ts], wids := [td.d.id] } s

def execCollAr (g : Guard) (im : BitVec 8) (s : State) : Out := slotOut .sy g (.collAr g im) s (collIssue (.collAr g im) im)
def execCollRs (g : Guard) (im : BitVec 8) (s : State) : Out := slotOut .sy g (.collRs g im) s (collIssue (.collRs g im) im)
def execCollAg (g : Guard) (im : BitVec 8) (s : State) : Out := slotOut .sy g (.collAg g im) s (collIssue (.collAg g im) im)
def execCollA2a (g : Guard) (im : BitVec 8) (s : State) : Out := slotOut .sy g (.collA2a g im) s (collIssue (.collA2a g im) im)
def execCollBc (g : Guard) (im : BitVec 8) (s : State) : Out := slotOut .sy g (.collBc g im) s (collIssue (.collBc g im) im)

/-- The kind and id of a collective command (R189). -/
def collOf : Instr → Option (Nat × Nat)
  | .collAr _ im => some (0, im.toNat)
  | .collRs _ im => some (1, im.toNat)
  | .collAg _ im => some (2, im.toNat)
  | .collA2a _ im => some (3, im.toNat)
  | .collBc _ im => some (4, im.toNat)
  | _ => none

/-- cwt (R168, R189). -/
def execCwt (g : Guard) (im : BitVec 8) (s : State) : Out :=
  slotOut .sy g (.cwt g im) s fun s =>
    if s.c.syq.any fun q => (collOf q.i).map (·.2) == some im.toNat then .error .stall else .ok s

/-- The plan commands at issue (R190, R266, R271, R272): checked when the engine executes them. -/
def execPlan (g : Guard) (p : BitVec 10) (s : State) : Out :=
  slotOut .sy g (.plan g p) s fun s => enqueue .sy (syCmd (.plan g p) s) s

def execPexec (g : Guard) (p : BitVec 10) (s : State) : Out :=
  slotOut .sy g (.pexec g p) s fun s => enqueue .sy (syCmd (.pexec g p) s) s

def execHint (g : Guard) (p : BitVec 10) (s : State) : Out :=
  slotOut .sy g (.hint g p) s fun s => enqueue .sy (syCmd (.hint g p) s) s

def execPin (g : Guard) (p : BitVec 10) (s : State) : Out :=
  slotOut .sy g (.pin g p) s fun s => enqueue .sy (syCmd (.pin g p) s) s

def execUnpin (g : Guard) (p : BitVec 10) (s : State) : Out :=
  slotOut .sy g (.unpin g p) s fun s => enqueue .sy (syCmd (.unpin g p) s) s

/-- A plan handle of the task's context. -/
def planOf (s : State) (n : Nat) : Option PlanHandle := s.ctx?.bind fun c => SMap.get? c.plans n

def isPexec (n : Nat) : Instr → Bool
  | .pexec _ p => p.toNat == n
  | _ => false

/-- pwait (R168, R190): a failed block's trap is taken before it completes. -/
def execPwait (g : Guard) (p : BitVec 10) (s : State) : Out :=
  slotOut .sy g (.pwait g p) s fun s =>
    if s.c.syq.any (fun q => isPexec p.toNat q.i) || (s.c.failing.any fun f => isPexec p.toNat f.cmd.i)
        || (planOf s p.toNat).any (fun h => h.run.isSome) then .error .stall
    else .ok s

/-- statr (R191, R252): its cell waits as that of any engine result (R152). -/
def execStatr (g : Guard) (d : BitVec 6) (im : BitVec 12) (s : State) : Out :=
  slotOut .sy g (.statr g d im) s fun s => do
    let _ ← pipeFault .read (statHome s .read im.toNat ((sy0 s).toNat % 8))
    enqueue .sy { syCmd (.statr g d im) s with cell := destCell s d } (undoS d s)

/-- statw (R191, R252): it joins an open transaction (R188). -/
def execStatw (g : Guard) (im : BitVec 12) (s : State) : Out :=
  slotOut .sy g (.statw g im) s fun s => do
    let _ ← pipeFault .write (statHome s .write im.toNat ((sy0 s).toNat % 8))
    let _ ← pipeFault .write (statHome s .write im.toNat 0)
    if s.c.txn.act then .ok (joinTxn (.statw im.toNat ((sy0 s).toNat % 8) (sy1 s)) s)
    else enqueue .sy (syCmd (.statw g im) s) s

/-- evs (R192). -/
def execEvs (g : Guard) (e : BitVec 8) (s : State) : Out :=
  slotOut .sy g (.evs g e) s fun s => enqueue .sy (syCmd (.evs g e) s) s

/-- An event counter of the task's context; zero at creation (R192). -/
def eventOf (s : State) (e : Nat) : Word := (s.ctx?.bind fun c => SMap.get? c.events e).getD 0

/-- evw (R168, R192). -/
def execEvw (g : Guard) (e : BitVec 8) (s : State) : Out :=
  slotOut .sy g (.evw g e) s fun s => if (eventOf s e.toNat).ult (sy0 s) then .error .stall else .ok s

/-- The priority of a queue of a die (Table 15-1). -/
def prioOf (s : State) (die q : Nat) : Nat := ((SMap.get? s.fe.queues (die * 1024 + q)).map fun x => x.e.prio).getD 0

/-- Have the dependences of a packet ended, and with SER every earlier packet (R286)? -/
def depsMet (s : State) (l : Launch) : Bool :=
  (l.pkt.deps.all fun d => match SMap.get? s.fe.queues (l.die * 1024 + d.1) with | some x => decide (d.2 ≤ x.done) | none => false)
    && (!l.pkt.ser || match SMap.get? s.fe.queues (l.die * 1024 + l.q) with | some x => decide (l.seq ≤ x.done + 1) | none => false)

/-- Does a launch of equal or higher priority wait for cores (R192)? The scheduler places the launches of every die on all four
(R9). -/
def rivalWaits (s : State) : Bool :=
  s.fe.launches.any fun l => l.pkt.type == 1 && (if l.started then l.saved else depsMet s l)
    && decide (prioOf s s.c.info.die s.c.info.queue ≤ prioOf s l.die l.q)

/-- yld (R192): the safe point of pmark (R93), and a pending request where a rival waits; a nop in handler mode (R371). -/
def execYld (g : Guard) (s : State) : Out :=
  slotOut .sy g (.yld g) s fun s =>
    .ok (if s.c.trap.handler then s
      else onBun (fun b => { b with safe := true }) (s.onC fun c => { c with preempt := c.preempt || rivalWaits s }))

end Sys2Proof.Machine
end

