-- ==== Sys2Proof/Machine/Words.lean ====
section
/-! DEFINITION. Running one slot word, for the machinery inside the core that issues words: bundles, slip lanes, emulation sequences. -/

namespace Sys2Proof.Machine

/-- The meaning of a slot word; an event is no word. -/
def runWord (i : Instr) (s : State) : Out :=
  match i with
  | .nop g t => execNop g t s
  | .nopSlot k g => execNopSlot k g s
  | .b g o => execB g o s
  | .jmp g t a => execJmp g t a s
  | .call g o => execCall g o s
  | .ret g t a => execRet g t a s
  | .loop g rs l => execLoop g rs l s
  | .loopRot g rs l => execLoopRot g rs l s
  | .loopPre g rs l => execLoopPre g rs l s
  | .loopRotPre g rs l => execLoopRotPre g rs l s
  | .lbrk g t => execLbrk g t s
  | .pmark g t => execPmark g t s
  | .pset g t d => execPset g t d s
  | .pclr g t d => execPclr g t d s
  | .pand g t d a b => execPand g t d a b s
  | .por g t d a b => execPor g t d a b s
  | .pxor g t d a b => execPxor g t d a b s
  | .pnot g t d a => execPnot g t d a s
  | .endTask g t => execEndTask g t s
  | .trap g t c => execTrap g t c s
  | .rett g t => execRett g t s
  | .spec g p o => execSpec g p o s
  | .specx g t => execSpecx g t s
  | .dcpl g t => execDcpl g t s
  | .rjn g t => execRjn g t s
  | .sread g t d c => execSread g t d c s
  | .sreadWm g t d w => execSreadWm g t d w s
  | .sreadSrec g t d r => execSreadSrec g t d r s
  | .sreadSat g t d x => execSreadSat g t d x s
  | .swrite g t rs c => execSwrite g t rs c s
  | .swriteTstat g t rs => execSwriteTstat g t rs s
  | .swriteTpc g t rs => execSwriteTpc g t rs s
  | .swriteIsav g t rs => execSwriteIsav g t rs s
  | .swriteSrec g t rs r => execSwriteSrec g t rs r s
  | .swriteWm g t rs w => execSwriteWm g t rs w s
  | .swriteMtol g t rs => execSwriteMtol g t rs s
  | .swriteLstat g t rs => execSwriteLstat g t rs s
  | .swriteSat g t rs x => execSwriteSat g t rs x s
  | .bkpt g t k => execBkpt g t k s
  | .add g d a b => execAdd g d a b s
  | .sub g d a b => execSub g d a b s
  | .mul g d a b => execMul g d a b s
  | .mulh g d a b => execMulh g d a b s
  | .mulhz g d a b => execMulhz g d a b s
  | .div g d a b => execDiv g d a b s
  | .divz g d a b => execDivz g d a b s
  | .rem g d a b => execRem g d a b s
  | .remz g d a b => execRemz g d a b s
  | .and g d a b => execAnd g d a b s
  | .or g d a b => execOr g d a b s
  | .xor g d a b => execXor g d a b s
  | .andn g d a b => execAndn g d a b s
  | .shl g d a b => execShl g d a b s
  | .shr g d a b => execShr g d a b s
  | .sar g d a b => execSar g d a b s
  | .rol g d a b => execRol g d a b s
  | .min g d a b => execMin g d a b s
  | .max g d a b => execMax g d a b s
  | .minz g d a b => execMinz g d a b s
  | .maxz g d a b => execMaxz g d a b s
  | .clz g d a => execClz g d a s
  | .ctz g d a => execCtz g d a s
  | .popc g d a => execPopc g d a s
  | .sel g p d a b => execSel g p d a b s
  | .addi g d a im => execAddi g d a im s
  | .andi g d a im => execAndi g d a im s
  | .ori g d a im => execOri g d a im s
  | .xori g d a im => execXori g d a im s
  | .shli g d a im => execShli g d a im s
  | .shri g d a im => execShri g d a im s
  | .sari g d a im => execSari g d a im s
  | .li g d im => execLi g d im s
  | .lih g d im => execLih g d im s
  | .cmp g p c a b => execCmp g p c a b s
  | .cmpi g p c a im => execCmpi g p c a im s
  | .ldB g d a k o => execLdB g d a k o s
  | .ldBz g d a k o => execLdBz g d a k o s
  | .ldH g d a k o => execLdH g d a k o s
  | .ldHz g d a k o => execLdHz g d a k o s
  | .ldW g d a k o => execLdW g d a k o s
  | .ldWz g d a k o => execLdWz g d a k o s
  | .ldD g d a k o => execLdD g d a k o s
  | .stB g d a k o => execStB g d a k o s
  | .stH g d a k o => execStH g d a k o s
  | .stW g d a k o => execStW g d a k o s
  | .stD g d a k o => execStD g d a k o s
  | .ldh g h a k o => execLdh g h a k o s
  | .sth g h a k o => execSth g h a k o s
  | .hmk g h rs => execHmk g h rs s
  | .hset g h rs f => execHset g h rs f s
  | .hget g h rs f => execHget g h rs f s
  | .stg g e im a => execStg g e im a s
  | .rng g d a b => execRng g d a b s
  | .cvt g d a f m x => execCvt g d a f m x s
  | .faddS g d a b => execFaddS g d a b s
  | .fmulS g d a b => execFmulS g d a b s
  | .ffmaS g d a b => execFfmaS g d a b s
  | .fcmp g p c a b => execFcmp g p c a b s
  | .amoAdd g d a b k => execAmoAdd g d a b k s
  | .amoAnd g d a b k => execAmoAnd g d a b k s
  | .amoOr g d a b k => execAmoOr g d a b k s
  | .amoXor g d a b k => execAmoXor g d a b k s
  | .amoMax g d a b k => execAmoMax g d a b k s
  | .amoMin g d a b k => execAmoMin g d a b k s
  | .amoXchg g d a b k => execAmoXchg g d a b k s
  | .amoCas g d a b k => execAmoCas g d a b k s
  | .amob g d a b k => execAmob g d a b k s
  | .amoAddR g d a b k => execAmoAddR g d a b k s
  | .amoAndR g d a b k => execAmoAndR g d a b k s
  | .amoOrR g d a b k => execAmoOrR g d a b k s
  | .amoXorR g d a b k => execAmoXorR g d a b k s
  | .amoMaxR g d a b k => execAmoMaxR g d a b k s
  | .amoMinR g d a b k => execAmoMinR g d a b k s
  | .amoXchgR g d a b k => execAmoXchgR g d a b k s
  | .amoCasR g d a b k => execAmoCasR g d a b k s
  | .amobR g d a b k => execAmobR g d a b k s
  | .apush g h rs l t => execApush g h rs l t s
  | .ashf g b => execAshf g b s
  | .aacc g h rs l t => execAacc g h rs l t s
  | .adrn g h rs t => execAdrn g h rs t s
  | .alds g h rs l => execAlds g h rs l s
  | .aswp g l => execAswp g l s
  | .asel g l => execAsel g l s
  | .acfg g t rs => execAcfg g t rs s
  | .acfgImm g t im => execAcfgImm g t im s
  | .azr g t => execAzr g t s
  | .afac g m l t p => execAfac g m l t p s
  | .awm g t rs => execAwm g t rs s
  | .vadd g d a b => execVadd g d a b s
  | .vsub g d a b => execVsub g d a b s
  | .vmul g d a b => execVmul g d a b s
  | .vfma g d a b c => execVfma g d a b c s
  | .vfms g d a b c => execVfms g d a b c s
  | .vmax g d a b => execVmax g d a b s
  | .vmin g d a b => execVmin g d a b s
  | .vabs g d a => execVabs g d a s
  | .vneg g d a => execVneg g d a s
  | .vclamp g d a b c => execVclamp g d a b c s
  | .vexp g d a => execVexp g d a s
  | .vexp2 g d a => execVexp2 g d a s
  | .vlog2 g d a => execVlog2 g d a s
  | .vrcp g d a => execVrcp g d a s
  | .vrsq g d a => execVrsq g d a s
  | .vsqrt g d a => execVsqrt g d a s
  | .vtanh g d a => execVtanh g d a s
  | .vsigm g d a => execVsigm g d a s
  | .vcmp g d a b c => execVcmp g d a b c s
  | .vsel g d a b c => execVsel g d a b c s
  | .vand g d a b => execVand g d a b s
  | .vor g d a b => execVor g d a b s
  | .vxor g d a b => execVxor g d a b s
  | .vshl g d a b => execVshl g d a b s
  | .vshr g d a b => execVshr g d a b s
  | .vcvt g d a m => execVcvt g d a m s
  | .vqnt g d a m => execVqnt g d a m s
  | .vdqnt g d a => execVdqnt g d a s
  | .vcbk g d a => execVcbk g d a s
  | .vsum g d a => execVsum g d a s
  | .vmaxr g d a => execVmaxr g d a s
  | .vminr g d a => execVminr g d a s
  | .vscan g d a => execVscan g d a s
  | .vperm g d a b => execVperm g d a b s
  | .vbcast g d a => execVbcast g d a s
  | .viota g d a => execViota g d a s
  | .vpopc g d a => execVpopc g d a s
  | .vcmpr g d a b => execVcmpr g d a b s
  | .vexpd g d a b => execVexpd g d a b s
  | .vmov g d a => execVmov g d a s
  | .vrng g d a b => execVrng g d a b s
  | .mld g m h => execMld g m h s
  | .mst g m h => execMst g m h s
  | .mzr g d => execMzr g d s
  | .mcpy g d a => execMcpy g d a s
  | .mmul g d a b => execMmul g d a b s
  | .madd g d a b => execMadd g d a b s
  | .mscl g m rs => execMscl g m rs s
  | .mrcmp g d a => execMrcmp g d a s
  | .mdns g d a => execMdns g d a s
  | .mfac g d a c => execMfac g d a c s
  | .mtrn g d a => execMtrn g d a s
  | .mrnk g m rs => execMrnk g m rs s
  | .mocc g m rs => execMocc g m rs s
  | .mapl g d a m => execMapl g d a m s
  | .cpy g c d rs => execCpy g c d rs s
  | .cpt g c d rs => execCpt g c d rs s
  | .cpq g c d rs m => execCpq g c d rs m s
  | .cpqs g c d rs m => execCpqs g c d rs m s
  | .cpz g c d rs => execCpz g c d rs s
  | .cpx g c d rs => execCpx g c d rs s
  | .cpk g c d rs => execCpk g c d rs s
  | .cpbs g c z rs => execCpbs g c z rs s
  | .cpw g c => execCpw g c s
  | .cpab g c => execCpab g c s
  | .cpf g c d => execCpf g c d s
  | .cpr g c d rs => execCpr g c d rs s
  | .gth g d a b => execGth g d a b s
  | .sct g d a b => execSct g d a b s
  | .scta g d a b => execScta g d a b s
  | .flt g d a b => execFlt g d a b s
  | .bmk g d a b => execBmk g d a b s
  | .cnt g d a => execCnt g d a s
  | .dfr g a b => execDfr g a b s
  | .dfd g d a => execDfd g d a s
  | .phase g l => execPhase g l s
  | .bara g b => execBara g b s
  | .barw g b => execBarw g b s
  | .bar g b => execBar g b s
  | .pub g h => execPub g h s
  | .fence g l => execFence g l s
  | .xbeg g => execXbeg g s
  | .xend g => execXend g s
  | .xabt g => execXabt g s
  | .collAr g im => execCollAr g im s
  | .collRs g im => execCollRs g im s
  | .collAg g im => execCollAg g im s
  | .collA2a g im => execCollA2a g im s
  | .collBc g im => execCollBc g im s
  | .cwt g im => execCwt g im s
  | .plan g p => execPlan g p s
  | .pexec g p => execPexec g p s
  | .pwait g p => execPwait g p s
  | .hint g p => execHint g p s
  | .pin g p => execPin g p s
  | .unpin g p => execUnpin g p s
  | .statr g d im => execStatr g d im s
  | .statw g im => execStatw g im s
  | .evs g e => execEvs g e s
  | .evw g e => execEvw g e s
  | .yld g => execYld g s
  | .resultLanding => .fault .notAnEvent
  | .variableLatencyResult => .fault .notAnEvent
  | .slipRelease _ => .fault .notAnEvent
  | .slipWaitTimeout _ => .fault .notAnEvent
  | .loopEndOfTrip => .fault .notAnEvent
  | .fetchFault => .fault .notAnEvent
  | .trapEntry => .fault .notAnEvent
  | .emulationSequence => .fault .notAnEvent
  | .emulationOverrun => .fault .notAnEvent
  | .safePointDistanceExceeded => .fault .notAnEvent
  | .speculationResolve => .fault .notAnEvent
  | .transactionAbort _ => .fault .notAnEvent
  | .mxCommandExecute _ => .fault .notAnEvent
  | .cpCommandExecute _ _ => .fault .notAnEvent
  | .spCommandExecute _ => .fault .notAnEvent
  | .syCommandExecute => .fault .notAnEvent
  | .queueFullEmptyTimeout _ _ => .fault .notAnEvent
  | .executionFault => .fault .notAnEvent
  | .streamElementDelivery _ => .fault .notAnEvent
  | .phaseBoundaryComplete _ => .fault .notAnEvent
  | .barrierGenerationComplete _ => .fault .notAnEvent
  | .collectiveOwnershipMove _ _ _ => .fault .notAnEvent
  | .collectiveComplete _ _ _ => .fault .notAnEvent
  | .memberTimeout _ _ => .fault .notAnEvent
  | .pexecAccept _ => .fault .notAnEvent
  | .planBreak _ => .fault .notAnEvent
  | .planBlockCommit _ => .fault .notAnEvent
  | .bindingPlaneUpdate _ _ => .fault .notAnEvent
  | .pageTableWalk _ => .fault .notAnEvent
  | .doorbell _ _ _ => .fault .notAnEvent
  | .frontEndRingRead _ _ => .fault .notAnEvent
  | .letterboxRead _ => .fault .notAnEvent
  | .letterboxRetire _ _ => .fault .notAnEvent
  | .overflowMaskReadClear _ => .fault .notAnEvent
  | .launchPortWrite _ _ _ => .fault .notAnEvent
  | .launchPortRefusalWrite _ _ _ _ => .fault .notAnEvent
  | .packetStart _ _ _ => .fault .notAnEvent
  | .operatingPointReached _ _ => .fault .notAnEvent
  | .clusterSramZeroing _ _ => .fault .notAnEvent
  | .taskRetire _ _ _ _ => .fault .notAnEvent
  | .launchComplete _ _ _ _ => .fault .notAnEvent
  | .schedulerFaultDelivery _ _ _ _ _ => .fault .notAnEvent
  | .timeSliceExpiry _ _ _ => .fault .notAnEvent
  | .classFloorOwed _ _ => .fault .notAnEvent
  | .preemptionRequest _ _ _ => .fault .notAnEvent
  | .contextSave _ => .fault .notAnEvent
  | .contextRestore _ _ _ => .fault .notAnEvent
  | .schedulerWatchdogExpiry _ => .fault .notAnEvent
  | .pluginCallTimeout _ _ => .fault .notAnEvent
  | .shootdown _ _ _ => .fault .notAnEvent
  | .createContext _ _ _ _ => .fault .notAnEvent
  | .destroyContext _ _ => .fault .notAnEvent
  | .writeRangeEntry _ _ _ _ => .fault .notAnEvent
  | .writeQueueEntry _ _ _ => .fault .notAnEvent
  | .enableQueue _ _ => .fault .notAnEvent
  | .disableQueue _ _ => .fault .notAnEvent
  | .admitImage _ _ _ _ _ => .fault .notAnEvent
  | .writeFmask _ _ _ => .fault .notAnEvent
  | .readClearMaskedCounter _ _ => .fault .notAnEvent
  | .openHostWindow _ _ _ _ _ => .fault .notAnEvent
  | .closeHostWindow _ _ => .fault .notAnEvent
  | .writeHostRange _ _ _ _ => .fault .notAnEvent
  | .bindContextJob _ _ _ => .fault .notAnEvent
  | .writeCollectiveGroup _ _ _ _ => .fault .notAnEvent
  | .requestPostmark _ _ _ _ => .fault .notAnEvent
  | .debugHalt _ _ _ => .fault .notAnEvent
  | .debugResume _ _ _ => .fault .notAnEvent
  | .debugStep _ _ _ => .fault .notAnEvent
  | .debugReadRegister _ _ _ _ => .fault .notAnEvent
  | .debugWriteRegister _ _ _ _ _ => .fault .notAnEvent
  | .debugEnableBreakpoints _ _ _ => .fault .notAnEvent
  | .debugDisableBreakpoints _ _ _ => .fault .notAnEvent
  | .debugRevoke _ _ _ => .fault .notAnEvent
  | .setPowerLimit _ _ => .fault .notAnEvent
  | .setPowerState _ _ => .fault .notAnEvent
  | .readHealthLog _ _ => .fault .notAnEvent
  | .fwOpen _ _ => .fault .notAnEvent
  | .fwWrite _ _ _ => .fault .notAnEvent
  | .fwCheck _ => .fault .notAnEvent
  | .fwFlip _ => .fault .notAnEvent
  | .stagePatch _ _ _ => .fault .notAnEvent
  | .livePatch _ _ _ => .fault .notAnEvent
  | .fwState _ => .fault .notAnEvent
  | .fwReset _ => .fault .notAnEvent
  | .clearLive _ => .fault .notAnEvent
  | .boot _ _ => .fault .notAnEvent
  | .powerLoss => .fault .notAnEvent
  | .ideEstablish => .fault .notAnEvent
  | .hostWindowRead _ _ _ => .fault .notAnEvent
  | .hostWindowWrite _ _ _ => .fault .notAnEvent
  | .flitReceive _ _ _ => .fault .notAnEvent
  | .transportDataReceive _ _ _ => .fault .notAnEvent
  | .transportAckReceive _ _ => .fault .notAnEvent
  | .transportNackReceive _ _ => .fault .notAnEvent
  | .transportKeepaliveReceive _ _ => .fault .notAnEvent
  | .retransmitTimeout _ => .fault .notAnEvent
  | .hostLinkLost => .fault .notAnEvent
  | .ideIntegrityFailure => .fault .notAnEvent
  | .scaleUpPlaneLost _ => .fault .notAnEvent
  | .scaleOutPortLost _ => .fault .notAnEvent
  | .overtemperature _ => .fault .notAnEvent
  | .deviceMemoryStackFailure _ => .fault .notAnEvent
  | .scrub _ _ => .fault .notAnEvent
  | .coreLost _ => .fault .notAnEvent
  | .healthLogPeriodic => .fault .notAnEvent
  | .unknownOpcode _ _ => .fault .notAnEvent
  | .switchPlaneUp _ => .fault .notAnEvent
  | .apertureRegisterWrite _ _ _ => .fault .notAnEvent

/-- The state that a word leaves. -/
def afterWord (i : Instr) (s : State) : State :=
  match runWord i s with
  | .next t => t
  | _ => s

end Sys2Proof.Machine
end

