-- ==== Sys2Proof/Machine/Slip.lean ====
section
/-! DEFINITION. The slip lanes: releasing the oldest operation of a lane once its tiles are full, and abandoning it (R24 to R27, R202). -/

namespace Sys2Proof.Machine

/-- The place of a lane in the list of lanes; a stream's waiting loads are no lane of the list. -/
def lanePlace : Lane → Option Nat
  | .sc => some 0
  | .ar => some 1
  | .ve => some 2
  | .stream _ => none

/-- Results of a released operation land at the latency of its instruction, and their readers interlock from the distance
of R19 on: their due cycle counts from issue (R24, R26). A rotating predicate has moved by a number of steps since (R89). -/
def retime (shift : Nat) (x : Slipped) (now : Nat) (e : InFlight) : Option InFlight :=
  (shiftDst shift e.dst).map fun d => { e with dst := d, due := if e.var then now else x.at_ + (e.due - now) }

/-- Was the operation issued before the active speculation opened (R96)? -/
def beforeSpec (s : State) (nth : Nat) : Bool := s.c.spec.any fun sp => decide (nth ≤ sp.nth)

/-- The tiles that are counted by commands which were issued after an operation of a lane and wait for it themselves: they write
after it, and it does not wait for them (Table 11-4). -/
def laterTiles (no : Nat) (s : State) : List Nat :=
  (s.c.mxq ++ s.c.cpq ++ s.c.spq).flatMap fun q => if decide (no ≤ q.no) && laneHolds s q then q.cnt else []

/-- A compare that a release leaves pending names its predicate where end-of-trip steps have moved it since its issue: none where
the value is lost (R89). -/
def moveCmp (shift : Nat) (w : CmpWait) : Option CmpWait :=
  if w.pd < 8 ∨ 16 ≤ w.pd then some w else if w.pd + shift ≤ 15 then some { w with pd := w.pd + shift } else none

/-- Run a released operation on what it captured: the registers, tensors, address, bundle and command numbers of its issue.
A store issued before the speculation is not held by it, and what an operation of an aborted transaction would join is dropped. -/
def runReleased (tiles : List Nat) (x : Slipped) (s : State) : State :=
  afterWord x.i (s.onC fun c => { c with
    view := some x.regs, held := some x.ts, pc := x.addr, cmdNo := x.no, bundles := x.nth, counts := countDown tiles c.counts
    bun := { Bundle.idle with next := x.addr + 32, psnap := c.r.p }
    emu := none
    txn := if x.dead then ⟨true, [], false, 0, 0⟩ else c.txn
    spec := if beforeSpec s x.nth then none else c.spec })

/-- What a release leaves: the bundle at issue as it stood, the operation's results in flight, and a compare that is pending. A
checkpoint that was taken since its issue takes both in at the places where they stood then (R89, R96). -/
def settle (x : Slipped) (s t : State) : State :=
  let old := s.c.inflight.length
  let olds := s.c.cmps.length
  let res := t.c.inflight.drop old
  let waits := t.c.cmps.drop olds
  t.onC fun c => { c with
    view := s.c.view, held := s.c.held, pc := s.c.pc, cmdNo := s.c.cmdNo, bun := s.c.bun
    bundles := s.c.bundles, counts := s.c.counts, emu := s.c.emu
    txn := if x.dead then s.c.txn else c.txn
    inflight := c.inflight.take old ++ res.filterMap (retime x.shift x s.c.now)
    cmps := c.cmps.take olds ++ waits.filterMap (moveCmp x.shift)
    spec := if beforeSpec s x.nth then s.c.spec.map fun sp => { sp with
        infl := sp.infl ++ res.filterMap (retime (x.shift - sp.shift) x s.c.now)
        cmps := sp.cmps ++ waits.filterMap (moveCmp (x.shift - sp.shift)) }
      else c.spec }

/-- SLIP_RELEASE (R24): the head of the lane executes, unless a tile of it is still empty. -/
def execSlipRelease (lane : Lane) (s : State) : Out :=
  match lanePlace lane with
  | none => .refused (.notEnabled "SLIP_RELEASE")
  | some n =>
    match laneOf s n with
    | [] => .refused (.notEnabled "SLIP_RELEASE")
    | x :: rest =>
      let t := runReleased (laterTiles x.no s) x (s.onC fun c => { c with lanes := c.lanes.set n rest })
      if t.c.bun.stall then .refused (.notEnabled "SLIP_RELEASE")
      else if t.c.bun.stopped then .next t
      else .next (settle x s t)

/-- Abandon the operations of a lane: cause 0x50 with the first one's address (R27). The fault can be suppressed (R357); the
operations stay undone then too. -/
def abandon (slot : Nat) (addr : Word) (s : State) : State :=
  let t := deferFault 0x50 slot none (s.onC fun c => { c with
    pc := addr, bun := { Bundle.idle with next := addr + 32, psnap := c.r.p } })
  if t.c.bun.stopped then t else t.onC fun c => { c with pc := s.c.pc, bun := s.c.bun }

/-- SLIP_WAIT_TIMEOUT (R27, R202). -/
def execSlipWaitTimeout (lane : Lane) (s : State) : Out :=
  match lane with
  | .stream z =>
    (match (s.c.z[z.toNat]'z.isLt).waits with
    | [] => .refused (.notEnabled "SLIP_WAIT_TIMEOUT")
    | w :: _ => .next (abandon 1 w.2 (onZ z.toNat (fun x => { x with waits := [] }) s)))
  | _ =>
    match lanePlace lane with
    | none => .refused (.notEnabled "SLIP_WAIT_TIMEOUT")
    | some n =>
      match laneOf s n with
      | [] => .refused (.notEnabled "SLIP_WAIT_TIMEOUT")
      | x :: _ => .next (abandon (n + 1) x.addr (s.onC fun c => { c with lanes := c.lanes.set n [] }))

end Sys2Proof.Machine
end

