-- ==== Sys2Proof/Machine/Issue.lean ====
section
/-! DEFINITION. Fetching, decoding, issuing and completing a bundle; loop steps and speculation at its end (R15 to R36, R74 to R100, R315, R348 to R355). -/

namespace Sys2Proof.Machine

/-- Why the bundle at pc cannot be fetched: cause and tval (R34, R377). rett with RESUME = 8 executes no slot of it and needs no
fetch (R33); behind a suppressed fault of the fetch the slots above go on (R357). -/
def fetchFault? (s : State) : Option (Nat × Word) :=
  let a := s.c.pc.toNat
  if s.c.resume = some 8 ∨ (s.c.view.isSome ∧ s.c.bun.blind.isSome) then none
  else if a % 32 ≠ 0 then some (0x12, tvalVa .fetch 3 a)
  else match translate s s.c.info.ctx .fetch false a with
    | .error f => some (f.cause .fetch, f.tval)
    | .ok h =>
      if (List.range 32).any fun i => poisoned s (h + i) then
        let srce := if (s.ctx?.map fun c => c.ranges.any fun e => rangeHolds e.2 a).getD false then 0 else 1
        some (0x43, tvalVa .fetch srce a)
      else none

/-- What becomes of a slot word at issue. -/
inductive Fate where
  | run (i : Instr) (p : Option Nat)    -- executes; the patch slot that rewrote it
  | skip                                -- suppressed by its guard
  | trap (p : PatchSlot)
  | emulate (p : PatchSlot)
  | bad (cause : Nat) (tval : Word) (offer counts : Bool)
  deriving DecidableEq, Repr

/-- The accumulator tile that an ar word names (R67). -/
def accTile : Instr → Option Nat
  | .apush _ _ _ _ t => some t.toNat
  | .aacc _ _ _ _ t => some t.toNat
  | .adrn _ _ _ t => some t.toNat
  | .acfg _ t _ => some t.toNat
  | .acfgImm _ t _ => some t.toNat
  | .azr _ t => some t.toNat
  | .afac _ _ _ t _ => some t.toNat
  | .awm _ t _ => some t.toNat
  | _ => none

/-- The scope level that a sy word names (R72). -/
def levelField : Instr → Option Nat
  | .phase _ l => some l.toNat
  | .fence _ l => some l.toNat
  | _ => none

/-- The operand limits that the task's launch sets (step 7, R67, R72). -/
def launchLimits (s : State) (i : Instr) : Bool :=
  (accTile i).all (fun t => decide (t ≤ partAcct s.c.info.part)) && (levelField i).all fun l => decide (l < s.c.info.nlev)

/-- The word that a REWRITE makes of a fetched word (R352). -/
def rewriteWord (p : PatchSlot) (f : BitVec 32) : BitVec 32 :=
  let x := sfBits p.sfact 19 0
  BitVec.ofNat 32 (f.toNat / 2 ^ 27 * 2 ^ 27 + sfBits p.sftmpl 26 20 * 2 ^ 20
    + ((sfBits p.sftmpl 19 0 &&& (2 ^ 20 - 1 - x)) ||| (f.toNat % 2 ^ 20 &&& x)))

/-- The special-register code of a word that a version below 4 does not have (R317). -/
def hiddenCode (s : State) (i : Instr) : Bool :=
  decide (pver (fmaskOf s) < 4) && match i with
    | .sread _ _ _ c => v4Code c.toNat
    | .sreadWm _ _ _ _ => true
    | .sreadSat _ _ _ _ => true
    | .swrite _ _ _ c => v4Code c.toNat
    | .swriteWm _ _ _ _ => true
    | .swriteMtol _ _ _ => true
    | .swriteSat _ _ _ _ => true
    | _ => false

/-- Steps 4 to 7 of Table 5-12 on a word; limits and res0 fields are not judged where the guard is false. -/
def checkWord (k : Slot) (f w : BitVec 32) (hold : Bool) (p : Option Nat) (s : State) : Fate :=
  let tv := wordTval k f p.isSome
  match decodeWord k w with
  | .error .undefined => .bad 0x10 tv true false
  | .error e =>
    if hold then .bad (match e with | .undefined => 0x10 | .reserved => 0x11 | .format => 0x13 | .operand => 0x14) tv true false
    else .skip
  | .ok i =>
    if hiddenCode s i then .bad 0x10 tv true true
    else if !hold then .skip
    else if launchLimits s i then .run i p else .bad 0x14 tv true false

/-- The checks of Table 5-12, in order (R74, R77, R78). -/
def fateOf (s : State) (x : Slot × BitVec 32) : Fate :=
  let (k, f) := x
  let g := guardOf f.toNat
  let hold := guardHolds k g s
  let fm := fmaskOf s
  if g.wf = false then .bad 0x10 (wordTval k f false) true false
  else if masked fm k f then .bad 0x10 (wordTval k f false) false true
  else match decodeSlot f k.idx s with
    | some p =>
      if !hold then .skip
      else match sfBits p.sfact 63 61 with
        | 0 => .trap p
        | 2 => .emulate p
        | _ =>
          let w := rewriteWord p f
          if masked fm k w then .bad 0x10 (wordTval k f true) false true else checkWord k f w hold (some p.n) s
    | none => checkWord k f f hold none s

/-- The stall count of a bundle, from the br word it executes (R17): formats with a target or a predicate have none. A word of an
unassigned opcode, which a patch slot claims, has no format in the spec; its ST is bits [19:16] (DESIGN CHOICE, log 99). -/
def stallCount (x : Slot × BitVec 32) (s : State) : Nat :=
  let f := x.2
  let w := match decodeSlot f x.1.idx s with
    | some p => if sfBits p.sfact 63 61 = 1 ∧ guardHolds x.1 (guardOf f.toNat) s then rewriteWord p f else f
    | none => f
  if [1, 3, 5, 17].contains (opcodeOf w.toNat) then 0 else w.toNat / 2 ^ 16 % 16

/-- A fresh bundle: the address after it, and the predicates at its entry (R28, R29). -/
def freshBundle (c : Core) : Bundle := { Bundle.idle with next := c.pc + 32, psnap := c.r.p }

/-- Outside a handler psnap and the undo list are those of the bundle in progress (R28, R32). -/
def freshTrap (c : Core) : Trap := if c.trap.handler then c.trap else { c.trap with psnap := c.r.p, undo := [] }

/-- The bundle as it enters issue, and the slot at which it starts: fresh, re-entered by rett with what its committed slots
left (R33), or going on behind an emulation sequence (R355). -/
def enterBundle (c : Core) : Nat × Core :=
  match c.view, c.resume with
  | some _, j => (j.getD 0, { c with resume := none })
  | none, none => (0, { c with bun := freshBundle c, trap := freshTrap c })
  | none, some j =>
    let t := c.trap
    let b := if j = 0 then Bundle.idle else { t.split with stall := false, stopped := false, rett := false }
    (j, { c with
      resume := none, view := some (undoView c.r t.psnap t.undo)
      bun := { b with next := t.isav, undo := t.undo, psnap := t.psnap, resumed := true } })

/-- The registers of a slot that a shadow read is looked for in (R21). -/
def readNames (x : (Slot × BitVec 32) × Fate) : Slot × List Name :=
  (x.1.1, guardName (guardOf x.1.2.toNat) :: match x.2 with
    | .run (.spec _ p _) _ => [.p p]
    | .run i _ => srcs i
    | _ => [])

/-- Entry into an emulation sequence in place of slot k (R353, Table 23-6); a fused row is released (R238). What the slots below
have put in flight lands first, so that the sequence reads current state (R21). -/
def beginEmu (k : Slot) (f : BitVec 32) (p : PatchSlot) (s : State) : State :=
  let n := f.toNat
  let rd (lo : Nat) : Word := s.rdS (BitVec.ofNat 6 (n / 2 ^ lo))
  let ex2 : Word := BitVec.ofNat 64 (k.idx + s.c.info.ctx * 2 ^ 16 + tenantOf s * 2 ^ 32)
  s.onC fun c => { landAll c with
    fused := { c.fused with fused := false }
    view := none
    emu := some
      { slot := k.idx, word := f, patch := p.n, start := sfBits p.sfact 34 24, len := sfBits p.sfact 45 40 + 1, pos := 0
        issued := 0, ex := #v[f.setWidth 64, c.pc, ex2, rd 14, rd 8, rd 2, 0, 0], ep := 0, bun := c.bun } }

/-- Commit the slots in order (R28). It ends early where a slot waits, faults, or starts a sequence. -/
def commit : List ((Slot × BitVec 32) × Fate) → State → State
  | [], s => s
  | ((k, f), x) :: l, s =>
    let go (t : State) : State := if t.c.bun.stall || t.c.bun.stopped then t else commit l t
    match x with
    | .run i p =>
      let t := afterWord i s
      go (if t.c.bun.stall then t else match p with | some n => countHit n t | none => t)
    | .skip => go s
    | .trap p => go (raiseWith true false k.idx 0xD0 (some (patchTval 0 p.n f)) (countHit p.n s))
    | .emulate p => beginEmu k f p (countHit p.n s)
    | .bad _ _ _ _ => go s

/-- The first word that fails (R75). -/
def firstBad (l : List ((Slot × BitVec 32) × Fate)) : Option (Nat × Word × Bool) :=
  l.findSome? fun x => match x.2 with | .bad c tv o _ => some (c, tv, o) | _ => none

/-- Masked decodes of the bundle (R77). -/
def countMaskedWords (l : List ((Slot × BitVec 32) × Fate)) (s : State) : State :=
  l.foldl (fun s x => match x.2 with | .bad _ _ _ true => countMasked s | _ => s) s

/-- Does a slot of the bundle wait for its guard's value? -/
def guardsWait (s : State) (l : List (Slot × BitVec 32)) : Bool := l.any fun x => mustWait s.c (guardName (guardOf x.2.toNat))

/-- An emulation entry waits for speculation, for what is in flight, and for the registers that it captures (R353). -/
def emuWaits (s : State) (l : List ((Slot × BitVec 32) × Fate)) : Bool :=
  l.any fun x => match x.2 with
    | .emulate _ => speculating s || waitsInFlight s.c ||
        [14, 8, 2].any fun lo => mustWait s.c (.s (BitVec.ofNat 6 (x.1.2.toNat / 2 ^ lo)))
    | _ => false

def hasEmu (l : List ((Slot × BitVec 32) × Fate)) : Bool :=
  l.any fun x => match x.2 with | .emulate _ => true | _ => false

/-- Decode checks, then the shadow check, then commit, for the slots from j on (R21, R74 to R79). A failure of the decode
or the shadow check stands before any slot of them commits; where a fault slot suppresses it, the slots after j go on (R357;
n counts the slots left). The shadow check is the bundle's: a bundle that goes on behind a slot has passed it. -/
def issueFrom : Nat → Nat → Bool → State → State
  | 0, _, _, s => s
  | n + 1, j, shadow, s =>
  let on (t : State) : State := if t.c.bun.stall || t.c.bun.stopped then t else issueFrom n (j + 1) shadow t
  let ws := (bundleWords s).filter fun x => decide (j ≤ x.1.idx)
  if guardsWait s ws then stalled s
  else
    let fs := ws.map fun x => (x, fateOf s x)
    match firstBad fs with
    | some (cause, tv, offer) => on (raiseWith false offer j cause (some tv) (countMaskedWords fs s))
    | none =>
      match if shadow && s.c.trap.tstat.getLsbD 31 then shadowFault s.c (fs.map readNames) else none with
      | some tv => on (raiseWith false true j 0x20 (some tv) s)
      | none =>
        if emuWaits s fs then stalled s
        else commit fs (if hasEmu fs then s.onC landAll else s)

/-- Is an address inside a loop's body? -/
def inBody (l : LoopEntry) (a : Word) : Bool := decide (l.first.toNat ≤ a.toNat) && decide (a.toNat ≤ l.last.toNat)

/-- Loops that a taken branch leaves end (R82). -/
def exitLoops (a t : Word) : List LoopEntry → List LoopEntry
  | [] => []
  | l :: ls => if inBody l a && !inBody l t then exitLoops a t ls else l :: ls

/-- Is the predicate pending: does a compare wait for a ranked atomic's value (R95)? -/
def predPending (c : Core) (p : BitVec 4) : Bool := p != 0 && c.cmps.any fun w => w.pd == p.toNat

/-- The speculation aborts (R96): checkpointed state comes back with what was in flight then, and later work is dropped. -/
def abortSpec (s : State) : State :=
  match s.c.spec with
  | none => s
  | some sp => s.onC fun c => landDue { c with
      r := sp.regs, inflight := sp.infl, loops := sp.loops
      lanes := c.lanes.map fun l => (l.filter fun x => decide (x.nth ≤ sp.nth)).map fun x => { x with shift := x.shift - sp.shift }
      cmps := sp.cmps, drain := sp.loops.any fun l => l.stop.isSome
      trap := { c.trap with due := none }, bun := Bundle.idle, mismatch := none
      pc := sp.target, spec := none, tripAt := none, view := none, resume := none }

/-- The speculation commits (R96): held stores enter memory in program order, or join an open transaction (R188). -/
def commitSpec (s : State) : State :=
  match s.c.spec with
  | none => s
  | some sp => sp.held.foldl (fun s h => if h.desc && s.c.txn.act then joinTxn (.store h.cells) s else s.write h.cells)
      (s.onC fun c => { c with spec := none })

/-- A spec bundle opens a speculation once it has completed; entry holds the value of the predicate at the bundle's entry. -/
def openSpec (p : BitVec 4) (target : Word) (entry : Bool) (s : State) : State :=
  if predPending s.c p then
    s.onC fun c => { c with spec := some ⟨p.toNat, none, 0, c.cmps, target, c.r, c.loops, [], c.inflight, c.bundles - 1⟩ }
  else if entry then s
  else s.onC fun c => { c with pc := target }

/-- The row of a core at the completion of a bundle (R99, R100, R237, R238): dcpl, the end of another task of it and the fault of
another core release it, rjn joins it again unless another core differs or has faulted there, and a follower meets the leader's
next operands (log 16). gone counts the other tasks of the row that have ended. -/
def nextFused (gone : Nat) (b : Bundle) (c : Core) : Core :=
  let f := c.fused
  let joined := (f.fused && !b.dcpl && decide (gone ≤ f.gone) && !Config.rowReleased c.fresh) || (b.rejoin && !Config.rowDiffers c.fresh)
  let n := c.fresh + 1
  let lead : Regs := { c.r with
    s := Vector.ofFn fun i => Config.leaderWord (n + i.val), p := (Config.leaderWord (n + 64)).setWidth 16 ||| 1 }
  if f.fused || b.rejoin then
    { c with
      fresh := n + 65
      fused := { f with fused := joined, gone := gone, leader := if joined && f.rank != 0 then some lead else none } }
  else c

/-- The completion of a bundle whose ST is st: time, the branch, loops, and what its slots left for this moment (R19, R29,
R81 to R100, R315). -/
def completeBundle (st : Nat) (s : State) : State :=
  let b := s.c.bun
  let st := if b.rett then 0 else st
  let c := s.c
  let timed := { c with
    now := c.now + 1 + st, bundles := c.bundles + 1
    sinceSafe := if b.safe then 0 else c.sinceSafe + 1 + st
    bun := { Bundle.idle with safe := b.safe && c.preempt }, view := none, resume := none
    barRec := if c.barRec = some c.pc then none else c.barRec
    xendRec := none
    haltAsked := c.haltAsked || c.stepOnce, stepOnce := false, bkptSkip := false }
  if b.rett then s.onC fun _ => returnFromTrap timed
  else
    let handler := c.trap.handler
    let ls := if b.taken && !handler then exitLoops c.pc b.next c.loops else c.loops
    let (ls, next) := match b.lbrk, ls with
      | true, l :: r => (r, l.last + 32)
      | _, _ => (ls, b.next)
    let atEnd := !handler && !b.lbrk && ls.head?.any fun l => l.last == c.pc
    let done := { timed with
      pc := next
      loops := match b.push with | some e => e :: ls | none => ls
      drain := ls.any fun l => l.stop.isSome
      tripAt := if atEnd then some c.pc else none
      ended := c.ended || b.ended }
    let s' := s.onC fun _ => nextFused (rowEnded s fun _ => true) b done
    let s' := match b.spec with
      | some (p, target) => openSpec p target (s.rdP p) s'
      | none => s'
    if b.abort then abortSpec s' else s'

/-- What a bundle that waits keeps of its attempt: the arrival of a bar (R186, R228), and that an xend stalls (R188). -/
def keepBar (s t : State) : State :=
  let s := s.onC fun c => { c with xendRec := t.c.xendRec }
  if t.c.barRec = s.c.barRec then s
  else
    let s' := s.onC fun c => { c with barRec := t.c.barRec }
    if s.c.txn.act then joinTxn (t.c.txn.acts.getLast?.getD (.store [])) s'
    else match t.c.syq.getLast? with
    | none => s'
    | some q => s'.onC fun c => { c with syq := c.syq ++ [{ q with no := c.cmdNo }], cmdNo := c.cmdNo + 1 }

/-- At most four further bundles issue while a lane holds an operation (R25). -/
def laneFull (c : Core) : Bool := c.lanes.any fun l => l.any fun x => decide (x.nth + 5 ≤ c.bundles)

/-- One attempt to issue the bundle at pc: the state after it and whether it issued. A bundle that waits leaves the state as
it was, but for the arrival of a bar. -/
def issueBundle (s : State) : Bool × State :=
  if laneFull s.c then (false, s)
  else
    let (j, c) := enterBundle s.c
    let entry := s.onC fun _ => c
    let t := issueFrom 9 j s.c.view.isNone entry
    if t.c.bun.stall then (false, keepBar s t)
    else if t.c.halted && !s.c.halted then
      (true, t.onC fun c => { c with view := s.c.view, resume := s.c.resume, bun := s.c.bun })
    else if t.c.bun.stopped || t.c.emu.isSome then (true, t)
    else
      let st := match (bundleWords entry).head? with | some x => stallCount x entry | none => 0
      (true, completeBundle st t)

end Sys2Proof.Machine
end

