-- ==== Sys2Proof/Machine/PlanBlock.lean ====
section
/-! DEFINITION. Query blocks: reading, decoding and validating one, its chains and its order of execution (R244 to R248, R258). -/

namespace Sys2Proof.Machine

/-- How a plan command fails: cause and DETAIL. -/
abbrev PlanRes (α : Type) := Except (Nat × Word) α

/-- Bytes that the issuing task can read (R248): a page without translation or read permission is cause 0x70, poison 0x71. -/
def taskBytes (s : State) (va n : Nat) : PlanRes (List Byte) :=
  match translate s s.c.info.ctx .read false va with
  | .error f => .error (0x70, f.tval)
  | .ok a =>
    if (List.range n).any fun i => poisoned s (a + i) then .error (0x71, BitVec.ofNat 64 va)
    else .ok (s.readBytes a n)

/-- A run of 16-bit fields. -/
def fields16 (bs : List Byte) (o n : Nat) : List Nat := (List.range n).map fun k => leAt bs (o + 2 * k) 2

/-- A node record (Table 14-2), or none where a res0 field is not zero. -/
def nodeOf (bs : List Byte) : Option PlanNode :=
  let b (o : Nat) : Nat := leAt bs o 1
  let nin := b 2
  let ncons := b 3
  let ins := fields16 bs 16 8
  let cons := fields16 bs 32 8
  if b 1 / 32 ≠ 0 ∨ leAt bs 4 2 / 4096 ≠ 0 ∨ leAt bs 6 2 / 1024 ≠ 0 ∨ b 8 / 32 ≠ 0 ∨ b 9 ≠ 0 ∨ leAt bs 48 16 ≠ 0 then none
  else if 8 < nin ∨ 8 < ncons ∨ ins.any (fun x => decide (4095 < x)) ∨ (ins.drop nin).any (· != 0)
      ∨ (cons.drop ncons).any (· != 0) then none
  else some
    { op := b 0, flags := b 1, nin := nin, ncons := ncons, out := leAt bs 4 2, anchor := BitVec.ofNat 10 (leAt bs 6 2)
      ofmt := b 8, sub := leAt bs 10 2, param := leAt bs 12 4, ins := ins.take nin, cons := cons.take ncons }

/-- Flags of a node (Table 14-2). -/
def PlanNode.flag (n : PlanNode) (i : Nat) : Bool := decide (n.flags / 2 ^ i % 2 = 1)
def PlanNode.reassoc (n : PlanNode) : Bool := n.flag 0
def PlanNode.densify (n : PlanNode) : Bool := n.flag 1
def PlanNode.factor (n : PlanNode) : Bool := n.flag 2
def PlanNode.pin (n : PlanNode) : Bool := n.flag 3
def PlanNode.defa (n : PlanNode) : Bool := n.flag 4

/-- Read the records of a block of n nodes; an OFMT that is no format is cause 0x13 (R37). -/
def readNodes (s : State) (qaddr n : Nat) : PlanRes (List PlanNode) :=
  (List.range n).mapM fun i => do
    let bs ← taskBytes s (qaddr + 64 + 64 * i) 64
    match nodeOf bs with
    | some x => if 24 ≤ x.ofmt then .error (0x13, 0) else .ok x
    | none => .error (0x93, 0)

/-- Sources of the ve instruction that SUB names; none where Table 14-3 lists no such opcode. -/
def ewSources (sub : Nat) : Option Nat :=
  if sub = 1 ∨ sub = 2 ∨ sub = 3 ∨ sub = 6 ∨ sub = 7 then some 2
  else if sub = 0x0A then some 3
  else if (8 ≤ sub ∧ sub ≤ 0x12) ∨ sub = 0x28 then some 1
  else none

/-- OP, NIN, SUB, PARAM and the flags that an operator takes (Table 14-3, R248). -/
def opFieldsOk (n : PlanNode) : Bool :=
  let only (k : Nat) := n.nin == k && n.sub == 0 && n.param == 0
  let plain := match n.op with
    | 1 => n.nin == 2 && n.sub == 0 && (n.factor || n.param == 0)
    | 2 => only 2
    | 3 => n.nin == 1 && n.sub == 0
    | 4 => ewSources n.sub == some n.nin && n.param == 0
    | 5 => n.nin == 1 && decide (n.sub ≤ 2) && n.param == 0
    | 6 => only 2
    | 7 => decide (2 ≤ n.nin) && n.sub == 0 && n.param == 0
    | 8 => only 1
    | 9 => only 1
    | 10 => n.nin == 2 && n.sub == 0 && decide (n.param / 2 ^ 26 = 0) && decide (n.param / 2 ^ 10 % 64 = 0)
    | _ => false
  plain && ((!n.reassoc && !n.factor) || n.op == 1) && (!n.densify || n.op == 10)

/-- The node whose result a tensor is. -/
def producer (ns : List PlanNode) (id : Nat) : Option Nat := ns.findIdx? fun n => n.out == id

/-- Consumers and inputs agree, and no two nodes share an OUT (R248). -/
def linksOk (ns : List PlanNode) : Bool :=
  let outs := ns.map (·.out)
  decide (outs.eraseDups.length = outs.length) &&
  ns.zipIdx.all fun x =>
    (x.1.ins.all fun t => match producer ns t with
      | some j => ((ns[j]?).map fun p => p.cons.contains x.2).getD false
      | none => true)
    && x.1.cons.all fun c => ((ns[c]?).map fun p => p.ins.contains x.1.out).getD false

/-- Nodes that can run once the listed ones have: the relation has no cycle exactly where all come to run (R248). -/
def settleNodes (ns : List PlanNode) : Nat → List Nat → List Nat
  | 0, done => done
  | k + 1, done =>
    settleNodes ns k (done ++ (List.range ns.length).filter fun i =>
      !done.contains i && ((ns[i]?).map fun n => n.ins.all fun t => match producer ns t with
        | some j => done.contains j
        | none => true).getD false)

def acyclic (ns : List PlanNode) : Bool := decide ((settleNodes ns ns.length []).length = ns.length)

/-- A descriptor that a block may name: well formed and of a format of R37. -/
def planDesc (s : State) (id : Nat) : Option Desc :=
  match loadDesc s id with
  | .ok d => if d.layout = 1 ∧ d.nd < 2 then none else some d
  | .error _ => none

/-- The reserve of the blocks of a compressed tensor, which neither a query block nor a descriptor gives: a free value within
R199 (log 13). -/
def planReserve (t : TBase) : Nat := 32 * (1 + Config.blockReserve t.id t.base % (2 ^ 27 - 1))

def Desc.ext (d : Desc) : List Nat := d.dims.take d.nd

/-- The first valid aperture register whose VIEW the tensor is (R258). -/
def apertureOf (s : State) (id : Nat) : Option Nat :=
  match s.ctx? with
  | none => none
  | some c => c.aps.toList.findIdx? fun a => decide (a.toNat / 2 ^ 63 = 1) && decide (a.toNat % 4096 = id)

/-- A whole tensor as an operand (R248 to R250): through its aperture where it has one and is no node's result, on its other
buffer where shadow says so. use names the run of its scales. -/
def planTens (s : State) (id : Nat) (shadow view : Bool) (use : Option Bool) : Res Tens := do
  let d ← loadDesc s id
  let t ← baseOf s id d shadow
  let sc ← loadScale s d t use
  let ap ← match (if view then apertureOf s id else none) with
    | some k => (do let a ← loadAperture s k t; .ok (some a))
    | none => .ok none
  let srcSc ← sourceScale s ap
  .ok { d := t, ext := t.dims, org := t.dims.map fun _ => 0, res := 0, acls := 0, view := if ap.isSome then 2 else 0
        scale := sc, xform := (ap.map (·.1)).getD 0, src := ap.map (·.2.1), srcScale := srcSc
        perm := (ap.map (·.2.2.2)).join }

/-- The run of the scales of a node's k-th input: a contract's weight runs along dimension 0 (R52), codes that only move take
none. -/
def scaleUse (n : PlanNode) (k : Nat) : Option Bool :=
  match n.op with
  | 1 => some (k == 1)
  | 4 => some false
  | 5 => some false
  | 8 => some false
  | 10 => if k = 0 then some false else none
  | _ => none

/-- The run of OUT's scales: elementwise, reduce and quantise nodes write through them (R246). -/
def outUse (n : PlanNode) : Option Bool := if n.op = 4 ∨ n.op = 5 ∨ n.op = 8 then some false else none

/-- One format for codes that move unchanged (R169). -/
def codesAgree (x o : Desc) : Bool := x.fmt == o.fmt && !(decide (16 ≤ x.fmt) && decide (x.fmt ≤ 21) && x.cbi != o.cbi)

/-- Formats and shapes of an operator (R248, Table 14-3): a format that is one but not the operator's fails the validation, as R248
has it, and only a code that is none raises cause 0x13 (R37; log 103). The 16,384-element bound of R133 is the engine's to tile. -/
def shapesOk (n : PlanNode) (xs : List Desc) (o : Desc) : Bool :=
  let e := o.ext
  let x (k : Nat) : Desc := (xs[k]?).getD o
  let a := (x 0).ext
  let b := (x 1).ext
  match n.op with
  | 1 => decide (n.ofmt ≤ 2) && a.length == 2 && b.length == 2 && e.length == 2 && a[1]? == b[0]? && e[0]? == a[0]? && e[1]? == b[1]?
  | 2 => codesAgree (x 0) o && a.length == e.length && a.tail == e.tail && (x 1).fmt == 12 && b.length == 1
      && decide (((a[0]?).getD 0 + 7) / 8 ≤ (b[0]?).getD 0)
  | 3 => codesAgree (x 0) o && decide (n.param % 2 ^ 16 + n.param / 2 ^ 16 ≤ (a.getLast?).getD 0)
      && e == a.dropLast ++ [n.param / 2 ^ 16]
  | 4 => (!(decide (0x0B ≤ n.sub) && decide (n.sub ≤ 0x12)) || decide (n.ofmt ≤ 1)) && xs.all fun y => y.ext == e || count y.ext == 1
  | 5 => e == a.dropLast ++ [1] && (n.sub != 0 || decide (n.ofmt ≤ 2))
  | 6 => codesAgree (x 0) o && a.length == e.length && a.tail == e.tail && b.length == 1 && isIndexFmt (x 1).fmt
      && decide ((e[0]?).getD 0 ≤ (b[0]?).getD 0)
  | 7 => xs.all (fun y => codesAgree y o && y.ext.length == e.length && y.ext.tail == e.tail)
      && (xs.map fun y => (y.ext[0]?).getD 0).foldl (· + ·) 0 == (e[0]?).getD 0
  | 8 => decide (3 ≤ n.ofmt) && o.scale.isSome && (a == e || count a == 1)
  | 9 => codesAgree (x 0) o && [0, 1, 2, 7, 8, 11, 12].contains n.ofmt && a.length == 2 && e.length == 2
      && decide ((e[0]?).getD 0 ≤ (a[1]?).getD 0) && decide ((e[1]?).getD 0 ≤ (a[0]?).getD 0)
  | _ => decide (n.ofmt ≤ 2) && a.length == 2 && a[1]? == some 128 && e == a && (x 1).fmt == 12 && b.length == 1
      && (x 1).layout == 0 && decide (320 ≤ (b[0]?).getD 0)

/-- Does a tensor hold an image of a factor form, at a multiple of 64 and by its header as the task reads it (R160, R248)? A buffer
that is not mapped faults at execution (R259), and the result of a node of the block is known only then. -/
def holdsImage (s : State) (t : Tens) : Bool :=
  t.d.base % 64 == 0 && match taskBytes s t.d.base 64 with
  | .error _ => true
  | .ok bs =>
    let h := bs.map BitVec.toNat
    !badHeader h && (h[0]?).getD 1 == 0 && decide (imageSize false ((h[1]?).getD 0) ≤ (t.ext[0]?).getD 0)

/-- Is the image of an apply-factor node one? -/
def imageInput (s : State) (ns : List PlanNode) (n : PlanNode) : Bool :=
  n.op != 10 || match n.ins[1]? with
    | none => false
    | some id => (producer ns id).isSome || match planTens s id false true none with | .ok t => holdsImage s t | .error _ => false

/-- A node's tensors suit its operator: descriptors, scales, apertures, formats and shapes, and a shadow buffer for an output
node (R248). No instruction that writes OUT takes a compressed one (R199). -/
def tensorsOk (s : State) (ns : List PlanNode) (n : PlanNode) : Bool :=
  match n.ins.mapM (planDesc s), planDesc s n.out with
  | some xs, some o =>
    o.fmt == n.ofmt && o.layout != 2 && shapesOk n xs o && (n.ncons != 0 || o.base1 != 0)
      && (n.ins.zipIdx.all fun x => (planTens s x.1 false (producer ns x.1).isNone (scaleUse n x.2)).isOk)
      && (planTens s n.out false false (outUse n)).isOk && imageInput s ns n
  | _, _ => false

/-- Is a node in a chain: a contract flagged REASSOC and not PIN (R258)? -/
def inChain (n : PlanNode) : Bool := n.op == 1 && n.reassoc && !n.pin

/-- An inner node of a chain: its one consumer is in the chain and reads it once. -/
def inner (ns : List PlanNode) (i : Nat) : Bool :=
  match ns[i]? with
  | none => false
  | some n => inChain n && match n.cons with
    | [c] => ((ns[c]?).map fun p => inChain p && (p.ins.filter (· == n.out)).length == 1).getD false
    | _ => false

/-- The leaves of a chain from a node down, left to right, and the span of leaves under each of its nodes. -/
def chainWalk (ns : List PlanNode) : Nat → Nat → Nat → List Nat × List (Nat × Nat × Nat)
  | 0, _, _ => ([], [])
  | k + 1, off, i =>
    let part (off id : Nat) : List Nat × List (Nat × Nat × Nat) :=
      match producer ns id with
      | some j => if inner ns j then chainWalk ns k off j else ([id], [])
      | none => ([id], [])
    match (ns[i]?).map (·.ins) with
    | some [a, b] =>
      let l := part off a
      let r := part (off + l.1.length) b
      (l.1 ++ r.1, (i, off, off + (l.1 ++ r.1).length - 1) :: (l.2 ++ r.2))
    | _ => ([], [])

/-- The chain at its topmost node (R258). -/
def chainOf (ns : List PlanNode) (i : Nat) : Option (List Nat × List (Nat × Nat × Nat)) :=
  match ns[i]? with
  | none => none
  | some n => if inChain n && !inner ns i then some (chainWalk ns ns.length 0 i) else none

/-- A chain of two products or more, which has an order to choose (R261). -/
def chainAt (ns : List PlanNode) (i : Nat) : Option (List Nat × List (Nat × Nat × Nat)) :=
  (chainOf ns i).filter fun w => decide (2 < w.1.length)

/-- Visit a node after what it consumes, first input first. -/
def visit (ns : List PlanNode) : Nat → Nat → List Nat → List Nat
  | 0, _, done => done
  | k + 1, i, done =>
    if done.contains i then done
    else match ns[i]? with
      | none => done
      | some n => (n.ins.foldl (fun d t => match producer ns t with | some j => visit ns k j d | none => d) done) ++ [i]

/-- Post-order of the tree, output nodes in index order (R260). -/
def postOrder (ns : List PlanNode) : List Nat :=
  (List.range ns.length).foldl (fun d i => if ((ns[i]?).map fun n => n.ncons == 0).getD false then visit ns (ns.length + 1) i d else d) []

/-- Does a block pass validation (R248)? -/
def validBlock (s : State) (ns : List PlanNode) : Bool :=
  ns.all opFieldsOk && linksOk ns && acyclic ns && ns.all (tensorsOk s ns)
    && (List.range ns.length).all fun i => (chainAt ns i).all fun c => decide (c.1.length ≤ 8)

/-- Read and validate the block at an address (R244, R248, R266). -/
def loadBlock (s : State) (qaddr : Nat) : PlanRes (List PlanNode) := do
  if qaddr % 64 ≠ 0 then .error (0x93, 0)
  else
    let h ← taskBytes s qaddr 64
    let n := leAt h 0 2
    if leAt h 2 1 ≠ 1 ∨ n < 1 ∨ 256 < n ∨ leAt h 3 61 ≠ 0 then .error (0x93, 0)
    else
      let ns ← readNodes s qaddr n
      if validBlock s ns then .ok ns else .error (0x93, 0)

end Sys2Proof.Machine
end

