-- ==== Sys2Proof/Machine/PlanCost.lean ====
section
/-! DEFINITION. The planner: statistics and estimates, costs of operators and breaks, orders of chains, hints, and the plan it builds (R251 to R263, R271, R272). -/

namespace Sys2Proof.Machine

def ceilDiv (a b : Nat) : Nat := (a + b - 1) / b

/-- A statistics entry as the engine reads it (Table 14-4, R254): one immediate read of its words. -/
def statWord (s : State) (id w : Nat) : Nat :=
  match statHome s .read id w with
  | .ok a => (homeWord s a).toNat
  | .error _ => 0

/-- VERSION of an entry. -/
def statVersion (s : State) (id : Nat) : Nat := statWord s id 0 % 2 ^ 32

/-- Rows and density of a tensor by its entry; 65,536 is 1.0 (R253). -/
def statEst (s : State) (id dim0 : Nat) : Nat × Nat :=
  let w0 := statWord s id 0
  let full (d : Nat) : Nat := if d = 0xFFFF then 65536 else d
  if w0 % 2 ^ 32 = 0 then (dim0, 65536)
  else if w0 / 2 ^ 32 % 2 = 1 then (statWord s id 5 % 2 ^ 32, full (statWord s id 5 / 2 ^ 32 % 65536))
  else (statWord s id 1 % 2 ^ 32, full (statWord s id 2 / 2 ^ 48))

/-- What the planner holds of a tensor, or of a product of a chain: rows, columns, format, density, rank, width of its level,
packed bytes, bytes of its access, bytes of one row; whether reading it costs memory (R259), whether it is a product without a
tensor's name, its only path where it has but one (R258), and whether its scales fit an activation's and a weight's use (R45). -/
structure Est where
  rows   : Nat
  cols   : Nat
  fmt    : Nat
  dens   : Nat
  rank   : Nat
  width  : Nat
  pbytes : Nat
  bytes  : Nat
  rowb   : Nat
  counts : Bool
  isProd : Bool
  only   : Option Nat
  fitA   : Bool
  fitW   : Bool
  deriving DecidableEq, Repr

/-- Table 10-9: the width of the level that holds an address of the current buffer; 192 where it is not mapped (R259). -/
def levelWidth (s : State) (va : Nat) : Nat :=
  match translate s s.c.info.ctx .read true va with
  | .error _ => 192
  | .ok a =>
    if isPoolHome a then 2048 else if isClusterHome a then 512
    else if (Config.dieOfPage (homePhys a / 4096)).toNat = s.me / 64 then 192 else 96

/-- Packed bytes of one row along dimension 0, whose inner extents are given (R43). -/
def rowBytes (fmt : Nat) (inner : List Nat) : Nat :=
  match inner.getLast? with
  | none => 0
  | some k => count inner.dropLast * (4 * ceilDiv k (codesPerWord fmt))

/-- Packed bytes of a tensor of a number of rows (R259). -/
def packedBytes (fmt rows : Nat) (inner : List Nat) : Nat :=
  if inner.isEmpty then 4 * ceilDiv rows (codesPerWord fmt) else rows * rowBytes fmt inner

/-- Packed bytes of a tensor whole. -/
def wholeBytes (t : TBase) : Nat := packedBytes t.fmt ((t.dims[0]?).getD 0) t.dims.tail

/-- The points where a result materialises (R259). -/
def isBreak (ns : List PlanNode) (i : Nat) : Bool :=
  match ns[i]? with
  | none => false
  | some n =>
    [2, 5, 6, 7].contains n.op || n.ncons != 1
      || (n.op == 1 && n.cons.any fun c => ((ns[c]?).map fun p => p.op == 1).getD false)

/-- The estimate of a tensor of the block; given holds the observations of a re-plan (R253, R259, R269). -/
def estOf (s : State) (ns : List PlanNode) (given : List (Nat × Nat × Nat)) (id : Nat) : Est :=
  let leaf := (producer ns id).isNone
  let tA := planTens s id false leaf (some false)
  let tW := planTens s id false leaf (some true)
  match planTens s id false leaf none with
  | .ok t0 =>
    let t := match tA, tW with | .ok t, _ => t | .error _, .ok t => t | _, _ => t0
    let d := t.d
    let e := statEst s id ((d.dims[0]?).getD 0)
    let e := if leaf then ((d.dims[0]?).getD 0, e.2) else e
    let e := ((given.find? fun o => o.1 == id).map (·.2)).getD e
    let rank := if leaf && decide (statVersion s id ≠ 0) then statWord s id 3 % 256 else 0xFF
    let pb := packedBytes d.fmt e.1 d.dims.tail
    let by_ := match t.src with
      | some src => wholeBytes src
      | none => if d.layout = 2 then planReserve d * (d.dims[0]?).getD 0 else pb + (t.scale.map wholeBytes).getD 0
    ⟨e.1, count d.dims.tail, d.fmt, e.2, rank, levelWidth s (match t.src with | some src => src.base | none => d.base), pb, by_,
      if d.dims.tail.isEmpty then 4 else rowBytes d.fmt d.dims.tail,
      leaf || ((producer ns id).map (isBreak ns)).getD true, false,
      if t.view = 2 then some 3 else if d.layout = 2 then some 2 else none,
      tA.isOk, tW.isOk⟩
  | .error _ => ⟨0, 0, 0, 65536, 0xFF, 192, 0, 0, 0, true, false, none, false, false⟩

/-- c_dense and c_fac (R257). -/
def cDense (m n k fa fw : Nat) : Nat :=
  ceilDiv m 128 * ceilDiv n 128 * ceilDiv (k * 128 * (if fa = 0 ∨ fw = 0 then 9 else 1)) (min (fmtDepth fa) (fmtDepth fw)) + 128

def cFac (m k n r : Nat) : Nat := ceilDiv m 128 * ceilDiv ((k + n) * ceilDiv r 32) 4 + 256

/-- The rank that a factor path is costed at (R256). -/
def rankCost (r : Nat) : Nat := if r = 0xFF then 64 else min 64 r

/-- Rows of a sparse gather (R257): density in 1/65,536. -/
def keptRows (k dens : Nat) : Nat := min (32 * ceilDiv k 32) (32 * ceilDiv (ceilDiv (k * dens) 65536) 32)

/-- The operators that a node's operator and flags admit (R256, R272). -/
def candOps (n : PlanNode) : List Nat :=
  match n.op with
  | 1 => [1, 2] ++ (if n.factor && !n.pin then [3, 4] else [])
  | 2 => [0x10]
  | 3 => [0x11]
  | 4 => [0x12]
  | 5 => [0x13]
  | 6 => [0x14]
  | 7 => [0x15]
  | 8 => [0x16]
  | 9 => [0x17]
  | _ => (if n.densify && !n.pin then [1] else []) ++ [3, 4]

/-- A candidate for a node: cost, beats, bytes moved, operator, paths (R259, R262). -/
structure Cand where
  cost  : Nat
  beats : Nat
  bytes : Nat
  opc   : Nat
  paths : List Nat
  deriving DecidableEq, Repr

/-- Lexicographic order on lists of numbers. -/
def listLt : List Nat → List Nat → Bool
  | [], [] => false
  | [], _ => true
  | _, [] => false
  | x :: xs, y :: ys => if x < y then true else if y < x then false else listLt xs ys

def Cand.key (c : Cand) : List Nat := [c.cost, c.beats, c.bytes, c.opc] ++ c.paths

/-- The least by key; the earlier of equals. -/
def leastBy {α : Type} (key : α → List Nat) : List α → Option α
  | [] => none
  | x :: xs => match leastBy key xs with
    | none => some x
    | some y => if listLt (key y) (key x) then some y else some x

/-- The candidate that an operator gives, on inputs a and b and a result of outRows rows and outElems elements (Table 14-5,
R257 to R259). -/
def candOf (n : PlanNode) (opc : Nat) (ins : List Est) (outRows outElems : Nat) : Cand :=
  let x (k : Nat) : Est := (ins[k]?).getD ⟨0, 0, 0, 0, 0, 1, 0, 0, 0, false, false, none, true, true⟩
  let a := x 0
  let b := x 1
  let elems := (outElems :: ins.map fun e => e.rows * e.cols).foldl max 0
  let sparse := n.op == 1 && opc == 2
  let kr := keptRows a.cols a.dens
  let beats :=
    if n.op = 1 then
      (if opc = 1 then cDense a.rows b.cols a.cols a.fmt b.fmt
       else if opc = 2 then 4 * kr + cDense a.rows b.cols kr a.fmt b.fmt
       else if opc = 3 then cFac a.rows a.cols b.cols (rankCost b.rank) + 16384
       else 2 * a.rows * ceilDiv (rankCost b.rank) 32 + 64 + 16384)
    else if n.op = 10 then
      (if opc = 1 then cDense a.rows 128 128 a.fmt 1 + 1024
       else if opc = 3 then cFac a.rows 128 128 (rankCost b.rank)
       else 2 * a.rows * ceilDiv (rankCost b.rank) 32 + 64)
    else if opc = 0x10 then 4 * a.rows
    else if opc = 0x14 then 4 * outRows
    else if opc = 0x12 ∨ opc = 0x13 ∨ opc = 0x16 then ceilDiv elems 64
    else 0
  let amounts := ins.zipIdx.map fun e => if sparse && e.2 == 0 then e.1.pbytes else if sparse && e.2 == 1 then kr * e.1.rowb else e.1.bytes
  let counted := (ins.zip amounts).filter fun e => e.1.counts
  let mem := (counted.map fun e => ceilDiv e.2 e.1.width).foldl (· + ·) 0
  { cost := max beats mem, beats := beats, bytes := (counted.map (·.2)).foldl (· + ·) 0, opc := opc
    paths := ins.zipIdx.map fun e => e.1.only.getD (if sparse && e.2 == 0 then 1 else 0) }

/-- A hint on a node (R271). -/
def hintOf (hs : List Hint) (i kind : Nat) : Option Nat := (hs.find? fun h => h.node == i && h.kind == kind).map fun h => h.val.toNat

/-- Does a candidate agree with a node's hints of operator and path? -/
def hintAllows (hs : List Hint) (i : Nat) (c : Cand) : Bool :=
  ((hintOf hs i 0).all fun v => c.opc == v)
    && (hintOf hs i 1).all fun v => (c.paths[v / 16 % 8]?) == some (v % 4)

/-- The candidates of a node on its inputs: registered operators, a tensor's only path barring the sparse one (R256, R258), and
hints; or for a node that has started the operator that it runs under, which no later hint changes (R269). -/
def candsOf (ops : List Nat) (hs : List Hint) (fixed : Option Nat) (i : Option Nat) (n : PlanNode) (ins : List Est)
    (outRows outElems : Nat) : List Cand :=
  let cands (os : List Nat) : List Cand := os.map fun o => candOf n o ins outRows outElems
  match fixed with
  | some o => cands ((candOps n).filter (· == o))
  | none =>
    let l := cands ((candOps n).filter fun o => ops.contains o && !(o == 2 && (ins.head?.any fun e => e.only.isSome)))
    match i with
    | some k => l.filter (hintAllows hs k)
    | none => l

/-- A best part of a chain: totals, operator and paths of its top product, the list of R262, its top split, its order, its estimate, and what matching nodes chose. -/
structure Part where
  cost  : Nat
  beats : Nat
  bytes : Nat
  opc   : Nat
  paths : List Nat
  lst   : List Nat
  split : Nat
  order : Order
  est   : Est
  picks : List (Nat × Nat × List Nat)
  deriving DecidableEq, Repr

/-- The order of R262 among the candidates for a part, an operator at its top and a split (log 87). -/
def Part.key (p : Part) : List Nat := [p.cost, p.beats, p.bytes, p.opc] ++ p.paths ++ p.lst ++ [p.split]

/-- What planning a chain needs: the nodes, the topmost node's index, leaves with estimates, spans of its nodes, operators,
hints, estimates of the nodes' OUT tensors, and operators already run under. -/
structure ChainCtx where
  ns    : List PlanNode
  top   : Nat
  leaves : List (Nat × Est)
  spans : List (Nat × Nat × Nat)
  ops   : List Nat
  hs    : List Hint
  outs  : List (Nat × Est)
  deriving DecidableEq, Repr

/-- The node whose leaves are exactly those from i to j (R249). -/
def ChainCtx.at_ (x : ChainCtx) (i j : Nat) : Option Nat := (x.spans.find? fun p => p.2.1 == i && p.2.2 == j).map (·.1)

/-- The estimate of the product of leaves i to j (R249, R253, R259): a matching node's OUT tensor, or an intermediate of no
tensor in the topmost node's format. -/
def ChainCtx.prodEst (x : ChainCtx) (i j : Nat) : Est :=
  let rows := ((x.leaves[i]?).map fun l => l.2.rows).getD 0
  let cols := ((x.leaves[j]?).map fun l => l.2.cols).getD 0
  let fmt := ((x.ns[(x.at_ i j).getD x.top]?).map fun n => n.ofmt).getD 1
  let o := (x.at_ i j).bind fun m => (x.outs.find? fun o => o.1 == m).map (·.2)
  let rows := (o.map fun e => e.rows).getD rows
  let pb := rows * (4 * ceilDiv cols (codesPerWord fmt))
  ⟨rows, cols, fmt, (o.map fun e => e.dens).getD 65536, 0xFF, (o.map fun e => e.width).getD 192, pb, pb,
    4 * ceilDiv cols (codesPerWord fmt), true, true, none, true, true⟩

/-- Leaves of an order. -/
def Order.size : Order → Nat
  | .leaf _ => 1
  | .prod _ l r => l.size + r.size

def Order.op : Order → Option Nat
  | .leaf _ => none
  | .prod o _ _ => some o

def Order.left : Order → Option Order
  | .leaf _ => none
  | .prod _ l _ => some l

def Order.right : Order → Option Order
  | .leaf _ => none
  | .prod _ _ r => some r

/-- best(i, j) of R261 for a span of at most k + 1 leaves; keep is the order of a chain that has already run. -/
def bestPart (x : ChainCtx) : Nat → Nat → Nat → Option Order → Option Part
  | 0, _, _, _ => none
  | k + 1, i, j, keep =>
    if i = j then (x.leaves[i]?).map fun l => ⟨0, 0, 0, 0, [], [l.1], 0, .leaf l.1, l.2, []⟩
    else
      let m := x.at_ i j
      let est := x.prodEst i j
      let n := (m.orElse fun _ => some x.top).bind fun t => x.ns[t]?
      let splits := (List.range (j - i)).filter fun d =>
        (if m = some x.top ∧ keep.isNone then (hintOf x.hs x.top 2).all fun v => i + d == v % 8 else true)
          && keep.all fun o => (o.left.map Order.size) == some (d + 1)
      leastBy Part.key (splits.filterMap fun d => do
        let a ← bestPart x k i (i + d) (keep.bind Order.left)
        let b ← bestPart x k (i + d + 1) j (keep.bind Order.right)
        let n ← n
        guard (a.est.fitA && b.est.fitW)
        let c ← leastBy Cand.key (candsOf x.ops x.hs (keep.bind Order.op) m n [a.est, b.est] est.rows (est.rows * est.cols))
        let brk := [a.est, b.est].filter fun e => e.isProd
        some
          { cost := a.cost + b.cost + c.cost + (brk.map fun e => 2 * ceilDiv e.pbytes e.width + 128).foldl (· + ·) 0
            beats := a.beats + b.beats + c.beats
            bytes := a.bytes + b.bytes + c.bytes + (brk.map fun e => 2 * e.pbytes).foldl (· + ·) 0
            opc := c.opc, paths := c.paths, lst := a.lst ++ b.lst ++ [4096], split := i + d, order := .prod c.opc a.order b.order, est := est
            picks := (match m with | some t => [(t, c.opc, c.paths)] | none => []) ++ a.picks ++ b.picks })

/-- Totals while a plan is built. -/
structure Acc0 where
  picks  : List (Nat × Nat × List Nat)
  orders : List (Nat × Order)
  cost   : Nat
  bytes  : Nat
  deriving DecidableEq, Repr

/-- The break cost of a node's output (R259). -/
def addBreak (n : PlanNode) (e : Est) (a : Acc0) : Acc0 :=
  let k := if n.ncons = 0 then 1 else 2
  { a with cost := a.cost + k * ceilDiv e.pbytes e.width + 128, bytes := a.bytes + k * e.pbytes }

/-- Is a node inside a chain that its topmost node plans? -/
def chained (ns : List PlanNode) (i : Nat) : Bool :=
  (List.range ns.length).any fun t => t != i && (chainAt ns t).any fun c => c.2.any fun p => p.1 == i

/-- Plan one node or, at its topmost node, one chain (R260, R261). done and old hold the nodes that have run, as they ran. -/
def planNode (ns : List PlanNode) (ops : List Nat) (hs : List Hint) (est : Nat → Est) (done : List Nat) (old : PlanChoice)
    (a : Acc0) (i : Nat) : Option Acc0 := do
  let n ← ns[i]?
  let out := est n.out
  let fin (a : Acc0) : Acc0 := if isBreak ns i then addBreak n out a else a
  match chainAt ns i with
  | some (leaves, spans) =>
    let x : ChainCtx :=
      { ns := ns, top := i, leaves := leaves.map fun t => (t, est t), spans := spans, ops := ops, hs := hs
        outs := spans.filterMap fun p => (ns[p.1]?).map fun m => (p.1, est m.out) }
    let keep := if done.contains i then (old.orders.find? fun o => o.1 == i).map (·.2) else none
    let b ← bestPart x leaves.length 0 (leaves.length - 1) keep
    some (fin { picks := a.picks ++ b.picks, orders := a.orders ++ [(i, b.order)], cost := a.cost + b.cost, bytes := a.bytes + b.bytes })
  | none =>
    if chained ns i then some a
    else
      let fixed := if done.contains i then old.opcs[i]? else none
      let c ← leastBy Cand.key (candsOf ops hs fixed (some i) n (n.ins.map est) out.rows (out.rows * out.cols))
      some (fin { a with picks := a.picks ++ [(i, c.opc, c.paths)], cost := a.cost + c.cost, bytes := a.bytes + c.bytes })

/-- S of R263: the available units of the die. -/
def slotsOf (s : State) : Nat := popBelow ((s.health.uavail[s.me / 64]?).getD 0).toNat 64

/-- T of R263: the output tiles of a contraction. -/
def outTiles (m n : Nat) : Nat := ceilDiv m 128 * ceilDiv n 128

/-- p of R263: the parts that K is split into on S slots. -/
def splitParts (slots tiles k : Nat) : Nat := if slots ≤ tiles then 1 else max 1 (min (slots / max 1 tiles) (ceilDiv k 256))

/-- The first K index of part q of p (R263). -/
def partFrom (k p q : Nat) : Nat := 32 * (q * ceilDiv k 32 / p)

/-- The slot that tile t, part q of p runs on (R263). -/
def slotOfTile (slots tiles p t q : Nat) : Nat := if slots ≤ tiles then t % slots else t * p + q

/-- The slot of a row of the other operators, which divide their rows in blocks of 16 in order (R263). -/
def slotOfRow (slots rows i : Nat) : Nat := i / 16 * slots / max 1 (ceilDiv rows 16)

/-- Tensors that a block names. -/
def blockTensors (ns : List PlanNode) : List Nat := (ns.flatMap fun n => n.out :: n.ins).eraseDups

/-- The plan of a block (R255, R260); none where a node has no admissible operator left (R256). -/
def buildPlan (s : State) (ns : List PlanNode) (hs : List Hint) (given : List (Nat × Nat × Nat)) (done : List Nat)
    (old : PlanChoice) : Option PlanChoice := do
  let c ← s.ctx?
  let ests := (blockTensors ns).map fun t => (t, estOf s ns given t)
  let est (t : Nat) : Est := ((ests.find? fun e => e.1 == t).map (·.2)).getD (estOf s ns given t)
  let a ← (postOrder ns).foldlM (planNode ns c.pops hs est done old) ⟨[], [], 0, 0⟩
  let pick (i : Nat) := (a.picks.find? fun p => p.1 == i).map (·.2)
  some
    { opcs := (List.range ns.length).map fun i => ((pick i).map (·.1)).getD 0
      paths := (List.range ns.length).map fun i => ((pick i).map (·.2)).getD []
      orders := a.orders, cost := a.cost, bytes := a.bytes, slots := slotsOf s
      est := ests.map fun e => (e.1, e.2.rows, e.2.dens) }

/-- No plan. -/
def PlanChoice.none : PlanChoice := ⟨[], [], [], 0, 0, 0, []⟩

/-- The versions that a plan records (R254). -/
def versionsOf (s : State) (ns : List PlanNode) : List (Nat × Nat) := (blockTensors ns).map fun t => (t, statVersion s t)

/-- Is a hint admissible for a block (R271)? -/
def hintOk (ops : List Nat) (s : State) (ns : List PlanNode) (h : Hint) : Bool :=
  match ns[h.node]? with
  | none => false
  | some n =>
    let v := h.val.toNat
    let only (k : Nat) : Option Nat := (n.ins[k]?).bind fun t =>
      if (producer ns t).isSome then none else if (apertureOf s t).isSome then some 3
      else if (planDesc s t).any fun d => d.layout == 2 then some 2 else none
    match h.kind with
    | 0 => (candOps n).contains v && ops.contains v && !(n.op == 1 && v == 2 && (only 0).isSome)
    | 1 =>
      let k := v / 16 % 8
      decide (v / 2 ^ 7 = 0) && decide (v / 4 % 4 = 0) && decide (k < n.nin)
        && (match only k with
          | some p => v % 4 == p
          | none => v % 4 == 0 || (v % 4 == 1 && n.op == 1 && k == 0 && ops.contains 2))
    | 2 => (chainOf ns h.node).any fun c => decide (v % 8 + 2 ≤ c.1.length)
    | _ => false

/-- The operators registered for the task's context (R256). -/
def opsOf (s : State) : List Nat := (s.ctx?.map fun c => c.pops).getD []

end Sys2Proof.Machine
end

