-- ==== Sys2Proof/Machine/PlanRun.lean ====
section
/-! DEFINITION. Plan handles and executions: plan, pexec, hint, pin, unpin, breaks and the commit of a block (R249, R250, R264 to R273, R341 to R343). -/

namespace Sys2Proof.Machine

/-- A tensor of a block as values: extents, format, codebook, codes and scale codes by element (none without scales). -/
structure PVal where
  dims  : List Nat
  fmt   : Nat
  cb    : List (BitVec 16)
  codes : List Nat
  sc    : List Nat
  deriving DecidableEq, Repr

def PVal.code (v : PVal) (i : Nat) : Nat := (v.codes[i]?).getD 0

/-- Decoded, without and with its scale (R44). -/
def PVal.num (v : PVal) (i : Nat) : Num := decodeNum v.fmt v.cb (v.code i)
def PVal.scale (v : PVal) (i : Nat) : Num := (v.sc[i]?).elim Num.one (decodeNum 1 [])
def PVal.val (v : PVal) (i : Nat) : Num := if v.sc.isEmpty then v.num i else Num.mul (v.num i) (v.scale i)

def PVal.d (v : PVal) (k : Nat) : Nat := (v.dims[k]?).getD 0

/-- Codes recorded under a key. -/
def PlanRun.get (r : PlanRun) (k : Nat) : Option (List Nat) := (r.outs.find? fun o => o.1 == k).map (·.2)

def PlanRun.put (k : Nat) (l : List Nat) (r : PlanRun) : PlanRun := { r with outs := (k, l) :: r.outs.filter fun o => o.1 != k }

def PlanRun.tens (r : PlanRun) (id : Nat) : Option Tens := (r.ds.find? fun o => o.1 == id).map (·.2)

/-- A tensor of the execution; use is the run of its scales, none for codes alone. -/
def PlanRun.val (r : PlanRun) (id : Nat) (use : Option Bool) : PVal :=
  match r.tens id with
  | none => ⟨[], 0, [], [], []⟩
  | some t =>
    let sc := match use with
      | none => []
      | some false => (r.get (4096 + id)).getD []
      | some true => (r.get (8192 + id)).getD []
    ⟨t.ext, t.d.fmt, t.d.cb, (r.get id).getD [], sc⟩

/-- A contraction on S slots (R51 to R56, R246, R263): the parts of K are summed by themselves, combined by fa_merge, and drained
once. No sticky record takes the flags of a plan's drains and roundings: R59 has the drains set OV, and the spec gives the operator
tasks' records to no reader (DESIGN CHOICE, log 89). -/
def contractVals (slots : Nat) (an : Int) (fmt : Nat) (a b : PVal) : PVal :=
  let m := a.d 0
  let k := a.d 1
  let n := b.d 1
  let p := splitParts slots (outTiles m n) k
  let codes := (List.range m).flatMap fun i => (List.range n).map fun j =>
    let part (q : Nat) : FaElem :=
      let lo := partFrom k p q
      let idx := (List.range (min k (partFrom k p (q + 1)) - lo)).map (lo + ·)
      contract an 0 (idx.map fun x => a.num (i * k + x)) (idx.map fun x => b.num (x * n + j))
        (fun r => a.scale (i * k + lo + 32 * r)) (fun r => b.scale ((lo + 32 * r) * n + j))
    (faDrain an ((List.range p).foldl (fun e q => faMerge e (part q)) 0) fmt).1
  ⟨[m, n], fmt, [], codes, []⟩

/-- What names the operands of a contraction under FACTOR. -/
def factorKey (tol : Nat) (an : Int) (fmt : Nat) (a b : PVal) : List Nat :=
  [tol, (an + 512).toNat, fmt, a.fmt, b.fmt] ++ a.dims ++ b.dims ++ a.codes ++ b.codes ++ a.sc ++ b.sc

/-- A contraction under FACTOR by operator 0x03 or 0x04 (R59, R256): the weight, zero outside its extents, is brought into factor
form as mfac does with TOL and a cap of 64, and applied as mapl applies it, both anchors the node's. A weight that no one tile of
128 by 128 holds gives codes that the operands alone decide (log 14). -/
def factorVals (tol : Nat) (an : Int) (fmt : Nat) (a b : PVal) : PVal :=
  let m := a.d 0
  let k := a.d 1
  let n := b.d 1
  let codes :=
    if k ≤ 128 ∧ n ≤ 128 then
      let w := (denseFrom fun i j => (if i < k ∧ j < n then b.val (i * n + j) else Num.zero, 0)).1
      let f := (mfacOf (decodeNum 0 [] tol) 64 w).1
      (List.range m).flatMap fun i =>
        let row := (List.range 128).map fun x =>
          if x < k then (a.num (i * k + x), a.scale (i * k + x)) else (Num.zero, Num.one)
        ((maplRow an an fmt f row).take n).map (·.1)
    else (List.range (m * n)).map fun i => Config.factorCode (factorKey tol an fmt a b) i % 2 ^ fmtWidth fmt
  ⟨[m, n], fmt, [], codes, []⟩

/-- A contraction under a physical operator (Table 14-5). -/
def contractBy (opc slots tol : Nat) (an : Int) (fmt : Nat) (a b : PVal) : PVal :=
  if opc = 3 ∨ opc = 4 then factorVals tol an fmt a b else contractVals slots an fmt a b

/-- The elementwise operation of an opcode on values (Table 7-6). -/
def ewValue (sub : Nat) (v : List Num) : Num :=
  if sub = 1 then Num.add (vAt v 0) (vAt v 1)
  else if sub = 2 then Num.add (vAt v 0) (vAt v 1).neg
  else if sub = 3 then Num.mul (vAt v 0) (vAt v 1)
  else if sub = 6 then Num.maxN (vAt v 0) (vAt v 1)
  else if sub = 7 then Num.minN (vAt v 0) (vAt v 1)
  else if sub = 8 then (vAt v 0).abs
  else if sub = 9 then (vAt v 0).neg
  else if sub = 0x0A then Num.minN (Num.maxN (vAt v 0) (vAt v 1)) (vAt v 2)
  else vAt v 0

/-- The transcendental of an opcode (Tables 5-5, 4-9). -/
def ewTrans (sub : Nat) : Option TransFn :=
  match sub with
  | 0x0B => some .exp
  | 0x0C => some .exp2
  | 0x0D => some .log2
  | 0x0E => some .rcp
  | 0x0F => some .rsq
  | 0x10 => some .sqrt
  | 0x11 => some .tanh
  | 0x12 => some .sigm
  | _ => none

/-- The code of x / d_i in OUT (R135). -/
def outVal (o : PVal) (i : Nat) (x : Num) : Nat := (rndEx o.fmt o.cb 0 (divScale x (o.scale i)).1).1

/-- The code of element i of an elementwise node. -/
def ewCode (n : PlanNode) (o : PVal) (ins : List PVal) (i : Nat) : Nat :=
  let at_ (v : PVal) : Nat := if v.codes.length = 1 then 0 else i
  match ewTrans n.sub, ins with
  | some f, v :: _ => (trans f o.fmt (v.val (at_ v))).1
  | _, [v] => if n.sub = 0x28 ∧ v.fmt = o.fmt then v.code (at_ v) else outVal o i (ewValue n.sub [v.val (at_ v)])
  | _, _ => outVal o i (ewValue n.sub (ins.map fun v => v.val (at_ v)))

/-- The code of one row of a reduction (R140). -/
def reduceCode (sub : Nat) (an : Int) (o : PVal) (row : Nat) (vs : List Num) : Nat :=
  if sub = 0 then (faDrain an (vs.foldl (faAdd an) 0) o.fmt).1
  else
    let f := if sub = 1 then Num.maxN else Num.minN
    outVal o row (match vs with | [] => .inf (sub == 1) | v :: vs => vs.foldl f v)

/-- What a node writes: its codes, the rows that it holds, and new scale codes by element. -/
structure NodeOut where
  codes : List Nat
  rows  : Nat
  sc    : Option (List Nat)
  deriving DecidableEq, Repr

/-- A factor image as values (R160): a dense or malformed image is no image of a factor form (log 14). -/
def imageOf (v : PVal) : Option MReg :=
  let k := v.code 1
  if badHeader (v.codes.take 64) ∨ v.code 0 = 1 ∨ v.codes.length < imageSize false k then none
  else some (imageReg false k (v.codes.drop 64))

/-- The anchor of a node (R247). -/
def nodeAnchor (n : PlanNode) (t : Tens) : Int := if n.defa then t.d.anchor.toInt else n.anchor.toInt

/-- The result of a node that is planned by itself (Table 14-3), under an operator, on S slots. -/
def nodeResult (slots opc : Nat) (r : PlanRun) (n : PlanNode) : PlanRes NodeOut :=
  match r.tens n.out with
  | none => .error (0x93, 0)
  | some t =>
    let x (k : Nat) : PVal := r.val ((n.ins[k]?).getD 0) (scaleUse n k)
    let o : PVal := { r.val n.out (outUse n) with codes := [] }
    let an := nodeAnchor n t
    let rows := o.d 0
    let inner := count o.dims.tail
    let plain (codes : List Nat) : PlanRes NodeOut := .ok ⟨codes, rows, none⟩
    let rowOf (v : PVal) (i : Nat) : List Nat := (v.codes.drop (i * inner)).take inner
    match n.op with
    | 1 => plain (contractBy opc slots n.param an o.fmt (x 0) (x 1)).codes
    | 2 =>
      let bit (i : Nat) : Bool := decide ((x 1).code (i / 8) / 2 ^ (i % 8) % 2 = 1)
      let kept := (List.range ((x 0).d 0)).filter bit
      if rows < kept.length then .error (0x75, 0)
      else .ok ⟨kept.flatMap (rowOf (x 0)) ++ (((r.get (12288 + n.out)).getD []).drop (kept.length * inner)), kept.length, none⟩
    | 3 =>
      let w := ((x 0).dims.getLast?).getD 0
      let p := n.param % 2 ^ 16
      let c := n.param / 2 ^ 16
      plain ((List.range (count (x 0).dims.dropLast)).flatMap fun i => ((x 0).codes.drop (i * w + p)).take c)
    | 4 => plain ((List.range (count o.dims)).map fun i => ewCode n o (n.ins.zipIdx.map fun y => x y.2) i)
    | 5 =>
      let w := ((x 0).dims.getLast?).getD 0
      plain ((List.range (count o.dims)).map fun i =>
        reduceCode n.sub t.d.anchor.toInt o i ((List.range w).map fun j => (x 0).val (i * w + j)))
    | 6 =>
      plain ((List.range rows).flatMap fun i =>
        let k := intOfCode (x 1).fmt ((x 1).code i)
        if 0 ≤ k ∧ k < ((x 0).d 0 : Int) then rowOf (x 0) k.toNat else List.replicate inner 0)
    | 7 => plain (n.ins.zipIdx.flatMap fun y => (x y.2).codes)
    | 8 =>
      let idxs := allIdx t.ext
      let vals := idxs.zipIdx.map fun i => (i.1, (x 0).val (if (x 0).codes.length = 1 then 0 else i.2))
      let scales := runScales t false vals
      let codes := (quantCodes t false 0 scales vals).map (·.1)
      .ok ⟨codes, rows, some (idxs.map fun i =>
        ((scales.find? fun k => k.1 == scaleCoords t.d false (coords t i)).map (·.2)).getD 0x3F80)⟩
    | 9 => plain ((List.range rows).flatMap fun i => (List.range (o.d 1)).map fun j => (x 0).code (j * (x 0).d 1 + i))
    | _ =>
      match imageOf (x 1) with
      | none => .error (0x93, 0)
      | some m =>
        if opc = 1 then
          let w : PVal := ⟨[128, 128], 1, [], (denseFrom fun i j => (m.elem i j, 0)).1.arr.flatMap (·.map BitVec.toNat), []⟩
          plain (contractVals slots an o.fmt (x 0) w).codes
        else
          let a1 := (BitVec.ofNat 10 n.param).toInt
          let a2 := (BitVec.ofNat 10 (n.param / 2 ^ 16)).toInt
          plain ((List.range rows).flatMap fun i =>
            (maplRow a1 a2 o.fmt m ((List.range 128).map fun k => ((x 0).num (i * 128 + k), (x 0).scale (i * 128 + k)))).map (·.1))

/-- The products of a chain's order from a leaf on (R249): the value, the next leaf, and what matching nodes hold. side says
that the part is read as a weight. -/
def evalOrder (slots : Nat) (r : PlanRun) (ns : List PlanNode) (top : Nat) (spans : List (Nat × Nat × Nat)) (side : Bool) :
    Nat → Order → PVal × Nat × List (Nat × List Nat)
  | lo, .leaf id => (r.val id (some side), lo + 1, [])
  | lo, .prod op l x =>
    let a := evalOrder slots r ns top spans false lo l
    let b := evalOrder slots r ns top spans true a.2.1 x
    let m := (spans.find? fun p => p.2.1 == lo && p.2.2 + 1 == b.2.1).map (·.1)
    let n? := ns[m.getD top]?
    let fmt := (n?.map fun n => n.ofmt).getD 1
    let an := match n? with
      | some n => ((r.tens n.out).map (nodeAnchor n)).getD 0
      | none => 0
    let v := contractBy op slots ((n?.map fun n => n.param).getD 0) an fmt a.1 b.1
    (v, b.2.1, (match m with | some i => [(i, v.codes)] | none => []) ++ a.2.2 ++ b.2.2)

/-- The bytes of a plan record (Table 14-6). -/
def planRecord (h : PlanHandle) : List Byte :=
  let c := h.choice
  let path16 (ps : List Nat) : Nat := (ps.zipIdx.map fun p => p.1 * 4 ^ p.2).foldl (· + ·) 0
  let nodes := (c.opcs.zip c.paths).flatMap fun p => natLe 1 p.1 ++ natLe 2 (path16 p.2)
  natLe 1 h.state ++ natLe 1 (if h.pinned then 1 else 0) ++ natLe 2 h.block.length ++ natLe 4 h.replans ++ natLe 8 c.cost
    ++ natLe 8 c.bytes ++ natLe 8 h.qaddr ++ natLe 4 c.slots ++ natLe 28 0 ++ nodes ++ natLe (960 - nodes.length) 0

/-- Put a handle into a context's table and update its record, as one immediate effect (R265). -/
def setPlanIn (ctx n : Nat) (h : PlanHandle) (s : State) : State :=
  match SMap.get? s.mon.ctxs ctx with
  | none => s
  | some c =>
    let s := { s with mon := { s.mon with ctxs := SMap.put s.mon.ctxs ctx { c with plans := SMap.put c.plans n h } } }
    match translate s ctx .write true (c.recd.prbase + 1024 * n) with
    | .error _ => s
    | .ok a => if ctx = s.c.info.ctx then s.write (cellsAt a (planRecord h)) else s.writeOuter (cellsAt a (planRecord h))

/-- The same for the context of the modelled core's task. -/
def setPlan (n : Nat) (h : PlanHandle) (s : State) : State := setPlanIn s.c.info.ctx n h s

/-- plan at the head of the sy queue (R248, R266): it waits while an execution of its handle runs. -/
def runPlan (n : Nat) (q : Cmd) (s : State) : EngRes State :=
  let old := planOf s n
  if old.any fun h => h.run.isSome then .error .wait
  else
    let qaddr := (q.stgAt 0).toNat % 2 ^ 52
    match loadBlock s qaddr with
    | .error (c, d) => .error (.fail c 1 d [])
    | .ok ns =>
      let hs := (old.map fun h => h.hints).getD []
      if !hs.all (hintOk (opsOf s) s ns) then .error (.fail 0x93 1 0 [])
      else match buildPlan s ns hs [] [] PlanChoice.none with
        | none => .error (.fail 0x93 1 0 [])
        | some ch =>
          .ok (popCmd q (setPlan n
            { state := 1, pinned := false, replans := 0, qaddr := qaddr, block := ns, choice := ch
              vers := versionsOf s ns, uavail := (s.health.uavail[s.me / 64]?).getD 0, hints := hs, run := none } s))

/-- hint (R271): the hints of a handle after it, or none where it fails. -/
def addHint (h : PlanHandle) (s : State) (w0 w1 : Word) : Option (List Hint) :=
  let node := w0.toNat % 256
  let kind := w0.toNat / 256 % 4
  let v : BitVec 8 := w1.setWidth 8
  let rest := h.hints.filter fun x => !(x.node == node && x.kind == kind)
  if v = 0xFF ∧ kind ≠ 3 then (if node < h.block.length then some rest else none)
  else
    let x : Hint := ⟨node, kind, v⟩
    if hintOk (opsOf s) s h.block x ∧ rest.length < 16 then some (rest ++ [x]) else none

/-- hint, pin and unpin at the head of the sy queue (R190, R271, R272). -/
def runHint (n : Nat) (q : Cmd) (s : State) : EngRes State :=
  match planOf s n with
  | none => .error (.fail 0x92 1 0 [])
  | some h =>
    match addHint h s (q.stgAt 0) (q.stgAt 1) with
    | none => .error (.fail 0x93 1 0 [])
    | some hs => .ok (popCmd q (setPlan n { h with hints := hs } s))

def runPin (n : Nat) (p : Bool) (q : Cmd) (s : State) : EngRes State :=
  match planOf s n with
  | none => .error (.fail 0x92 1 0 [])
  | some h => .ok (popCmd q (setPlan n { h with pinned := p } s))

/-- A tensor whole, by its descriptor. -/
def bareTens (t : TBase) : Tens :=
  { d := t, ext := t.dims, org := t.dims.map fun _ => 0, res := 0, acls := 0, view := 0, scale := none, xform := 0
    src := none, srcScale := none, perm := none }

/-- The codes of a compressed tensor, a block for each index of dimension 0 (R199, R206, R207, R258; log 13). -/
def readBlocks (q : Cmd) (s : State) (t : TBase) : EngRes (List Nat) := do
  let inner := count t.dims.tail
  let n := planReserve t
  let l ← (List.range ((t.dims[0]?).getD 0)).mapM fun b => do
    if inner = 0 then (.ok [] : EngRes (List Nat))
    else do
      let va := (t.base + b * n) % 2 ^ 52
      let hs ← engGet (byteHomes s .read va n)
      if hs.any (emptyBut q s) then .error .wait
      else if hs.any (poisoned s) then .error (.fail 0x71 1 (BitVec.ofNat 64 va) [])
      else match expandBlock t.fmt inner n (hs.map s.readByte) with
        | none => .error (.fail 0x73 1 0 [])
        | some codes => .ok codes
  .ok l.flatten

/-- The scale codes of a tensor by element, under the keys of PlanRun, for each use that its scale tensor fits (R45). -/
def readScales (q : Cmd) (s : State) (id : Nat) (shadow leaf run0 : Bool) (r : PlanRun) : EngRes PlanRun :=
  match planTens s id shadow leaf (some run0) with
  | .error _ => .ok r
  | .ok t => match t.scale with
    | none => .ok r
    | some x => do
      let idxs := allIdx t.ext
      if !leaf then .ok ()
      else if t.d.layout = 2 then
        engReady q s (bareTens x) false ((idxs.map fun i => scaleCoords t.d run0 (coords t i)).eraseDups)
      else engReady q s t run0 idxs
      let l ← engGet (idxs.mapM fun i => rawCode s x (scaleCoords t.d run0 (coords t i)))
      .ok (r.put ((if run0 then 8192 else 4096) + id) l)

/-- Reads of a leaf at acceptance (R250): its codes and its scales. -/
def readLeaf (q : Cmd) (s : State) (id : Nat) (r : PlanRun) : EngRes PlanRun :=
  match planTens s id false true none with
  | .error _ => .error (.fail 0x93 1 0 [])
  | .ok t => do
    let l ← if t.view ≠ 2 ∧ t.d.layout = 2 then readBlocks q s t.d
      else do
        engReady q s t false (allIdx t.ext)
        engGet ((allIdx t.ext).mapM (codeAt s t))
    let r := { r with ds := r.ds ++ [(id, t)] }
    let r ← readScales q s id false true false (r.put id l)
    readScales q s id false true true r

/-- What acceptance takes of a node's OUT (R246, R249): the buffer that its result will go to, its scales, and for a filter
the rows that it leaves. -/
def readOut (q : Cmd) (s : State) (n : PlanNode) (r : PlanRun) : EngRes PlanRun :=
  match planTens s n.out (n.ncons == 0) false (outUse n) with
  | .error _ => .error (.fail 0x93 1 0 [])
  | .ok t => do
    let r := { r with ds := r.ds ++ [(n.out, t)] }
    let r ← readScales q s n.out (n.ncons == 0) false false r
    let r ← readScales q s n.out (n.ncons == 0) false true r
    if n.op = 2 then do
      let bare := { t with scale := none }
      engReady q s bare false (allIdx t.ext)
      let l ← engGet ((allIdx t.ext).mapM (codeAt s bare))
      .ok (r.put (12288 + n.out) l)
    else .ok r

/-- The tensors that an operand reaches beside its own codes: scales, and for an aperture view its source and permutation. -/
def besideIds (t : Tens) : List Nat := ([t.scale, t.src, t.srcScale, t.perm].filterMap id).map TBase.id

/-- The tensors that a block reads or writes, those behind scales and apertures among them (R45, R208, R250). -/
def reachIds (s : State) (ns : List PlanNode) : List Nat :=
  (blockTensors ns).flatMap fun id =>
    id :: [none, some false, some true].flatMap fun use =>
      match planTens s id false (producer ns id).isNone use with
      | .ok t => besideIds t
      | .error _ => []

/-- The tensors that an execution writes: each OUT, and the scales of a quantise node. -/
def runWrites (ns : List PlanNode) (r : PlanRun) : List Nat :=
  ns.flatMap fun m => m.out :: (if m.op = 8 then ((r.tens m.out).map besideIds).getD [] else [])

/-- Does an accepted block of the context write a tensor that this one reads or writes (R250)? -/
def planConflict (s : State) (ns : List PlanNode) : Bool :=
  (s.ctx?.map fun c => c.plans.any fun p => p.2.run.any fun r => (runWrites p.2.block r).any fun w => (reachIds s ns).contains w).getD false

/-- A pexec as a command, for the delivery of its block's failure (R266). -/
def pexecCmd (n : Nat) (r : PlanRun) : Cmd :=
  { i := .pexec ⟨0, 0⟩ (BitVec.ofNat 10 n), slot := 7, chan := 0, addr := r.addr, word := r.word, stg := [], x := 0, ts := []
    hd := 0, cell := 0, mres := none, image := none, cnt := [], wids := [], void := false, no := r.no, joined := false }

/-- A block fails: nothing of it is committed and STATE reads 3 (R266, R343). -/
def failBlock (n : Nat) (h : PlanHandle) (r : PlanRun) (cause : Nat) (detail : Word) (s : State) : State :=
  (setPlan n { h with state := 3, run := none } s).onC fun c =>
    if c.info.running then { c with failing := some ⟨pexecCmd n r, cause, 1, detail⟩ } else c

/-- Versions that have changed since the plan was built, lowest tensor first (R266). -/
def changedVersions (s : State) (h : PlanHandle) : List Nat :=
  (h.vers.filter fun v => statVersion s v.1 != v.2).map (·.1)

/-- The handle of a pexec at its acceptance: compared, re-planned and re-placed; or the cause of its failure (R264, R266). -/
def acceptHandle (s : State) (h : PlanHandle) : Except (Nat × Word × PlanHandle) PlanHandle :=
  let ch := changedVersions s h
  if !ch.isEmpty && h.pinned then .error (0x90, BitVec.ofNat 64 (ch.foldl min 4095), h)
  else
    let h' := if ch.isEmpty then some h
      else (buildPlan s h.block h.hints [] [] PlanChoice.none).map fun c =>
        { h with choice := c, vers := versionsOf s h.block, replans := h.replans + 1 }
    match h' with
    | none => .error (0x93, 0, h)
    | some h' =>
      let h' := { h' with uavail := (s.health.uavail[s.me / 64]?).getD 0, choice := { h'.choice with slots := slotsOf s } }
      if slotsOf s = 0 then .error (0x94, BitVec.ofNat 64 (s.me / 64), h') else .ok h'

/-- PEXEC_ACCEPT (R250, R264, R266). -/
def execPexecAccept (n : BitVec 10) (s : State) : Out :=
  let no := "PEXEC_ACCEPT"
  match s.c.syq.head?, s.c.failing with
  | some q, none =>
    if !isPexec n.toNat q.i then .refused (.notEnabled no)
    else
      let fail (c : Nat) (d : Word) (s : State) : Out := .next (s.onC fun x => { x with failing := some ⟨q, c, 1, d⟩ })
      match planOf s n.toNat with
      | none => fail 0x92 0 s
      | some h =>
        if h.run.isSome || planConflict s h.block || slipBefore q s.c then .refused (.notEnabled no)
        else match acceptHandle s h with
          | .error (c, d, h') => fail c d (setPlan n.toNat { h' with state := 3 } s)
          | .ok h' =>
            let u := unheld s
            let r0 : PlanRun := ⟨q.no, q.addr, q.word, postOrder h'.block, [], [], [], [], []⟩
            let leaves := (blockTensors h'.block).filter fun t => (producer h'.block t).isNone
            let read : EngRes PlanRun := do
              let r ← leaves.foldlM (fun r t => readLeaf q u t r) r0
              h'.block.foldlM (fun r m => readOut q u m r) r
            match read with
            | .ok r => .next (popCmd q (setPlan n.toNat { h' with state := 2, run := some r } s))
            | .error (.fail c _ d _) => fail c d (setPlan n.toNat { h' with state := 3 } s)
            | .error _ => .refused (.notEnabled no)
  | _, _ => .refused (.notEnabled no)

/-- The statistics write of a break (R268, R341, R342): LROWS and LDENS, and STALE where the estimate is out of bounds. -/
def statObserve (id rows dens : Nat) (stale : Bool) (s : State) : State :=
  match statHome s .write id 0, statHome s .write id 5 with
  | .ok a0, .ok a5 =>
    let w0 := homeWord s a0
    let w0 := if stale then w0 ||| 0x100000000 else w0
    s.write (cellsAt a0 (natLe 8 w0.toNat) ++ cellsAt a5 (natLe 8 (dens * 2 ^ 32 + rows)))
  | _, _ => s

/-- Is an observation within a factor of two of the estimate (R268)? -/
def inBand (e x : Nat) : Bool := decide (e ≤ 2 * x) && decide (x ≤ 2 * e)

/-- Observed density (R268, R341). -/
def observedDens (codes : List Nat) : Nat :=
  if codes.isEmpty then 0 else min 0xFFFF ((codes.filter (· != 0)).length * 65536 / codes.length)

/-- Record a node's result; at a break, its rows go to the commit and its observation into the statistics. The answer says
that the estimate was out of bounds for a node not flagged PIN. -/
def recordNode (h : PlanHandle) (i : Nat) (o : NodeOut) (r : PlanRun) (s : State) : PlanRun × State × Bool :=
  match h.block[i]? with
  | none => (r, s, false)
  | some n =>
    let t? := r.tens n.out
    let r := r.put n.out o.codes
    let r := match o.sc, t? with
      | some l, some t =>
        let new : List (List Nat × Nat) := ((allIdx t.ext).map fun i => scaleCoords t.d false (coords t i)).zip l
        let r := match r.get (8192 + n.out) with
          | some old => r.put (8192 + n.out) (((allIdx t.ext).zip old).map fun (x : List Nat × Nat) =>
              ((new.find? fun (k : List Nat × Nat) => k.1 == scaleCoords t.d true (coords t x.1)).map Prod.snd).getD x.2)
          | none => r
        r.put (4096 + n.out) l
      | _, _ => r
    if isBreak h.block i then
      let e := o.rows * count ((t?.map fun t => t.ext.tail).getD [])
      let dens := observedDens (o.codes.take e)
      let est := ((h.choice.est.find? fun x => x.1 == n.out).map (·.2)).getD (0, 0)
      let out := !(inBand est.1 o.rows && inBand est.2 dens)
      ({ r with rows := r.rows ++ [(n.out, o.rows)], brk := (n.out, o.rows, dens) :: r.brk.filter fun b => b.1 != n.out },
        statObserve n.out o.rows dens out s, out && !n.pin)
    else (r, s, false)

/-- Run a chain at its topmost node (R249): the products of its order, of which those that are a node's result are kept. -/
def runChain (h : PlanHandle) (i : Nat) (spans : List (Nat × Nat × Nat)) (r : PlanRun) (s : State) : PlanRun × State × Bool :=
  match (h.choice.orders.find? fun o => o.1 == i).map (·.2) with
  | none => (r, s, false)
  | some o =>
    let outs := (evalOrder h.choice.slots r h.block i spans false 0 o).2.2.reverse
    outs.foldl (fun a p =>
      let rows := (((h.block[p.1]?).bind fun n => r.tens n.out).bind fun t => t.ext[0]?).getD 0
      let x := recordNode h p.1 ⟨p.2, rows, none⟩ a.1 a.2.1
      (x.1, x.2.1, a.2.2 || x.2.2)) (r, s, false)

/-- Where an execution stands when it stops: what it has come to, the state, whether an estimate was out of bounds, and why the
block fails, if it does. -/
structure RunStop where
  run  : PlanRun
  st   : State
  out  : Bool
  fail : Option (Nat × Word)
  deriving DecidableEq, Repr

/-- Run nodes in post-order as far as the next break. -/
def runToBreak (h : PlanHandle) : List Nat → PlanRun → State → RunStop
  | [], r, s => ⟨{ r with todo := [] }, s, false, none⟩
  | i :: is, r, s =>
    match h.block[i]? with
    | none => ⟨{ r with todo := is }, s, false, none⟩
    | some n =>
      let on (x : PlanRun × State × Bool) : RunStop :=
        if isBreak h.block i then ⟨{ x.1 with todo := is }, x.2.1, x.2.2, none⟩ else runToBreak h is x.1 x.2.1
      match chainAt h.block i with
      | some (_, spans) => on (runChain h i spans r s)
      | none =>
        if chained h.block i then runToBreak h is r s
        else match nodeResult h.choice.slots ((h.choice.opcs[i]?).getD 0) r n with
          | .ok o => on (recordNode h i o r s)
          | .error f => ⟨r, s, false, some f⟩

/-- The observations of the breaks that have just been reached. -/
def breakSeen (h : PlanHandle) (r r' : PlanRun) : List (Nat × Nat × Nat) :=
  let ran := ((List.range h.block.length).filter fun i => r.todo.contains i && !r'.todo.contains i).filterMap fun i =>
    (h.block[i]?).map fun n => n.out
  r'.brk.filter fun b => ran.contains b.1

/-- The handle after a break: re-planned for the nodes that have not started where the estimate was out of bounds, on the break's
observation and the statistics as they stand (R255, R269); a node flagged PIN keeps what it has (R272), and the recorded versions
stay (R342). -/
def afterBreak (h : PlanHandle) (r r' : PlanRun) (out : Bool) (s : State) : PlanHandle :=
  if out && !h.pinned then
    let done := (List.range h.block.length).filter fun i => !r'.todo.contains i || (h.block[i]?).any PlanNode.pin
    match buildPlan s h.block h.hints (breakSeen h r r') done h.choice with
    | some c => { h with choice := c, replans := h.replans + 1, run := some r' }
    | none => { h with run := some r' }
  else { h with run := some r' }

/-- Length of a compressed block of so many elements, of which so many are kept (R206). -/
def blockLen (fmt elems kept : Nat) : Nat := 16 + 4 * ceilDiv elems 32 + 4 * ceilDiv kept (codesPerWord fmt)

/-- A break that the plan holds in compressed form and whose block exceeds the reserve that its estimate gave (R270): RES is
that of min(E, twice the estimated non-zeros), and no output node's break is held so. -/
def overReserve (h : PlanHandle) (r : PlanRun) (fresh i : Nat) : Bool :=
  match h.block[i]? with
  | none => false
  | some n =>
    match r.tens n.out, r.get n.out, isBreak h.block i && n.ncons != 0 with
    | some t, some codes, true =>
      let e := count t.ext
      let est := ((h.choice.est.find? fun x => x.1 == n.out).map (·.2)).getD (0, 0)
      let nnz := ceilDiv (est.1 * count t.ext.tail * est.2) 65536
      let res := 32 * ceilDiv (blockLen t.d.fmt e (min e (2 * nnz))) 32
      Config.holdsCompressed (fresh + i) && decide (res < blockLen t.d.fmt e (codes.filter (· != 0)).length)
    | _, _, _ => false

/-- The first of the nodes that have just run whose compressed break failed its assumption, by its OUT tensor (R270). -/
def overBreak (h : PlanHandle) (r r' : PlanRun) (fresh : Nat) : Option Nat :=
  ((r.todo.filter fun i => !r'.todo.contains i).find? (overReserve h r' fresh)).bind fun i => (h.block[i]?).map fun n => n.out

/-- What becomes of an execution at a break (R268 to R270): where a result held in compressed form exceeds its reserve, a
pinned plan fails, and another re-plans the break on the dense path, which writes the same codes. -/
def endBreak (n : Nat) (h : PlanHandle) (r r' : PlanRun) (out : Bool) (s : State) : State :=
  let s' := s.onC fun c => { c with fresh := c.fresh + h.block.length }
  match overBreak h r r' s.c.fresh, h.pinned with
  | none, _ => setPlan n (afterBreak h r r' out s') s'
  | some _, false => setPlan n (afterBreak { h with replans := h.replans + 1 } r r' out s') s'
  | some id, true => failBlock n h r' 0x91 (BitVec.ofNat 64 id) s'

/-- The nodes that have just run and drain accumulator elements: a contraction, a sum, an applied factor (R50). -/
def drained (h : PlanHandle) (r r' : PlanRun) : List Nat :=
  (r.todo.filter fun i => !r'.todo.contains i).filter fun i => (h.block[i]?).any fun n =>
    n.op == 1 || n.op == 10 || (n.op == 5 && n.sub == 0)

/-- A residue mismatch that a drain of one of the nodes finds (R50, log 80): that node's operator launch, idempotent as every
operator image is, runs again from its start, at most twice; a further mismatch fails the block (R370, R380). -/
def planMismatch (n : Nat) (h : PlanHandle) (r : PlanRun) (nodes : List Nat) (s : State) : State :=
  let i := (nodes[(Config.freeWord s.c.fresh).toNat % nodes.length]?).getD 0
  let t := countResidue (s.onC fun c => { c with upsets := c.upsets.erase 7, fresh := c.fresh + 1 })
  if r.reruns.count i < 2 then setPlan n { h with run := some { r with reruns := i :: r.reruns } } t
  else failBlock n h r 0xF3 0 t

/-- PLAN_BREAK (R268 to R270): the execution runs to its next break. A block that fails keeps what the breaks so far have written
into the statistics (R342). -/
def execPlanBreak (n : BitVec 10) (s : State) : Out :=
  match planOf s n.toNat, s.c.failing with
  | some h, none =>
    (match h.run with
    | some r =>
      if r.todo.isEmpty then .refused (.notEnabled "PLAN_BREAK")
      else
        let x := runToBreak h r.todo r s
        match x.fail with
        | some (c, d) => .next (failBlock n.toNat h r c d x.st)
        | none =>
          let nodes := drained h r x.run
          if s.c.upsets.contains 7 && !nodes.isEmpty then .next (planMismatch n.toNat h r nodes s)
          else .next (endBreak n.toNat h r { x.run with reruns := [] } x.out x.st)
    | none => .refused (.notEnabled "PLAN_BREAK"))
  | _, _ => .refused (.notEnabled "PLAN_BREAK")

/-- The cells that the commit writes for one node: the rows of its result, and a quantise node's scales (R246, R249). -/
def commitCells (s : State) (r : PlanRun) (n : PlanNode) : EngRes (List Host.Cell) := do
  match r.tens n.out, (r.rows.find? fun x => x.1 == n.out).map (·.2) with
  | some t, some rows =>
    let keep := (allIdx t.ext).take (rows * count t.ext.tail)
    let cells ← engGet (regionCells s t (keep.zip ((r.get n.out).getD [])))
    if n.op = 8 then
      match t.scale with
      | none => .ok cells
      | some x => do
        let l := ((allIdx t.ext).map fun i => scaleCoords t.d false (coords t i)).zip ((r.get (4096 + n.out)).getD [])
        let k ← engGet (codeCells s x l.eraseDups)
        .ok (cells ++ k)
    else .ok cells
  | _, _ => .ok []

/-- PLAN_BLOCK_COMMIT (R249, R343): every write of the block and every swap of an output tensor at one instant. -/
def execPlanBlockCommit (n : BitVec 10) (s : State) : Out :=
  match planOf s n.toNat, s.c.failing with
  | some h, none =>
    (match h.run with
    | some r =>
      if !r.todo.isEmpty then .refused (.notEnabled "PLAN_BLOCK_COMMIT")
      else
        let u := unheld s
        let all : EngRes (List (List Host.Cell)) := h.block.mapM (commitCells u r)
        match all with
        | .ok cells =>
          if partialPoison s cells.flatten then .next (failBlock n.toNat h r 0x71 0 s)
          else
            let s' := s.write cells.flatten
            let s' := (h.block.filter fun m => m.ncons == 0).foldl (fun s m => publish m.out s) s'
            .next (setPlan n.toNat { h with state := 1, run := none } s')
        | .error (.fail c _ d _) => .next (failBlock n.toNat h r c d s)
        | .error _ => .refused (.notEnabled "PLAN_BLOCK_COMMIT")
    | none => .refused (.notEnabled "PLAN_BLOCK_COMMIT"))
  | _, _ => .refused (.notEnabled "PLAN_BLOCK_COMMIT")

/-- BINDING_PLANE_UPDATE (R267): the differences build the inactive plane from the resident one; it becomes active only where
the checksum matches, and otherwise a resend is asked for. -/
def execBindingPlaneUpdate (diff : List Host.Cell) (checksum : Nat) (s : State) : Out :=
  let b := s.bind
  let res := if b.active then b.plane1 else b.plane0
  let new := memSetAll diff res
  if Config.bindingChecksum new = checksum then
    .next { s with bind := if b.active then { b with plane0 := new, active := false, resend := false }
      else { b with plane1 := new, active := true, resend := false } }
  else .next { s with bind := { b with resend := true } }

end Sys2Proof.Machine
end

