-- ==== Sys2Proof/Machine/SyncRun.lean ====
section
/-! DEFINITION. The sync engine: its commands at execution, phase boundaries, barriers, collectives (R117, R163, R183 to R192, R216 to R219, R331 to R336). -/

namespace Sys2Proof.Machine

/-- Commands of the other engines, bindings apart, that were issued earlier and are not complete. -/
def earlierCmds (q : Cmd) (c : Core) : List Cmd :=
  (c.cpq.filter fun x => match x.i with | .cpbs _ _ _ _ => false | _ => true) ++ c.spq ++ c.mxq
    |>.filter fun x => decide (x.no < q.no)

/-- Does a fence wait for the command still: its memory writes, its publish? An arrival bound to a cpk that has published is no
part of that (R185). -/
def fenced (x : Cmd) : Bool := match x.i with | .cpk _ _ _ _ => x.image.isNone | _ => true

/-- Does a block that an earlier pexec started run still? Its commit stands before a later phase or fence (R249, Table 11-4,
note i). -/
def blockBefore (q : Cmd) (s : State) : Bool :=
  match s.ctx? with
  | none => false
  | some c => c.plans.any fun p => p.2.run.any fun r => decide (r.no < q.no)

/-- An arrival at the head of the queue (R186): it waits while the task's arrival stands in an incomplete generation. -/
def runArrive (b : Nat) (q : Cmd) (s : State) : EngRes State :=
  if (barOf s.c b).arrived then .error .wait else .ok (popCmd q (arrive b q.x.toNat s))

/-- pub (R187). -/
def runPub (q : Cmd) (s : State) : EngRes State :=
  match q.ts with
  | [t] =>
    if q.void then .ok (popCmd q s)
    else if (earlierCmds q s.c).any fun x => x.wids.contains t.d.id then .error .wait
    else (engPublish t.d.id [] s).map (popCmd q)
  | _ => .ok (popCmd q s)

/-- The bits of a statistics word that are not res0 (R3, Table 14-4). -/
def statShown (w : Nat) : Word := if w = 0 then 0x00000001FFFFFFFF else statMask w

/-- statr (R252): one immediate read; res0 bits read as zero (R3). -/
def runStatr (id : Nat) (q : Cmd) (s : State) : EngRes State := do
  let w := (q.stgAt 0).toNat % 8
  let a ← engGet (statHome s .read id w)
  if homePoisoned s a then .error (.fail 0x71 1 (BitVec.ofNat 64 (statVa s id w)) [])
  else .ok (popCmd q (landCell q (homeWord s a &&& statShown w) s))

/-- statw (R252): it reads VERSION and STALE. -/
def runStatw (id : Nat) (q : Cmd) (s : State) : EngRes State := do
  let w := (q.stgAt 0).toNat % 8
  let _ ← engGet (statHome s .write id w)
  let a0 ← engGet (statHome s .write id 0)
  if homePoisoned s a0 then .error (.fail 0x71 1 (BitVec.ofNat 64 (statVa s id 0)) [])
  else .ok (popCmd q (statWrite id w (q.stgAt 1) s))

/-- evs (R192). -/
def runEvs (e : Nat) (q : Cmd) (s : State) : State :=
  match s.ctx? with
  | none => popCmd q s
  | some c =>
    popCmd q { s with mon := { s.mon with
      ctxs := SMap.put s.mon.ctxs s.c.info.ctx { c with events := SMap.put c.events e ((SMap.get? c.events e).getD 0 + 1) } } }

/-- Bytes that the sync engine reads for the task. -/
def engBytes (s : State) (va n : Nat) : EngRes (List Byte) := do
  let hs ← engGet (byteHomes s .read va n)
  if hs.any (poisoned s) then .error (.fail 0x71 1 (BitVec.ofNat 64 va) []) else .ok (hs.map s.readByte)

/-- The group of a collective id, with its member words (R332). -/
def loadGroup (s : State) (id : Nat) : EngRes (Group × List Nat) := do
  match s.ctx? with
  | none => .error (.fail 0x85 1 0 [])
  | some c => do
    let bs ← engBytes s (c.recd.cgbase + 64 * id) 64
    let g := groupOf bs
    if !g.valid ∨ g.bad then .error (.fail 0x85 1 0 [])
    else do
      let ws ← engBytes s g.mlist (8 * g.nmem)
      .ok (g, (List.range g.nmem).map fun i => leAt ws (8 * i) 8)

/-- The word that names the task (R332, R401). -/
def ownWord (s : State) : Option Nat :=
  s.links.pod.map fun p => p.2 * 2 ^ 48 + p.1 * 2 ^ 32 + s.c.info.t

/-- The task's index in a group, where R333 finds no fault. -/
def memberIndex (s : State) (g : Group) (ws : List Nat) : Option Nat :=
  let ver := pver (fmaskOf s)
  let job := (s.ctx?.bind fun c => c.job).map BitVec.toNat
  if ws.any (fun w => decide (w / 2 ^ 42 % 64 ≠ 0)) ∨ ws.eraseDups.length ≠ ws.length ∨ job ≠ some g.job ∨ ver < g.minv then none
  else (ownWord s).bind fun w => ws.findIdx? (· == w)

/-- The bounds of chunk j of e elements (R334). -/
def chunkLo (n e j : Nat) : Nat := j * e / n
def chunkLen (n e j : Nat) : Nat := (j + 1) * e / n - j * e / n

/-- Do the task's own source and destination suit the kind (R334)? -/
def ownShape (kind n self : Nat) (td ts : Tens) : Bool :=
  match kind with
  | 0 => td.ext == ts.ext
  | 1 => count td.ext == chunkLen n (count ts.ext) self
  | 2 => count ts.ext == chunkLen n (count td.ext) self
  | 3 => chunkLen n (count ts.ext) self == chunkLen n (count td.ext) self
  | _ => true

/-- A coll at the head of the queue starts (R189, R333, R334): its group is checked and its source read. -/
def runColl (kind id : Nat) (q : Cmd) (s : State) : EngRes State :=
  match q.ts with
  | [td, ts] =>
    if s.c.colls.any fun c => c.id == id then .error .wait
    else do
      let (g, ws) ← loadGroup s id
      match memberIndex s g ws with
      | none => .error (.fail 0x85 1 0 [])
      | some self => do
        if !ownShape kind g.nmem self td ts then .error (.fail 0x85 1 0 [])
        else do
          engReady q s ts false (allIdx ts.ext)
          let codes ← engGet ((allIdx ts.ext).mapM (codeAt s ts))
          .ok (s.onC fun c => { c with
            colls := c.colls ++ [⟨id, kind, q.addr, q.word, ts, td, codes, [], [], q.hd, g.nmem, self⟩] })
  | _ => .ok (popCmd q s)

/-- The execution of the sy command at the head of the queue (R163, R219). -/
def syRun (q : Cmd) (s0 : State) : EngRes State :=
  let s := unheld s0
  let done (r : EngRes State) : EngRes State := r.map fun s' => s'.onC fun c => { c with spec := s0.c.spec }
  if slipBefore q s.c then .error .wait
  else match q.i with
    | .phase _ l => if s.c.phaseAt.isSome || blockBefore q s then .error .wait else .ok (s0.onC fun c => { c with phaseAt := some l.toNat })
    | .fence _ _ => if ((earlierCmds q s.c).any fenced) || blockBefore q s then .error .wait else .ok (popCmd q s0)
    | .bara _ b => done (runArrive b.toNat q s)
    | .bar _ b => done (runArrive b.toNat q s)
    | .pub _ _ => done (runPub q s)
    | .statr _ _ id => runStatr id.toNat q s0
    | .statw _ id => done (runStatw id.toNat q s)
    | .evs _ e => .ok (runEvs e.toNat q s0)
    | .plan _ n => done (runPlan n.toNat q s)
    | .pexec _ _ => .error .wait
    | .hint _ n => done (runHint n.toNat q s)
    | .pin _ n => done (runPin n.toNat true q s)
    | .unpin _ n => done (runPin n.toNat false q s)
    | i => match collOf i with
      | some (kind, id) => done (runColl kind id q s)
      | none => .ok (popCmd q s0)

/-- SY_COMMAND_EXECUTE (R163). -/
def execSyCommandExecute (s : State) : Out := runCmd "SY_COMMAND_EXECUTE" s.c.syq.head? syRun s

/-- A ranked atomic in its place at a boundary (R117): own ones name the cell that its old value lands in. -/
structure RankedAct where
  rank : Nat
  pos  : Nat
  op   : Nat
  addr : Nat
  sb   : Word
  cmp  : Word
  own  : Option (BitVec 7)
  deriving DecidableEq, Repr

/-- Insert by rank, then place. -/
def insertRanked (x : RankedAct) : List RankedAct → List RankedAct
  | [] => [x]
  | y :: l => if x.rank < y.rank ∨ (x.rank = y.rank ∧ x.pos < y.pos) then x :: y :: l else y :: insertRanked x l

/-- The ranked atomics of a boundary in order. -/
def rankedOrder (ranks : List Nat) (own : List Ranked) (env : List ForeignRanked) : List RankedAct :=
  let mine := own.zipIdx.map fun x => (⟨rankKey ranks, x.2, x.1.op, x.1.addr, x.1.sb, x.1.cmp, some x.1.cell⟩ : RankedAct)
  let theirs := env.map fun x => (⟨x.rank, x.pos, x.op, x.addr, x.sb, x.cmp, none⟩ : RankedAct)
  (theirs ++ mine).foldr insertRanked []

/-- A compare's predicate lands. The one that an active speculation waits for decides it (R96). -/
def landPred (w : CmpWait) (b : Bool) (s : State) : State :=
  let e : InFlight := ⟨cmpDst w.pd, if b then 1 else 0, s.c.now, 1, 0, true⟩
  s.onC fun c => { c with
    inflight := c.inflight ++ [e]
    spec := c.spec.map fun sp => if sp.pred = w.pd ∧ w.nth ≤ sp.nth then { sp with val := some b } else sp }

/-- A predicate of the checkpoint lands in it, at the place where it stood then (R89, R96). -/
def landSaved (w : CmpWait) (b : Bool) (s : State) : State :=
  let e : InFlight := ⟨cmpDst w.pd, if b then 1 else 0, s.c.now, 1, 0, true⟩
  s.onC fun c => { c with spec := c.spec.map fun sp => { sp with infl := sp.infl ++ [e] } }

/-- An operand of a waiting compare once the value of a cell is known. -/
def fillCmp (cell : BitVec 7) (v : Word) (x : Sum Word (BitVec 7)) : Sum Word (BitVec 7) := if x = .inr cell then .inl v else x

/-- A compare that waits in a lane takes the value of a ranked atomic, which was issued before it in that lane, when it lands
(R95). -/
def fillLane (cell : BitVec 7) (v : Word) (x : Slipped) : Slipped :=
  if isCompare x.i ∧ cell.toNat < 64 then { x with regs := x.regs.setCell (cell.setWidth 6) v } else x

/-- The value of a ranked atomic lands, and with it the compares that waited for it (R95, R117). -/
def landRanked (cell : BitVec 7) (v : Word) (s : State) : State :=
  if cell = 0 then s
  else
    let s := landLate ⟨cellDst cell, v.setWidth 256, s.c.now, 1, 0, true⟩ s
    let s := s.onC fun c => { c with lanes := c.lanes.map fun l => l.map (fillLane cell v) }
    let fill (l : List CmpWait) := l.map fun w => { w with a := fillCmp cell v w.a, b := fillCmp cell v w.b }
    let open_ (l : List CmpWait) := l.filter fun w => match w.a, w.b with | .inl _, .inl _ => false | _, _ => true
    let land (f : CmpWait → Bool → State → State) (l : List CmpWait) (s : State) : State := l.foldl (fun s w => match w.a, w.b with
      | .inl x, .inl y => f w (condWord w.cond x y) s
      | _, _ => s) s
    let ws := fill s.c.cmps
    let old := fill ((s.c.spec.map fun sp => sp.cmps).getD [])
    let s := s.onC fun c => { c with cmps := open_ ws, spec := c.spec.map fun sp => { sp with cmps := open_ old } }
    land landSaved old (land landPred ws s)

/-- One ranked atomic takes effect on its word at home (R117, R218). -/
def applyRanked (land : Bool) (x : RankedAct) (s : State) : State :=
  let old := homeWord s x.addr
  let cells := cellsAt x.addr (natLe 8 (atomicNew x.op old x.sb x.cmp).toNat)
  match x.own with
  | some cell => if land then landRanked cell old (s.write cells) else s.write cells
  | none => s.writeOuter cells

/-- The memory scope that a location lies at, from the modelled core (R234): cluster SRAM 1, the die's memory 2, the
package's 3. -/
def scopeOf (s : State) (a : Nat) : Nat :=
  if isClusterHome a then 1
  else if (Config.dieOfPage (homePhys a / 4096)).toNat = s.me / 64 then 2 else 3

/-- Does a boundary of a level count as one of a scope that holds the location (R234)? -/
def reached (s : State) (l a : Nat) : Bool := decide (scopeOf s a ≤ (s.c.info.mscopes[l]?).getD 0)

/-- A boundary completes (R217): phased writes that it reaches, ranked atomics in rank order, the snapshot. A write to farther
memory waits for an enclosing level (R234). No other task writes the scratchpad (R215). -/
def applyBoundary (l : Nat) (own : List Ranked) (land : Bool) (env : BoundaryEnv) (s : State) : State :=
  let ws := s.c.far ++ env.writes.filter fun c => !isPoolHome c.1
  let s := (s.writeOuter (ws.filter fun c => reached s l c.1)).onC fun c => { c with far := ws.filter fun x => !reached s l x.1 }
  let s := (rankedOrder s.c.info.ranks own (env.ranked.filter fun x => !isPoolHome x.addr)).foldl (fun s x => applyRanked land x s) s
  takeSnapshot s

/-- Does a phase command apply the atomic (R116)? -/
def armedBy (no : Nat) (r : Ranked) : Bool := match r.armed with | some n => decide (n ≤ no) | none => false

/-- PHASE_BOUNDARY_COMPLETE (R184, R217): every task of the scope has arrived. -/
def execPhaseBoundaryComplete (env : BoundaryEnv) (s : State) : Out :=
  match s.c.phaseAt, s.c.syq.head? with
  | some l, some q =>
    let own := s.c.ranked.filter (armedBy q.no)
    let t := s.onC fun c => { c with ranked := c.ranked.filter fun r => !armedBy q.no r, phaseAt := none }
    .next (popCmd q (applyBoundary l own true env t))
  | _, _ => .refused (.notEnabled "PHASE_BOUNDARY_COMPLETE")

/-- BARRIER_GENERATION_COMPLETE (R186). -/
def execBarrierGenerationComplete (b : BitVec 6) (s : State) : Out :=
  let x := barOf s.c b.toNat
  if x.arrived then .next (s.onC fun c => { c with bars := SMap.put c.bars b.toNat { x with begun := false, arrived := false } })
  else .refused (.notEnabled "BARRIER_GENERATION_COMPLETE")

/-- The started collective of an id, with its command at the head of the sy queue. -/
def collAt (id : Nat) (s : State) : Option (Coll × Cmd) :=
  match s.c.colls.find? fun c => c.id == id, s.c.syq.head?, s.c.failing with
  | some c, some q, none => if (collOf q.i).map (·.2) = some id then some (c, q) else none
  | _, _, _ => none

/-- COLLECTIVE_OWNERSHIP_MOVE (R335, R336): a chunk of a member that has not issued, or that has been saved, passes to the next
member that has issued. The task's own chunks pass on with its own save. -/
def execCollectiveOwnershipMove (id : BitVec 8) (chunk : Nat) (issued : List Nat) (s : State) : Out :=
  match collAt id.toNat s with
  | none => .refused (.notEnabled "COLLECTIVE_OWNERSHIP_MOVE")
  | some (c, _) =>
    let owner := ((c.owner.find? fun o => o.1 == chunk).map (·.2)).getD chunk
    let next := ((List.range c.n).map fun k => (owner + 1 + k) % c.n).find? issued.contains
    match next with
    | some m =>
      if c.n ≤ chunk ∨ owner = c.self ∨ !issued.contains c.self ∨ issued.any (fun i => decide (c.n ≤ i)) then
        .refused (.notEnabled "COLLECTIVE_OWNERSHIP_MOVE")
      else .next (s.onC fun k => { k with colls := k.colls.map fun x =>
        if x.id = c.id then { x with owner := (chunk, m) :: x.owner.filter fun o => o.1 != chunk } else x })
    | none => .refused (.notEnabled "COLLECTIVE_OWNERSHIP_MOVE")

/-- The contributions of all members in index order, the task's own among them. -/
def allContribs (c : Coll) (l : List Contribution) : Option (List Contribution) :=
  (List.range c.n).mapM fun m =>
    if m = c.self then some ⟨m, c.src.d.fmt, c.dst.d.anchor, c.codes, c.src.ext⟩
    else match l.filter fun x => x.member == m with
      | [x] => some x
      | _ => none

/-- Elements lo to lo + n - 1 of the exact sum, drained (R189, R335). -/
def reduceCodes (c : Coll) (l : List Contribution) (lo n : Nat) : List (Nat × Flags) :=
  let an := c.dst.d.anchor.toInt
  (List.range n).map fun i =>
    faDrain an (l.foldl (fun e x => faAdd an e (decodeNum x.fmt [] ((x.codes[lo + i]?).getD 0))) 0) c.dst.d.fmt

/-- A code as the destination takes it (R334). -/
def carryCode (c : Coll) (fmt code : Nat) : Nat × Flags :=
  if fmt = c.dst.d.fmt then (code, 0) else rndNum c.dst.d.fmt [] 0 (decodeNum fmt [] code)

/-- What a member's contribution to the task's destination must count, and which of its codes go there (R334). -/
def movedCodes (c : Coll) (x : Contribution) : Option (List Nat) :=
  let d := count c.dst.ext
  match c.kind with
  | 2 => if x.codes.length = chunkLen c.n d x.member then some x.codes else none
  | 3 =>
    let e := x.codes.length
    if chunkLen c.n e c.self = chunkLen c.n d x.member then
      some ((x.codes.drop (chunkLo c.n e c.self)).take (chunkLen c.n e c.self)) else none
  | _ => if x.member ≠ 0 then some [] else if x.codes.length = d then some x.codes else none

/-- What the collective leaves in the destination, in its order, or the member whose shape disagrees (R334). -/
def collCodes (c : Coll) (l : List Contribution) : Except Nat (List (Nat × Flags)) :=
  if c.kind ≤ 1 then
    match l.find? fun x => x.ext != c.src.ext || x.codes.length != c.codes.length with
    | some x => .error x.member
    | none =>
      if c.kind = 0 then .ok (reduceCodes c l 0 (count c.dst.ext))
      else .ok (reduceCodes c l (chunkLo c.n c.codes.length c.self) (count c.dst.ext))
  else do
    let parts ← l.mapM fun x => match movedCodes c x with
      | some cs => .ok (cs.map (carryCode c x.fmt))
      | none => .error x.member
    .ok parts.flatten

/-- What a collective that stops may have written: each byte of its destination prior or new, and since other members decide
what is new, a free value stands for it (R165, R241; log 6). -/
def collCells (c : Coll) (s : State) : List Host.Cell :=
  match homesOf (fun i => elemHomes s .write c.dst.d (coords c.dst i)) (allIdx c.dst.ext) with
  | .ok hs => hs.eraseDups.zipIdx.map fun x => (x.1, (Config.freeWord (s.c.fresh + x.2)).setWidth 8)
  | .error _ => []

/-- The completion of a collective at the task (R334, R335). -/
def collFinish (c : Coll) (l : List Contribution) (residue : Bool) (q : Cmd) (s : State) : EngRes State := do
  if c.kind ≤ 1 ∧ l.any (fun x => x.anchor != c.dst.d.anchor) then .error (.fail 0x06 1 0 [])
  else match collCodes c l with
    | .error m => .error (.fail 0x85 1 (BitVec.ofNat 64 m) (collCells c s))
    | .ok outs => do
      let cells ← engGet (regionCells s c.dst ((allIdx c.dst.ext).zip (outs.map (·.1))))
      if residue && decide (c.kind ≤ 1) then .error (.residue cells)
      else do
        let s' ← engWrite cells (vaOf c.dst ((allIdx c.dst.ext).headD [])) s
        let s' := engFlags q (outs.foldl (fun f o => f ||| o.2) 0) s'
        .ok (popCmd q (s'.onC fun k => { k with colls := k.colls.filter fun x => x.id != c.id }))

/-- COLLECTIVE_COMPLETE (R189, R335): every other member's contribution has come. -/
def execCollectiveComplete (id : BitVec 8) (contribs : List Contribution) (residue : Bool) (s : State) : Out :=
  match collAt id.toNat s with
  | none => .refused (.notEnabled "COLLECTIVE_COMPLETE")
  | some (c, q) =>
    match allContribs c contribs with
    | none => .refused (.notEnabled "COLLECTIVE_COMPLETE")
    | some l => runCmd "COLLECTIVE_COMPLETE" (some q) (collFinish c l residue) s

/-- MEMBER_TIMEOUT (R331, R333, R379): a member that is silent, or has found a fault of its own, counts as lost, and the task
raises cause 0x85 with its index. -/
def execMemberTimeout (id : BitVec 8) (member : Nat) (s : State) : Out :=
  match collAt id.toNat s with
  | none => .refused (.notEnabled "MEMBER_TIMEOUT")
  | some (c, q) =>
    if c.n ≤ member ∨ member = c.self then .refused (.notEnabled "MEMBER_TIMEOUT")
    else .next ((applyFree (collCells c s) s).onC fun k => { k with
      colls := k.colls.map fun x => if x.id = c.id then { x with lost := member :: x.lost } else x
      failing := some ⟨q, 0x85, 1, BitVec.ofNat 64 member⟩ })

end Sys2Proof.Machine
end

