-- ==== Sys2Proof/Machine/CoreEvents.lean ====
section
/-! DEFINITION. What happens in the core between bundles: landing, loop steps, traps, speculation, emulation sequences, execution faults, timeouts (R19 to R34, R85 to R89, R96, R165, R166, R201, R228, R315, R353 to R357, R371). -/

namespace Sys2Proof.Machine

/-- The core has a task that has neither ended nor been halted. -/
def active (s : State) : Bool := s.c.info.running && !s.c.ended && !s.c.halted

/-- The cycle that landing goes by: a task that has ended issues nothing more, and what is in flight still lands (R240). -/
def landingCycle (c : Core) : Nat := if c.ended then c.inflight.foldl (fun m e => max m e.due) c.now else c.now

/-- The first result in issue order that is due. -/
def dueFirst (c : Core) : Option InFlight := c.inflight.find? fun e => decide (e.due ≤ landingCycle c)

/-- Take the first due result out of the list, with earlier-issued ones to the same destination, which it overtakes (R22). -/
def takeDue (now : Nat) (d : Dst) : List InFlight → List InFlight
  | [] => []
  | e :: l => if e.dst != d then e :: takeDue now d l else if e.due ≤ now then l else takeDue now d l

/-- Land the first due result of the kind (R20, R22). -/
def landFirst (name : String) (var : Bool) (s : State) : Out :=
  match dueFirst s.c with
  | some e =>
    if e.var == var then
      .next (s.onC fun c => { landOne c e.dst e.val with inflight := takeDue (landingCycle c) e.dst c.inflight })
    else notNow name
  | none => notNow name

/-- RESULT_LANDING (R22). -/
def execResultLanding (s : State) : Out := landFirst "RESULT_LANDING" false s

/-- VARIABLE_LATENCY_RESULT (R20). -/
def execVariableLatencyResult (s : State) : Out := landFirst "VARIABLE_LATENCY_RESULT" true s

/-- Where a predicate's pending value stands after one more end-of-trip step (R89): from p15 it goes to 48, of which only a
speculation that waits for it keeps account. -/
def shiftPred (p : Nat) : Nat := if p < 8 ∨ (16 ≤ p ∧ p < 48) then p else if p = 15 then 48 else p + 1

/-- The rotation of an end-of-trip step (R85, R86, R89): the ring, p8 to p15, and the predicates that are still to come, that of
an active speculation with them (R96). -/
def rotateLoop (p8 : Bool) (c : Core) : Core :=
  let up (p : BitVec 16) : BitVec 16 := (p &&& 0x00FF) ||| ((p &&& 0x7F00) <<< 1)
  let lost := c.spec.any fun sp => sp.pred == 15
  { c with
    r := { c.r with rpos := c.r.rpos + 1, p := setBit16 (up c.r.p) 8 p8 }
    inflight := c.inflight.filterMap fun e => (shiftDst 1 e.dst).map fun d => { e with dst := d }
    cmps := c.cmps.filterMap fun w => if w.pd = 15 ∧ !lost then none else some { w with pd := shiftPred w.pd }
    spec := c.spec.map fun sp => { sp with pred := shiftPred sp.pred, shift := sp.shift + 1 }
    lanes := c.lanes.map fun l => l.map fun x => { x with shift := x.shift + 1 } }

/-- A loop of the list whose body ends at the address, once its inner one has gone. -/
def nextTrip (a : Word) (ls : List LoopEntry) : Option Word := if ls.head?.any fun l => l.last == a then some a else none

/-- A drained loop starts again with the iterations that are left, as if loop had issued with them (R88). -/
def rearm (k : Nat) (l : LoopEntry) (ls : List LoopEntry) (c : Core) : Core :=
  let p8 := setBit16 (c.r.p &&& 0x00FF) 8 (decide (0 < l.n - k))
  { c with
    loops := { l with n := l.n - k, trip := 0, stop := none } :: ls
    drain := ls.any fun x => x.stop.isSome
    r := if l.rot then { c.r with p := p8 } else c.r }

/-- LOOP_END_OF_TRIP (R85, R88, R315): the step of the innermost loop whose body ends at the completed bundle; an outer body
that ends there takes its own step next. A pending request starts the drain of a pre-emptible loop, outside a speculation
(R97). A drain that ends with no request left, the context having been saved and restored at a safe point inside it,
re-arms the loop at once (log 79). -/
def execLoopEndOfTrip (s : State) : Out :=
  match s.c.tripAt, s.c.loops with
  | some a, l :: ls =>
    if l.last ≠ a ∨ s.c.trap.handler then notNow "LOOP_END_OF_TRIP"
    else
      let trip := l.trip + 1
      let total := l.n + l.e
      let takes := s.c.preempt && s.c.spec.isNone && l.pre && l.stop.isNone && decide (total - l.trip > l.e) && (l.rot || decide (trip < total))
      let stop := if takes then some trip else l.stop
      let l' := { l with trip := trip, stop := stop }
      let c := if l.rot then rotateLoop (stop.isNone && decide (trip < l.n)) s.c else s.c
      let c := { c with drain := c.drain || takes, sinceSafe := if l.pre then 0 else c.sinceSafe }
      let pop := { c with loops := ls, pc := a + 32, tripAt := nextTrip a ls }
      let again := { c with loops := l' :: ls, pc := l.first, tripAt := none }
      .next (s.onC fun _ =>
        match stop with
        | some k =>
          if k + l.e ≤ trip then
            let safe (x : Core) : Core := { x with bun := { x.bun with safe := true, drained := x.preempt } }
            if l.n - k = 0 then safe { pop with drain := ls.any fun x => x.stop.isSome }
            else if again.preempt then safe again else rearm k l' ls again
          else again
        | none => if trip < total then again else pop)
  | _, _ => notNow "LOOP_END_OF_TRIP"

/-- A bundle boundary, or the split point of a bundle that rett re-enters: nothing that goes on has begun, and no step of the
last bundle is left. -/
def betweenBundles (s : State) : Bool :=
  s.c.view.isNone && s.c.emu.isNone && s.c.tripAt.isNone && s.c.trap.due.isNone && (dueFirst s.c).isNone

/-- A bundle boundary. After rett with RESUME above 0 there is none until the resumed bundle completes (R371). -/
def atBoundary (s : State) : Bool :=
  betweenBundles s && (match s.c.resume with | none => true | some j => j == 0)

/-- A residue mismatch goes to the scheduler at a bundle boundary (R379), behind an unresolved speculation (R97). A task that has
ended stands at one. -/
def settleMismatch (s : State) : Out :=
  match s.c.mismatch with
  | none => notNow "RESIDUE_MISMATCH"
  | some p =>
    let t := s.onC fun c => { c with mismatch := none }
    if !s.c.info.running || s.c.halted || !(s.c.ended || atBoundary s) then notNow "RESIDUE_MISMATCH"
    else if speculating s then
      (match specWait s with
      | .deferred c v => .next (deferFault c p.slot v t)
      | _ => notNow "RESIDUE_MISMATCH")
    else .next (deferFault p.cause p.slot (some p.tval) t)

/-- The slots above a slot without effect go on under R33 (R355, R357). -/
def goOn (k : Nat) (s : State) : State :=
  s.onC fun c => { c with view := some (undoView c.r c.bun.psnap c.bun.undo), resume := some (k + 1) }

/-- FETCH_FAULT (R34, R377). A fault met when rett re-enters a bundle at slot j > 0 has SLOT = RESUME = j (log 33). Where a fault
slot suppresses an uncorrectable error of the fetch, the slots above go on, with words that are free values (R357; log 76). -/
def execFetchFault (s : State) : Out :=
  if !active s ∨ s.c.emu.isSome ∨ s.c.tripAt.isSome ∨ s.c.trap.due.isSome then notNow "FETCH_FAULT"
  else match fetchFault? s with
    | none => notNow "FETCH_FAULT"
    | some (cause, tval) =>
      let (j, c) := enterBundle s.c
      let t := raiseWith false true j cause (some tval) (s.onC fun _ => c)
      if t.c.bun.stall then notNow "FETCH_FAULT"
      else if t.c.bun.stopped then .next t
      else .next (goOn j (t.onC fun c => { c with fresh := c.fresh + 8, bun := { c.bun with blind := some c.fresh } }))

/-- The pending execution fault of the lowest slot (R165). -/
def firstPend : List PendFault → Option PendFault
  | [] => none
  | p :: ps =>
    match firstPend ps with
    | some q => if q.slot < p.slot then some q else some p
    | none => some p

/-- Deliver an execution fault at a boundary: RESUME = 0 and SPLIT = 0, with the engine's slot (R165). -/
def deliverExec (slot cause : Nat) (tval : Word) (wantHandler : Bool) (s : State) : State :=
  match s.c.trap.entry, s.c.trap.handler, wantHandler with
  | some e, false, true => takeTrap cause slot 0 tval e s
  | _, _, _ => faultToScheduler cause slot false tval s

/-- An execution fault on its way past the fault slots (R349, R357). -/
def raiseExec (slot cause : Nat) (tval : Word) (s : State) : State :=
  match if offered cause then faultSlot cause slot s else none with
  | none => deliverExec slot cause tval (toHandler cause) s
  | some p =>
    let s := countHit p.n s
    match sfBits p.sfact 63 61 with
    | 3 => deliverExec slot cause tval (sfBits p.sfact 60 59 == 0) s
    | 4 => s
    | 5 => deliverExec slot (sfBits p.sfact 55 48) tval (toHandler cause) s
    | _ => deliverExec slot cause tval (toHandler cause) s

/-- An execution fault behind a completed end goes to the scheduler, past the fault slots (R166, R349). -/
def faultEnded (slot cause : Nat) (tval : Word) (s : State) : State :=
  match if offered cause then faultSlot cause slot s else none with
  | some p =>
    let u := countHit p.n s
    if sfBits p.sfact 63 61 = 4 then u
    else faultToScheduler (if sfBits p.sfact 63 61 = 5 then sfBits p.sfact 55 48 else cause) slot false tval u
  | none => faultToScheduler cause slot false tval s

/-- The entry of a precise fault that waited (R21, R97), or its removal by a fault slot (R357). -/
def dueEntry (d : Due) (s : State) : Out :=
  let t := s.onC fun c => { c with trap := { c.trap with due := none }, bun := { c.bun with stopped := false } }
  if !active s then notNow "TRAP_ENTRY"
  else if speculating s then
    (match specWait s with
    | .deferred c v =>
      let u := deferFault c d.slot v t
      if u.c.info.running then notNow "TRAP_ENTRY" else .next u
    | _ => notNow "TRAP_ENTRY")
  else match suppressor d s with
    | some p => .next (goOn d.slot (countHit p.n t))
    | none => if waitsInFlight s.c then notNow "TRAP_ENTRY" else .next (strike d t)

/-- TRAP_ENTRY (R165, R371): the fault of a slot that waited for its entry; else a pending execution fault is taken at a bundle boundary, once what R21 and R97 name is over; in
handler mode it stays pending. A safe point at the boundary is kept for the return. -/
def execTrapEntry (s : State) : Out :=
  match s.c.trap.due with
  | some d => dueEntry d s
  | none =>
  match firstPend s.c.trap.pend with
  | none => notNow "TRAP_ENTRY"
  | some p =>
    let t := s.onC fun c => { c with trap := { c.trap with pend := c.trap.pend.erase p } }
    if s.c.info.running && s.c.ended && !s.c.trap.handler then .next (faultEnded p.slot p.cause p.tval t)
    else if !active s || s.c.trap.handler || !atBoundary s || waitsInFlight s.c then notNow "TRAP_ENTRY"
    else if speculating s then
      (match specWait s with
      | .deferred c v => .next (deferFault c p.slot v s)
      | _ => notNow "TRAP_ENTRY")
    else
      let (_, c) := enterBundle (landAll s.c)
      let t := s.onC fun _ => { c with trap := { c.trap with pend := c.trap.pend.erase p } }
      let t := t.onC fun k => { k with bun := { k.bun with safe := s.c.bun.safe, drained := s.c.bun.drained } }
      let u := raiseExec p.slot p.cause p.tval t
      .next (if u.c.bun.stopped then u
        else { s.onC (fun c => { c with trap := { c.trap with pend := c.trap.pend.erase p } }) with mon := u.mon })

/-- SPECULATION_RESOLVE (R96): the predicate has landed. -/
def execSpeculationResolve (s : State) : Out :=
  match s.c.spec with
  | none => notNow "SPECULATION_RESOLVE"
  | some sp =>
    match sp.val with
    | none => notNow "SPECULATION_RESOLVE"
    | some v =>
      if s.c.inflight.any (fun e => e.dst == .p sp.pred) || !(atBoundary s || s.c.trap.due.isSome) then
        notNow "SPECULATION_RESOLVE"
      else .next (if v then commitSpec s else abortSpec s)

/-- SAFE_POINT_DISTANCE_EXCEEDED (R315). Where a fault slot suppresses the fault the count starts again. -/
def execSafePointDistanceExceeded (s : State) : Out :=
  if active s && decide (65537 ≤ s.c.sinceSafe) then
    let t := deferFault 0x05 0 none s
    .next (if t.c.info.running then t.onC fun c => { c with sinceSafe := 0 } else t)
  else notNow "SAFE_POINT_DISTANCE_EXCEEDED"

/-- Words that a sequence may not hold (R354): what a br or sy word is, and what a word writes. -/
def emuAllowed : Instr → Bool
  | .nop _ _ => true
  | .b _ _ => true
  | .pset _ _ d => d == 0 || decide (12 ≤ d.toNat)
  | .pclr _ _ d => d == 0 || decide (12 ≤ d.toNat)
  | .pand _ _ d _ _ => d == 0 || decide (12 ≤ d.toNat)
  | .por _ _ d _ _ => d == 0 || decide (12 ≤ d.toNat)
  | .pxor _ _ d _ _ => d == 0 || decide (12 ≤ d.toNat)
  | .pnot _ _ d _ => d == 0 || decide (12 ≤ d.toNat)
  | .pub _ _ => true
  | .fence _ _ => true
  | .evs _ _ => true
  | .asel _ _ => false
  | .awm _ _ _ => false
  | i =>
    let dst := match dstOf i with
      | some (.s r, _) => r == 0 || decide (56 ≤ r.toNat)
      | some (.p d, _) => d == 0 || decide (12 ≤ d.toNat)
      | some (.h _, _) => false
      | some (.stg _, _) => false
      | none => true
    dst && match i.slot with
      | some .br => (match i with
        | .sread _ _ _ _ => true
        | .sreadWm _ _ _ _ => true
        | .sreadSrec _ _ _ _ => true
        | .sreadSat _ _ _ _ => true
        | _ => false)
      | some .sy => (match i with
        | .statr _ _ _ => true
        | _ => isNop i)
      | some _ => true
      | none => isNop i

/-- A word of a sequence at its issue: steps 1 and 4 to 7, then the violations of R354. None where it is suppressed. -/
def emuWord (e : Emu) (s : State) (x : Slot × BitVec 32) : Fate :=
  let (k, f) := x
  let g := guardOf f.toNat
  let hold := guardHolds k g s
  if g.wf = false then .bad 0x10 (wordTval k f false) false false
  else match decodeWord k f with
    | .error .undefined => .bad 0x10 (wordTval k f false) false false
    | .error err =>
      if hold then
        .bad (match err with | .undefined => 0x10 | .reserved => 0x11 | .format => 0x13 | .operand => 0x14)
          (wordTval k f false) false false
      else .skip
    | .ok i =>
      if !hold then .skip
      else if !launchLimits s i then .bad 0x14 (wordTval k f false) false false
      else if emuAllowed i then .run i none
      else .bad 0xD1 (patchTval e.pos e.patch f) false false

/-- A sequence completes (R355): its results become slot k's, named as at the claimed bundle's entry, and the slots above k go on
under R33. -/
def finishEmu (e : Emu) (s : State) : State :=
  let k := (Slot.all[e.slot]?).getD .br
  let c := landAll s.c
  let ex := (c.emu.map fun x => x.ex).getD e.ex
  let r : Word := ex[6]
  let t := s.onC fun _ => { c with emu := none, bun := e.bun, view := some (undoView c.r e.bun.psnap e.bun.undo) }
  let t := if r.getLsbD 6 then writeS k (r.setWidth 6) ex[7] 1 t else t
  let t := if r.getLsbD 11 then writeP k ((r >>> 7).setWidth 4) (r.getLsbD 12) 1 t else t
  goOn e.slot t

/-- One bundle of a sequence. The claimed bundle's own record is put aside while it runs; a b moves the position. -/
def emuBundle (e : Emu) (s : State) : Option State :=
  let ws := emuWords s e
  if guardsWait s ws then none
  else
    let fs := ws.map fun x => (x, emuWord e s x)
    let s0 := s.onC fun c => { c with
      bun := { Bundle.idle with next := BitVec.ofNat 64 (e.pos + 1), psnap := c.r.p } }
    let t := match firstBad fs with
      | some (cause, tv, _) => raiseWith false false e.slot cause (some tv) s0
      | none =>
        match if s.c.trap.tstat.getLsbD 31 then shadowFault s.c (fs.map readNames) else none with
        | some tv => raiseWith false false e.slot 0x20 (some tv) s0
        | none => commit fs s0
    if t.c.bun.stall then none
    else if t.c.bun.stopped || t.c.emu.isNone then some t
    else
      let st := match ws.head? with
        | some x => if [1, 3, 5, 17].contains (opcodeOf x.2.toNat) then 0 else x.2.toNat / 2 ^ 16 % 16
        | none => 0
      some (t.onC fun c => { c with
        now := c.now + 1 + st, bun := e.bun
        emu := c.emu.map fun x => { x with pos := c.bun.next.toNat, issued := x.issued + 1 } })

/-- EMULATION_SEQUENCE (R353 to R355): the first bundle waits for what the slots below have left in flight. -/
def execEmulationSequence (s : State) : Out :=
  match s.c.emu with
  | none => notNow "EMULATION_SEQUENCE"
  | some e =>
    if (dueFirst s.c).isSome ∨ s.c.trap.due.isSome ∨ 4096 < e.issued ∨ (e.issued = 0 ∧ waitsInFlight s.c) then
      notNow "EMULATION_SEQUENCE"
    else if e.len ≤ e.pos then
      (if lanesWait s.c || (awaited s.c).any (fun a => match a.1 with | .ex _ => true | .ep _ => true | _ => false) then
        notNow "EMULATION_SEQUENCE" else .next (finishEmu e s))
    else match emuBundle e s with
      | some t => .next t
      | none => notNow "EMULATION_SEQUENCE"

/-- EMULATION_OVERRUN (R356): cause 0xD2 to the scheduler, with the tval of Table 23-5. -/
def execEmulationOverrun (s : State) : Out :=
  match s.c.emu with
  | none => notNow "EMULATION_OVERRUN"
  | some e =>
    if 4096 < e.issued ∧ s.c.trap.due.isNone then
      .next (faultToScheduler 0xD2 e.slot true (patchTval 0 e.patch e.word) (s.onC fun c => { c with emu := none, bun := e.bun }))
    else notNow "EMULATION_OVERRUN"

/-- A dead-letter record (Table 9-1). -/
def deadLetter (f : Failing) (dropped : Nat) : List Byte :=
  let q := f.cmd
  natLe 1 f.cause ++ natLe 1 q.slot ++ natLe 1 (if q.slot = 5 then q.chan else 0) ++ natLe 1 f.tries ++ natLe 4 dropped
    ++ natLe 8 q.addr.toNat ++ natLe 4 q.word.toNat ++ natLe 4 0 ++ natLe 8 f.detail.toNat ++ natLe 32 q.hd.toNat

/-- Write the record into the task's dead-letter area, where that is mapped and may be written: no access of R305. -/
def writeDeadLetter (f : Failing) (dropped : Nat) (s : State) : State :=
  let a := s.c.info.dla + 64 * s.c.trap.dlaIdx.toNat
  match translate s s.c.info.ctx .write false a with
  | .ok h => s.write (cellsAt h (deadLetter f dropped))
  | .error _ => s

/-- Did a joined cpk fail in the open transaction (R188)? -/
def joinedFailed (f : Failing) (s : State) : Bool :=
  f.cmd.joined && s.c.txn.act && s.c.txn.acts.any fun a => match a with | .pub _ w => w == f.cmd.no + 1 | _ => false

/-- EXECUTION_FAULT (R165, R166): the failed command and the later ones of its queue or channel go, the dead-letter record is
written, and the cause becomes pending; behind a completed end it goes to the scheduler. -/
def execExecutionFault (s : State) : Out :=
  match s.c.failing with
  | none => notNow "EXECUTION_FAULT"
  | some f =>
    let later := laterCmds f.cmd s.c
    let tval : Word := BitVec.ofNat 64 (s.c.trap.dlaIdx.toNat * 2 ^ 52 + f.cmd.addr.toNat % 2 ^ 52)
    let t := if joinedFailed f s then s.onC (abortTxn 2) else s
    let t := later.foldl (fun s q => discardCmd q s) t
    let t := discardCmd f.cmd t
    let t := writeDeadLetter f later.length t
    let t := t.onC fun c => { c with
      failing := none
      colls := if f.cmd.slot = 7 then [] else c.colls
      phaseAt := if f.cmd.slot = 7 then none else c.phaseAt
      trap := { c.trap with dlaIdx := c.trap.dlaIdx + 1 } }
    .next (if t.c.ended then faultEnded f.cmd.slot f.cause tval t
      else t.onC fun c => { c with trap := { c.trap with pend := c.trap.pend ++ [⟨f.cmd.slot, f.cause, tval⟩] } })

/-- The command that an engine, or a cp channel, would execute next. -/
def engineHead (k : Slot) (chan : BitVec 4) (c : Core) : Option Cmd :=
  match k with
  | .mx => c.mxq.head?
  | .cp => chanHead c chan
  | .sp => c.spq.head?
  | .sy => c.syq.head?
  | _ => none

/-- Does a command wait at the head of its queue? -/
def waitsNow (q : Cmd) (s : State) : Bool :=
  let r := match q.slot with
    | 4 => mxRun .quiet q s
    | 5 => cpRun .quiet q s
    | 6 => spRun .quiet q s
    | _ => syRun q s
  match r with | .error .wait => true | _ => false

/-- Does the element that a bound stream delivers next stand in an empty tile? -/
def elementWaits (q : Cmd) (s : State) : Bool :=
  match q.i, q.ts with
  | .cpbs _ _ z _, [t] =>
    let pos := (s.c.z[z.toNat]).pos
    (match (allIdx t.ext)[pos]? with
    | some i => (match readHomes s t false i with | .ok hs => hs.any (emptyBut q s) | .error _ => false)
    | none => false)
  | _, _ => false

/-- Does the command wait for a full/empty tile that it reads: would it move were every tile full (R201)? -/
def tileWaits (q : Cmd) (s : State) : Bool :=
  !laneHolds s q && !writesBehind s q && (elementWaits q s || (waitsNow q s && !waitsNow q (s.onC fun c => { c with counts := [] })))

/-- QUEUE_FULL_EMPTY_TIMEOUT (R201). -/
def execQueueFullEmptyTimeout (k : Slot) (chan : BitVec 4) (s : State) : Out :=
  match engineHead k chan s.c, s.c.failing with
  | some q, none =>
    if tileWaits q s then .next (s.onC fun c => { c with failing := some ⟨q, 0x50, 1, 0⟩ })
    else notNow "QUEUE_FULL_EMPTY_TIMEOUT"
  | _, _ => notNow "QUEUE_FULL_EMPTY_TIMEOUT"

end Sys2Proof.Machine
end

