-- ==== Sys2Proof/Machine/Launch.lean ====
section
/-! DEFINITION. Launch records, placement, and the start of a task (R230 to R239, R320, R384, R401). -/

namespace Sys2Proof.Machine

/-- Is the byte range of the list zero? -/
def zeroAt (bs : List Byte) (o n : Nat) : Bool := decide (leAt bs o n = 0)

/-- A level entry (Table 13-2). -/
def levelOf (v : Nat) : Level := ⟨v % 2 ^ 32, v / 2 ^ 32 % 8, v / 2 ^ 35 % 8, decide (v / 2 ^ 38 % 2 = 1)⟩

/-- A launch record from its 128 bytes (Table 13-1). -/
def recordOf (bs : List Byte) : LaunchRecord :=
  let n := leAt bs 1 1
  let lv (i : Nat) : Nat := leAt bs (64 + 8 * i) 8
  { rver := leAt bs 0 1, nlev := n, fuse := decide (leAt bs 2 1 % 2 = 1), flev := leAt bs 3 1 % 8, entry := leAt bs 4 4
    image := leAt bs 8 8, part := BitVec.ofNat 64 (leAt bs 16 8), dla := leAt bs 24 8, skew := leAt bs 32 3
    args := [40, 48, 56].map fun o => BitVec.ofNat 64 (leAt bs o 8)
    levels := (List.range (min n 8)).map fun i => levelOf (lv i)
    res0 := decide (leAt bs 2 1 / 2 ≠ 0) || decide (leAt bs 3 1 / 8 ≠ 0) || !zeroAt bs 35 5
      || (List.range 8).any fun i => if i < n then decide (lv i / 2 ^ 39 ≠ 0) else decide (lv i ≠ 0) }

/-- The level entry L, a level of extent 1 where there is none. -/
def recLevel (r : LaunchRecord) (l : Nat) : Level := (r.levels[l]?).getD ⟨1, 0, 0, false⟩

/-- P(L - 1), for L from 0: the product of the extents below level L (R231). -/
def recBelow (r : LaunchRecord) (l : Nat) : Nat := (r.levels.take l).foldl (fun p x => p * x.extent) 1

/-- How many tasks the launch has (R231). -/
def recTasks (r : LaunchRecord) : Nat := recBelow r r.nlev

/-- The core numbers that a unit of a domain spans. Cores of the package at pod index j stand from 256 * (j + 1) on, the own
ones from 0 on; a pod spans them all (R231, R328). -/
def domCap : Nat → Nat
  | 0 => 1 | 1 => 8 | 2 => 16 | 3 => 64 | 4 => 256 | _ => 2 ^ 18

/-- The reports of the other packages on which a context's job is bound (R328, R401); a package that belongs to no pod has none. -/
def groupOfCtx (s : State) (ctx : Nat) : List PackageReport :=
  match s.links.pod, (SMap.get? s.mon.ctxs ctx).bind fun c => c.job with
  | some _, some j => s.fe.group.filter fun r => r.job == j
  | _, _ => []

/-- The capacity of a unit of a domain for a launch of a context (R231). -/
def capOf (s : State) (ctx dom : Nat) : Nat := if 5 ≤ dom then 256 * ((groupOfCtx s ctx).length + 1) else domCap dom

/-- The outermost domain whose unit shares a memory scope (Table 13-3, reason 5). -/
def scopeDom : Nat → Nat
  | 0 => 0 | 1 => 2 | 2 => 3 | 3 => 4 | _ => 5

/-- Reason 7: the dead-letter area is aligned, and mapped writable or inside the cluster window. -/
def dlaOk (s : State) (ctx dla : Nat) : Bool :=
  decide (dla % 64 = 0) &&
    (let w := dla / 2 ^ 40
     if w = 0xFFE then decide (dla % 2 ^ 40 + 1024 ≤ 2 ^ 25)
     else decide (w ≠ 0xFFF) && decide (w ≠ 0xFFD)
       && (List.range 16).all fun i => match translate s ctx .write false (dla + 64 * i) with | .ok _ => true | .error _ => false)

/-- The admitted launch image at an address of a context (R314). -/
def imageAt (s : State) (ctx a : Nat) : Option Image :=
  (SMap.get? s.mon.ctxs ctx).bind fun c => c.images.find? fun m => m.base == a && m.kind == 0

/-- Reason 9. -/
def imageOk (s : State) (ctx : Nat) (r : LaunchRecord) : Bool :=
  match SMap.get? s.mon.ctxs ctx, imageAt s ctx r.image with
  | some c, some m => decide (r.entry < m.entries.length) && m.feats.all fun n => !hidden c.recd.fmask n && features.contains n
  | _, _ => false

/-- The free cores of the unit u of capacity cap. -/
def freeIn (free : List Nat) (cap u : Nat) : Nat := (free.filter fun c => c / cap == u).length

/-- Clusters to which a restore is held, by the tasks that they take (R300): the first task of a scope, how many, and its cluster.
A start has none. -/
abbrev Pins := List (Nat × Nat × Nat)

/-- May the unit u of a capacity take tasks base to base + n - 1: does it lie in, or hold, every cluster that one of them is held
to? -/
def pinsOk (pins : Pins) (cap base n u : Nat) : Bool :=
  pins.all fun p => decide (p.1 + p.2.1 ≤ base) || decide (base + n ≤ p.1) || (if cap ≤ 16 then u * cap / 16 == p.2.2 else p.2.2 * 16 / cap == u)

/-- The units of a capacity inside the unit x that may take n tasks from base on and have enough free cores for them, in the order
of the list. -/
def unitsIn (pins : Pins) (free : List Nat) (cap : Nat) (x : Nat × Nat) (base n : Nat) : List Nat :=
  ((free.map (· / cap)).eraseDups).filter fun u =>
    decide (u * cap / x.1 = x.2) && decide (n ≤ freeIn free cap u) && pinsOk pins cap base n u

/-- choose (R235): pack takes the lowest unit with enough free cores, spread the one with the most, ties to the lowest. The
list of free cores stands in the order of the units. -/
def chooseUnit (pins : Pins) (free : List Nat) (cap : Nat) (x : Nat × Nat) (base n : Nat) (spread : Bool) : Option Nat :=
  match unitsIn pins free cap x base n with
  | [] => none
  | u :: us =>
    some (if spread then us.foldl (fun b v => if freeIn free cap b < freeIn free cap v then v else b) u else u)

/-- place (R235): the scope of n levels whose first task is base, in the unit x of a capacity; answers each task's core and
the cores still free. A fused row, by its first task, binds row rank to row position; one that was saved unfused takes any eight
cores of the unit around it (R239). -/
def placeScope (r : LaunchRecord) (pins : Pins) (fz : Nat → Bool) : Nat → List Nat → Nat → Nat × Nat → Option (List (Nat × Nat) × List Nat)
  | 0, free, base, x => if free.contains x.2 then some ([(base, x.2)], free.filter (· != x.2)) else none
  | l + 1, free, base, x =>
    if r.fuse ∧ r.flev = l then
      if fz base then
        if freeIn free 8 x.2 = 8 then
          some ((List.range 8).map (fun i => (base + i, 8 * x.2 + i)), free.filter fun c => c / 8 != x.2)
        else none
      else
        let cs := (free.filter fun c => c / x.1 == x.2 && pinsOk pins 1 base 8 c).take 8
        if cs.length = 8 then some (cs.zipIdx.map fun c => (base + c.2, c.1), free.filter fun c => !cs.contains c) else none
    else
      let cap := if l = 0 then 1 else domCap (recLevel r (l - 1)).domain
      (List.range (recLevel r l).extent).foldl (fun acc k =>
        match acc with
        | none => none
        | some (got, fr) =>
          let b := base + k * recBelow r l
          let y := if r.fuse && decide (r.flev + 1 = l) && !fz b then some x
            else (chooseUnit pins fr cap x b (recBelow r l) (recLevel r l).spread).map fun u => (cap, u)
          match y with
          | none => none
          | some u =>
            match placeScope r pins fz l fr b u with
            | none => none
            | some (g, fr') => some (got ++ g, fr')) (some ([], free))

/-- place_launch (R235): the core of every task, or none where a choice finds no unit. A restored row that was saved unfused
stands for its launch's whole row level only inside wider units (R239). -/
def placeRows (r : LaunchRecord) (pins : Pins) (fz : Nat → Bool) (free : List Nat) : Option (List (Nat × Nat)) :=
  let top := recLevel r (r.nlev - 1)
  if r.fuse && decide (r.flev + 1 = r.nlev) && !fz 0 then (placeScope r pins fz r.nlev free 0 (2 ^ 18, 0)).map (·.1)
  else match chooseUnit pins free (domCap top.domain) (2 ^ 18, 0) 0 (recTasks r) top.spread with
    | none => none
    | some u => (placeScope r pins fz r.nlev free 0 (domCap top.domain, u)).map (·.1)

/-- The placement of a launch that starts: its rows are fused as its record says. -/
def placeLaunch (r : LaunchRecord) (free : List Nat) : Option (List (Nat × Nat)) := placeRows r [] (fun _ => true) free

/-- Could any unit of the outermost domain hold the launch on the cores of the list (Table 13-3, reason 10)? -/
def someUnitHolds (r : LaunchRecord) (free : List Nat) : Bool :=
  let cap := domCap (recLevel r (r.nlev - 1)).domain
  (unitsIn [] free cap (2 ^ 18, 0) 0 (recTasks r)).any fun u => (placeScope r [] (fun _ => true) r.nlev free 0 (cap, u)).isSome

/-- May a context use the core: has it a save area there (R298)? -/
def ctxCore (s : State) (ctx c : Nat) : Bool := (SMap.get? s.mon.ctxs ctx).any fun x => x.saves.any fun a => a.1 == c

/-- The available cores of the package (R235, R383) that a context may use. -/
def availCores (s : State) (ctx : Nat) : List Nat :=
  (List.range 256).filter fun c => ((s.health.uavail.toList[c / 64]?).getD 0).getLsbD (c % 64) && ctxCore s ctx c

/-- Does a launch hold the core: placed, neither retired nor saved? -/
def holdsCore (l : Launch) (c : Nat) : Bool := l.started && l.tasks.any fun r => r.core == c && !r.retired && !r.saved

/-- The tenant of a context. -/
def tenantOfCtx (s : State) (ctx : Nat) : Nat := ((SMap.get? s.mon.ctxs ctx).map fun c => c.recd.tenant).getD 0

/-- Cores that are free for a context: available, held by no launch, and in a cluster whose SRAM no other tenant used last and
on which no task of another tenant stands (R235, R320). -/
def freeCores (s : State) (ctx : Nat) : List Nat :=
  (availCores s ctx).filter fun c =>
    !s.fe.launches.any (fun l => holdsCore l c)
      && (match SMap.get? s.fe.clusters (c / 16) with | some t => t == tenantOfCtx s ctx | none => true)

/-- Insert a package's report by its pod index. -/
def insertReport (r : PackageReport) : List PackageReport → List PackageReport
  | [] => [r]
  | x :: l => if r.pkg < x.pkg then r :: x :: l else x :: insertReport r l

/-- The cores that a launch of a context may be placed on: those of this package, and with DOMAIN pod those that the other
packages of its group report, in the order of the pod index (R401). own are this package's, pick reads a report. -/
def groupCores (s : State) (ctx : Nat) (r : LaunchRecord) (own : List Nat) (pick : PackageReport → List Nat) : List Nat :=
  if (recLevel r (r.nlev - 1)).domain ≠ 5 then own
  else
    let me := (s.links.pod.map (·.1)).getD 0
    let label (x : PackageReport) : List Nat := if x.image then (pick x).map fun c => 256 * (x.pkg + 1) + c else []
    let rs := (groupOfCtx s ctx).foldr insertReport []
    (rs.filter fun x => decide (x.pkg < me)).flatMap label ++ own ++ (rs.filter fun x => decide (me < x.pkg)).flatMap label

/-- Free and available cores for a launch of a context. A core that another package has reported as free is not free where a launch
that this package has placed since holds it. -/
def launchCores (s : State) (ctx : Nat) (r : LaunchRecord) : List Nat :=
  groupCores s ctx r (freeCores s ctx) fun x => x.free.filter fun c => !s.fe.launches.any fun l => holdsCore l (256 * (x.pkg + 1) + c)
def launchAvail (s : State) (ctx : Nat) (r : LaunchRecord) : List Nat := groupCores s ctx r (availCores s ctx) (·.avail)

/-- The refusal reason of a launch record (Table 13-3), or none. -/
def recordRefusal (s : State) (ctx : Nat) (r : LaunchRecord) : Option Nat :=
  let ls := r.levels
  if r.rver ≠ 1 ∨ r.nlev = 0 ∨ 8 < r.nlev ∨ r.res0 then some 1
  else if ls.any fun l => decide (l.extent = 0) || decide (5 < l.domain) || decide (4 < l.mscope) then some 2
  else if (List.range (r.nlev - 1)).any fun i =>
      decide ((recLevel r (i + 1)).domain < (recLevel r i).domain) || decide ((recLevel r (i + 1)).mscope < (recLevel r i).mscope) then some 3
  else if (List.range r.nlev).any fun i => decide (capOf s ctx (recLevel r i).domain < recBelow r (i + 1)) then some 4
  else if ls.any fun l => decide (scopeDom l.mscope < l.domain) then some 5
  else if !partOk r.part then some 6
  else if !dlaOk s ctx r.dla then some 7
  else if r.fuse && (decide (r.nlev ≤ r.flev) || decide ((recLevel r r.flev).domain ≠ 1) || decide (recBelow r (r.flev + 1) ≠ 8)
      || decide (r.skew % 8 ≠ 0)) then some 8
  else if !imageOk s ctx r then some 9
  else if !someUnitHolds r (launchAvail s ctx r) then some 10
  else none

/-- The pool's part of a memory, and the rest. -/
def poolPart (m : List Host.Cell) : List Host.Cell := m.filter fun c => isPoolHome c.1
def otherPart (m : List Host.Cell) : List Host.Cell := m.filter fun c => !isPoolHome c.1

/-- Is the launch's entry idempotent (R370)? -/
def idemLaunch (s : State) (l : Launch) : Bool :=
  match imageAt s l.ctx l.recd.image with
  | some m => m.idem.contains l.recd.entry
  | none => false

/-- What a task of a launch is told at its start (R233, R236, R362, R370). -/
def taskInfo (s : State) (l : Launch) (m : Image) (t : Nat) : TaskInfo :=
  let r := l.recd
  { running := true, ctx := l.ctx, die := l.die, queue := l.q, seq := l.seq, t := t, nlev := r.nlev
    ranks := (List.range r.nlev).map fun i => t / recBelow r i % (recLevel r i).extent
    extents := r.levels.map fun x => x.extent, mscopes := r.levels.map fun x => x.mscope
    part := r.part, dla := r.dla, patch := s.mon.sfCur, idempotent := m.idem.contains r.entry, loopBounds := m.bounds }

/-- The core at the start of a task (R236): arguments in s1 to s3, all else as at a start, fetch at the entry. -/
def startCore (s : State) (l : Launch) (m : Image) (t : Nat) : Core :=
  let arg (i : Nat) : Word := (l.recd.args[i]?).getD 0
  let regs := ((Regs.start.setCell 1 (arg 0)).setCell 2 (arg 1)).setCell 3 (arg 2)
  let rank := if l.recd.fuse then t % 8 else 0
  { Core.start with
    r := regs
    pc := BitVec.ofNat 64 ((m.entries[l.recd.entry]?).getD 0)
    trap := { Core.start.trap with entry := m.handler.map fun a => BitVec.ofNat 64 a }
    info := taskInfo s l m t
    fused := ⟨l.recd.fuse, l.recd.fuse, rank, l.recd.skew / 2 ^ (3 * rank) % 8, if rank = 0 then none else some regs, 0⟩
    fresh := s.c.fresh }

/-- The modelled core takes up a task: its pool is zero, and its first snapshot holds every write performed before (R217,
R236). The instruction-cache lines of other images go (R242). -/
def startTask (l : Launch) (t : Nat) (s : State) : State :=
  match imageAt s l.ctx l.recd.image with
  | none => s
  | some m =>
    let s := takeSnapshot s
    { s with
      c := startCore s l m t
      mem := otherPart s.mem
      poison := s.poison.filter fun b => !isPoolHome (64 * b)
      mon := { s.mon with resident := s.mon.resident.filter fun x => x == (l.ctx, m.meas) } }

/-- The clusters of this package that a placement uses come to belong to the tenant (R320). -/
def takeClusters (place : List (Nat × Nat)) (tenant : Nat) (m : SMap Nat) : SMap Nat :=
  (place.filter fun x => decide (x.2 < 256)).foldl (fun m x => SMap.put m (x.2 / 16) tenant) m

/-- Bind a placed launch: its rows, the tenants of its clusters, and its task on the modelled core (R235). Where it starts again
after a residue mismatch, the first snapshots hold what the abandoned attempt had written farther than its boundaries reached (R380). -/
def bindLaunch (l : Launch) (place : List (Nat × Nat)) (s : State) : State :=
  let s := s.writeOuter l.far
  let l' := { l with
    started := true, far := [], saved := false, preempt := false, sliced := false, patch := s.mon.sfCur
    tasks := place.map fun x => ⟨x.1, x.2, false, false, false, l.recd.fuse⟩ }
  let t := { s with fe := { s.fe with
    launches := s.fe.launches.map fun x => if isRow l.die l.q l.seq x then l' else x
    clusters := takeClusters place (tenantOfCtx s l.ctx) s.fe.clusters } }
  match place.find? fun x => x.2 == s.me with
  | some x => startTask l' x.1 t
  | none => t

end Sys2Proof.Machine
end

