-- ==== Sys2Proof/Machine/FrontEnd.lean ====
section
/-! DEFINITION. The front end: rings, letterbox, launch port, and the end of packets (R274 to R285, R288, R322, R323). -/

namespace Sys2Proof.Machine

/-- The key of a queue of a die. -/
def qKey (die q : Nat) : Nat := die * 1024 + q

/-- The queue of a key. -/
def queueAt (s : State) (k : Nat) : Option Queue := SMap.get? s.fe.queues k

/-- Change the queue of a key. -/
def onQueue (k : Nat) (f : Queue → Queue) (s : State) : State :=
  match queueAt s k with
  | some q => { s with fe := { s.fe with queues := SMap.put s.fe.queues k (f q) } }
  | none => s

/-- Is the host's CXL traffic beyond configuration and mailbox served (R321, R373)? -/
def cxlUp (s : State) : Bool := s.links.linkUp && s.links.ide && s.health.power != 3

/-- Bytes of host memory. -/
def hostBytes (s : State) (a n : Nat) : List Byte := (List.range n).map fun i => homeByte s (hostHome (a + i))

/-- A host write of the device: performed over CXL.cache, or held until the link serves it again. -/
def hostPut (a : Nat) (bs : List Byte) (s : State) : State :=
  if cxlUp s then s.writeOuter (cellsAt (hostHome a) bs)
  else { s with fe := { s.fe with waiting := s.fe.waiting ++ [(a, bs)] } }

/-- A packet from its 64 bytes (Table 15-2). -/
def packetOf (bs : List Byte) : Packet :=
  let ty := leAt bs 0 1
  let fl := leAt bs 1 1
  let sq := leAt bs 8 8
  let dq (o : Nat) : Nat := leAt bs o 2
  let dep (o d : Nat) : List (Nat × Nat) := if dq o / 2 ^ 15 = 1 then [(dq o % 1024, leAt bs d 8)] else []
  { type := ty, fc := fl % 4, ser := decide (fl / 4 % 2 = 1), seq := sq % 2 ^ 54
    deps := dep 16 24 ++ dep 18 32, arg := leAt bs 40 8, amt := leAt bs 48 8
    res0 := decide (fl / 8 ≠ 0) || !zeroAt bs 2 6 || decide (sq / 2 ^ 54 ≠ 0) || decide (dq 16 / 1024 % 32 ≠ 0)
      || decide (dq 18 / 1024 % 32 ≠ 0) || !zeroAt bs 20 4 || !zeroAt bs 56 8 || (decide (ty ≠ 3) && !zeroAt bs 48 8) }

/-- A place in a ring: segment, packets taken of it, and the next sequence number. -/
structure RingPos where
  seg   : Nat
  taken : Nat
  seq   : Nat
  deriving DecidableEq, Repr

/-- Follow the link of a segment whose packets are all taken; none while the link is not written (R276). -/
def followLink (s : State) (p : RingPos) : Option RingPos :=
  if p.taken < 63 then some p
  else
    let l := packetOf (hostBytes s (p.seg + 64 * 63) 64)
    if l.type = 2 then some { p with seg := l.arg, taken := 0 } else none

/-- The packets that stand in order from a place on, at most n of them (R278). -/
def ringPackets (s : State) : Nat → RingPos → List Packet
  | 0, _ => []
  | n + 1, p =>
    match followLink s p with
    | none => []
    | some p =>
      let k := packetOf (hostBytes s (p.seg + 64 * p.taken) 64)
      if k.type = 0 ∨ k.seq ≠ p.seq then []
      else k :: ringPackets s n { p with taken := p.taken + 1, seq := p.seq + 1 }

/-- The cursor of a queue (R281). -/
def cursorOf (q : Queue) : RingPos := ⟨q.curSeg, q.taken, q.curSeq⟩

/-- Move n packets on, with the segments that were drained on the way (R276, R277). -/
def ringMove (s : State) : Nat → RingPos → RingPos × List Nat
  | 0, p => match followLink s p with
    | some p' => (p', if p.taken < 63 then [] else [p.seg])
    | none => (p, [])
  | n + 1, p =>
    match followLink s p with
    | none => (p, [])
    | some p' =>
      let r := ringMove s n { p' with taken := p'.taken + 1, seq := p'.seq + 1 }
      (r.1, (if p.taken < 63 then [] else [p.seg]) ++ r.2)

/-- Return a drained segment to the queue's pool (R277): entry TAIL mod N, then TAIL grows by one. -/
def returnSegment (pool seg : Nat) (s : State) : State :=
  let n := leNat (hostBytes s pool 8)
  let tail := leNat (hostBytes s (pool + 8) 8)
  let arr := leNat (hostBytes s (pool + 16) 8)
  let s := if n = 0 then s else hostPut (arr + 8 * (tail % n)) (natLe 8 seg) s
  hostPut (pool + 8) (natLe 8 (tail + 1)) s

/-- The refusal reason of a packet (R278), or none. -/
def packetRefusal (s : State) (die : Nat) (q : Queue) (k : Packet) : Option Nat :=
  if !([1, 3, 4].contains k.type) || k.res0 then some 16
  else if k.deps.any fun d =>
      match queueAt s (qKey die d.1) with
      | some x => !x.e.en || decide (x.e.ctx ≠ q.e.ctx)
      | none => true then some 17
  else none

/-- One more on the duplicate counter of a die (R279, R282, R284). -/
def countDup (die : BitVec 2) (s : State) : State :=
  { s with fe := { s.fe with dups := s.fe.dups.set die.toNat (s.fe.dups[die.toNat]'die.isLt + 1) die.isLt } }

/-- A doorbell in the letterbox of a die (R279). -/
def postLetter (die q n : Nat) (s : State) : State :=
  let hit (e : LetterEntry) : Bool := e.die == die && e.q == q && !e.read
  let f := s.fe
  if f.letters.any hit then
    { s with fe := { f with letters := f.letters.map fun e => if hit e then { e with seq := max e.seq n } else e } }
  else if (f.letters.filter fun e => e.die == die).length < 64 then
    { s with fe := { f with letters := f.letters ++ [⟨die, q, n, false⟩] } }
  else
    let k := qKey die q
    { s with fe := { f with overflow := if f.overflow.contains k then f.overflow else k :: f.overflow } }

/-- DOORBELL (R279, R284, R321, R322): before IDE stands it completes with unsupported-request status; one for another context's queue, or for a queue that is
not enabled, counts as a duplicate; any other wakes the package from standby (R338). -/
def execDoorbell (ctx : BitVec 12) (die : BitVec 2) (v : Word) (s : State) : Out :=
  if !s.links.linkUp || s.health.power == 3 then notNow "DOORBELL"
  else if !s.links.ide then .next { s with links := { s.links with io := none } }
  else
    let q := v.toNat / 2 ^ 54
    let n := v.toNat % 2 ^ 54
    let ok := match queueAt s (qKey die.toNat q) with
      | some x => x.e.en && decide (x.e.ctx = ctx.toNat)
      | none => false
    if ok then .next (postLetter die.toNat q n { s with health := { s.health with power := 0 } })
    else .next (countDup die s)

/-- Is there a doorbell of the queue that firmware has not finished with: a held entry, or an overflow bit that it has read
(R278, R280)? -/
def doorbellHeld (die q : Nat) (s : State) : Bool :=
  (s.fe.letters.any fun e => e.die == die && e.q == q) || s.fe.handling.contains (qKey die q)

/-- FRONT_END_RING_READ (R278): the packets in order from the cursor on, at a doorbell of the queue. -/
def execFrontEndRingRead (die : BitVec 2) (q : BitVec 10) (s : State) : Out :=
  let k := qKey die.toNat q.toNat
  match queueAt s k with
  | some x =>
    if !x.e.en || !cxlUp s || !doorbellHeld die.toNat q.toNat s then notNow "FRONT_END_RING_READ"
    else .next (onQueue k (fun x => { x with read := ringPackets s (s.mem.length + s.outer.length) (cursorOf x) }) s)
  | none => notNow "FRONT_END_RING_READ"

/-- Mark the first entry that is unread. -/
def markRead (die : Nat) : List LetterEntry → List LetterEntry
  | [] => []
  | e :: l => if e.die = die ∧ !e.read then { e with read := true } :: l else e :: markRead die l

/-- LETTERBOX_READ (R280): the oldest unread entry is marked read. -/
def execLetterboxRead (die : BitVec 2) (s : State) : Out :=
  if s.fe.letters.any fun e => e.die == die.toNat && !e.read then
    .next { s with fe := { s.fe with letters := markRead die.toNat s.fe.letters } }
  else notNow "LETTERBOX_READ"

/-- Take the first entry of a queue out. -/
def dropLetter (die q : Nat) : List LetterEntry → List LetterEntry
  | [] => []
  | e :: l => if e.die = die ∧ e.q = q ∧ e.read then l else e :: dropLetter die q l

/-- The cursor just past the last packet written to the port; drained segments go to the pool (R277, R281). -/
def moveCursor (k : Nat) (s : State) : State :=
  match queueAt s k with
  | none => s
  | some x =>
    let m := ringMove s (x.lastSeq + 1 - x.curSeq) (cursorOf x)
    let t := onQueue k (fun x => { x with curSeg := m.1.seg, taken := m.1.taken, curSeq := m.1.seq }) s
    m.2.foldl (fun t seg => returnSegment x.e.pool seg t) t

/-- LETTERBOX_RETIRE (R280, R281): a read entry goes once every packet up to its SEQ, or every packet that stands in the ring,
has been written to the port; so does an overflow bit that firmware handles. -/
def execLetterboxRetire (die : BitVec 2) (q : BitVec 10) (s : State) : Out :=
  let k := qKey die.toNat q.toNat
  match queueAt s k with
  | none => notNow "LETTERBOX_RETIRE"
  | some x =>
    let rest := ringPackets s 1 (ringMove s (x.lastSeq + 1 - x.curSeq) (cursorOf x)).1
    let taken (n : Nat) : Bool := decide (n ≤ x.lastSeq) || rest.isEmpty
    if !cxlUp s then notNow "LETTERBOX_RETIRE"
    else match s.fe.letters.find? fun e => e.die == die.toNat && e.q == q.toNat && e.read with
      | some e =>
        if taken e.seq then
          let t := moveCursor k s
          .next { t with fe := { t.fe with letters := dropLetter die.toNat q.toNat t.fe.letters } }
        else notNow "LETTERBOX_RETIRE"
      | none =>
        if s.fe.handling.contains k && rest.isEmpty then
          let t := moveCursor k s
          .next { t with fe := { t.fe with handling := t.fe.handling.filter (· != k) } }
        else notNow "LETTERBOX_RETIRE"

/-- OVERFLOW_MASK_READ_CLEAR (R280). -/
def execOverflowMaskReadClear (die : BitVec 2) (s : State) : Out :=
  let mine (k : Nat) : Bool := k / 1024 == die.toNat
  .next { s with fe := { s.fe with
    overflow := s.fe.overflow.filter fun k => !mine k
    handling := (s.fe.handling ++ s.fe.overflow.filter mine).eraseDups } }

/-- The completion word covers every sequence number up to the first that has not ended (R288). -/
def advanceDone : Nat → Nat → List Nat → Nat
  | 0, d, _ => d
  | n + 1, d, ended => if ended.contains (d + 1) then advanceDone n (d + 1) ended else d

/-- MBCMD of a command (Table 17-2). -/
def cmdWord (tag : BitVec 16) (op : Nat) : Word := BitVec.ofNat 64 (tag.toNat * 2 ^ 16 + op)

/-- The registers of a mailbox at the completion of a command (R323, Table 17-2). -/
def mailDone (die : BitVec 2) (tag : BitVec 16) (op status detail : Nat) (resp : List Byte) (s : State) : State :=
  let v : Nat := resp.length * 2 ^ 48 + tag.toNat * 2 ^ 32 + detail % 2 ^ 24 * 2 ^ 8 + status
  let old := s.mon.mail[die.toNat]'die.isLt
  let b : Mailbox := ⟨cmdWord tag op, 0, BitVec.ofNat 64 v, tag, resp, memSetAll (cellsAt 0 resp) old.area⟩
  { s with mon := { s.mon with mail := s.mon.mail.set die.toNat b die.isLt } }

/-- A disable command completes once every accepted packet of its queue has ended (R284). -/
def settleDisable (k : Nat) (s : State) : State :=
  match queueAt s k with
  | none => s
  | some x =>
    if x.disabling && decide (x.done = x.lastSeq) then
      let die := BitVec.ofNat 2 (k / 1024)
      let b := s.mon.mail[die.toNat]'die.isLt
      let t := mailDone die b.tag 0x12 0 0 [] (onQueue k (fun x => { x with disabling := false }) s)
      let d := t.mon.mail[die.toNat]'die.isLt
      { t with mon := { t.mon with mail := t.mon.mail.set die.toNat { d with cmd := b.cmd } die.isLt } }
    else s

/-- v of a queue (R293): core time over weight, as a fraction. -/
def shareOf (s : State) (k : Nat) : Nat × Nat := (SMap.get? s.fe.shares k).getD (0, 1)

/-- Is one fraction less than another? -/
def lessShare (a b : Nat × Nat) : Bool := decide (a.1 * b.2 < b.1 * a.2)

/-- The least of a list of queues by v (R293); the first of equals. -/
def leastShare (s : State) : List Nat → Option Nat
  | [] => none
  | k :: ks => match leastShare s ks with
    | none => some k
    | some m => some (if lessShare (shareOf s m) (shareOf s k) then m else k)

/-- Has a queue a launch that runs, is saved, or is ready: does it not idle (R293)? -/
def queueActive (s : State) (k : Nat) : Bool :=
  s.fe.launches.any fun l => qKey l.die l.q == k && l.pkt.type == 1 && (l.started || depsMet s l)

/-- A queue that becomes ready after idling starts with the least v of the running queues of its class (R293). -/
def idleShare (k : Nat) (s : State) : State :=
  let prio (q : Nat) : Nat := ((queueAt s q).map fun x => x.e.prio).getD 0
  let others := ((s.fe.launches.filter fun l => l.started && !l.saved).map fun l => qKey l.die l.q).filter fun q => prio q == prio k
  match leastShare s others with
  | some m => { s with fe := { s.fe with shares := SMap.put s.fe.shares k (shareOf s m) } }
  | none => s

/-- Every queue that idled in one state and is ready in the next starts with that share. -/
def wakeQueues (s t : State) : State :=
  (((t.fe.launches.map fun l => qKey l.die l.q).eraseDups).filter fun k => !queueActive s k && queueActive t k).foldl
    (fun t k => idleShare k t) t

/-- A packet ends (R285, R288): its error log entry first, where it failed, then the completion word. Launches that waited for it
become ready. -/
def endPacket (die q seq : Nat) (fail : Option (Nat × Nat)) (s : State) : State :=
  let k := qKey die q
  match queueAt s k with
  | none => s
  | some x =>
    let s0 := s
    let s := { s with fe := { s.fe with launches := s.fe.launches.filter fun l => !isRow die q seq l } }
    let s := match fail with
      | some (reason, cause) =>
        let entry := natLe 8 seq ++ natLe 1 reason ++ natLe 1 (if reason = 32 then cause else 0) ++ natLe 6 0
        onQueue k (fun x => { x with fails := x.fails + 1 }) (hostPut (x.e.erra + 16 * (x.fails % 16)) entry s)
      | none => s
    let ended := seq :: x.ended
    let d := advanceDone ended.length x.done ended
    let s := onQueue k (fun x => { x with done := d, ended := ended.filter fun n => decide (d < n) }) s
    wakeQueues s0 (settleDisable k (if d = x.done then s else hostPut x.e.donea (natLe 8 d) s))

/-- A cause of the monitor level (R369). -/
def monitorCause (cause : Nat) (s : State) : State := { s with mon := { s.mon with causes := s.mon.causes ++ [cause] } }

/-- A write of the launch port (R282, R283, R285): busy while the table is full, a duplicate, a gap, or taken by f. -/
def portWrite (name : String) (die : BitVec 2) (q seq : Nat) (f : Queue → State → Out) (s : State) : Out :=
  match queueAt s (qKey die.toNat q) with
  | none => notNow name
  | some x =>
    if !x.e.en then notNow name
    else if 256 ≤ (s.fe.launches.filter fun l => l.die == die.toNat).length then .next s
    else if seq ≤ x.lastSeq then .next (countDup die s)
    else if x.lastSeq + 1 < seq then .next (monitorCause 0xD8 s)
    else f x (onQueue (qKey die.toNat q) (fun x => { x with
      lastSeq := seq, read := x.read.filter fun k => decide (seq < k.seq) }) s)

/-- An accepted packet's entry in the launch table. -/
def newLaunch (die q : Nat) (ctx : Nat) (k : Packet) : Launch :=
  ⟨die, q, k.seq, k, ctx, false, false, false, recordOf [], [], none, 0, PatchSet.empty, false, [], []⟩

/-- LAUNCH_PORT_WRITE (R282, R285). Firmware refuses a packet that fails R278 through the refusal write instead. -/
def execLaunchPortWrite (die : BitVec 2) (q : BitVec 10) (pkt : Packet) (s : State) : Out :=
  portWrite "LAUNCH_PORT_WRITE" die q.toNat pkt.seq (fun x t =>
    if (packetRefusal s die.toNat x pkt).isSome then notNow "LAUNCH_PORT_WRITE"
    else if pkt.type = 4 then .next (endPacket die.toNat q.toNat pkt.seq none t)
    else
      .next (wakeQueues t { t with fe := { t.fe with launches := t.fe.launches ++ [newLaunch die.toNat q.toNat x.e.ctx pkt] } })) s

/-- LAUNCH_PORT_REFUSAL_WRITE (R278, R283): the reason is that of the packet that was read. -/
def execLaunchPortRefusalWrite (die : BitVec 2) (q : BitVec 10) (seq : Nat) (reason : BitVec 8) (s : State) : Out :=
  portWrite "LAUNCH_PORT_REFUSAL_WRITE" die q.toNat seq (fun x t =>
    match x.read.find? fun k => k.seq == seq with
    | some k =>
      if packetRefusal s die.toNat x k = some reason.toNat then
        .next (endPacket die.toNat q.toNat seq (some (reason.toNat, 0)) t)
      else notNow "LAUNCH_PORT_REFUSAL_WRITE"
    | none => notNow "LAUNCH_PORT_REFUSAL_WRITE") s

end Sys2Proof.Machine
end

