-- ==== Sys2Proof/Machine/Scheduler.lean ====
section
/-! DEFINITION. The scheduler: starting packets, retirement and completion, pre-emption, saving and restoring contexts (R240, R241, R286, R287, R290 to R300, R320, R372, R380). -/

namespace Sys2Proof.Machine

/-- The launch that a table entry names. -/
def launchAt (s : State) (die q seq : Nat) : Option Launch := s.fe.launches.find? (isRow die q seq)

/-- Change the launch of an entry. -/
def onLaunch (die q seq : Nat) (f : Launch → Launch) (s : State) : State :=
  { s with fe := { s.fe with launches := s.fe.launches.map fun l => if isRow die q seq l then f l else l } }

/-- Is the task on the modelled core one of this launch? -/
def ownLaunch (s : State) (die q seq : Nat) : Bool :=
  let i := s.c.info
  i.running && i.die == die && i.queue == q && i.seq == seq

/-- The core with no task, as it stands between tasks. -/
def idleCore (c : Core) : Core := { Core.start with fresh := c.fresh }

/-- The modelled core gives up its task: writes that its snapshot did not hold stand at home, its pool goes (R236, R240). -/
def leaveCore (s : State) : State :=
  let s := takeSnapshot s
  { s with c := idleCore s.c, mem := otherPart s.mem, poison := s.poison.filter fun b => !isPoolHome (64 * b) }

/-- The modelled core's task stops where it stands (R241, R299, R372): its commands with it. -/
def stopCore (s : State) : State := s.onC fun c => { taskGone c with ranked := [] }

/-- The fastest class that heat and the power limit leave (R287, R338, R373). -/
def fcCap (s : State) : Nat := max s.health.maxFc (Config.fcOfLimit s.health.limit).toNat

/-- Does the die of a launch run at a point that its class needs (R287)? A cap holds as a slower class does. -/
def pointMet (s : State) (l : Launch) : Bool :=
  decide (((s.fe.point.toList[l.die]?).getD 0).toNat ≤ max l.pkt.fc (fcCap s))

/-- Does a launch wait for cores: it has still to start, or is saved (R286, R293)? A launch that another package placed waits for
that package's scheduler (R401). -/
def waitsForCores (s : State) (l : Launch) : Bool :=
  decide (l.pkt.type = 1) && decide (l.die < 4) && (if l.started then l.saved else depsMet s l)

/-- Is a launch ready to start, or saved and ready to be placed again (R286, R287, R293)? -/
def readyLaunch (s : State) (l : Launch) : Bool := waitsForCores s l && pointMet s l

/-- The priority class of a launch. -/
def classOf (s : State) (l : Launch) : Nat := ((queueAt s (qKey l.die l.q)).map fun x => x.e.prio).getD 0

/-- The class that is served among ready launches (R293): the lowest that is owed its floor, else the highest. -/
def servedClass (s : State) (ready : Launch → Bool) : Option Nat :=
  let rs := (s.fe.launches.filter ready).map (classOf s)
  match rs.filter fun c => s.fe.owed.any fun o => o.2 == c with
  | [] => rs.max?
  | cs => cs.min?

/-- Does the queue of a stand before that of b at equal v: the lower queue number, then the lower die (R293)? -/
def queueFirst (a b : Launch) : Bool := decide (a.q < b.q) || (a.q == b.q && decide (a.die < b.die))

/-- choose (R293): is it the launch's turn among ready launches: its class is served, no queue of the class has a lower v, or as
low a one and a lower number, and it is the oldest ready launch of its queue? -/
def turnAmong (s : State) (ready : Launch → Bool) (l : Launch) : Bool :=
  let v (x : Launch) : Nat × Nat := shareOf s (qKey x.die x.q)
  servedClass s ready == some (classOf s l)
    && !s.fe.launches.any fun x => ready x && classOf s x == classOf s l &&
      (if x.die == l.die && x.q == l.q then decide (x.seq < l.seq)
       else lessShare (v x) (v l) || (!lessShare (v l) (v x) && queueFirst x l))

/-- Is it the launch's turn to get cores? -/
def launchTurn (s : State) (l : Launch) : Bool := turnAmong s (readyLaunch s) l

/-- The bytes of a launch record in its context, or none where it cannot be read (log 18). -/
def recordBytes (s : State) (ctx a : Nat) : Option (List Byte) :=
  if a % 64 ≠ 0 then none
  else ((List.range 128).mapM fun i => (translate s ctx .read false (a + i)).toOption).map fun hs => hs.map (homeByte s)

/-- An event packet starts and ends (R286): AMT, or 1, is added to the counter of the queue's context. -/
def startEvent (l : Launch) (s : State) : State :=
  let add : Word := if l.pkt.amt = 0 then 1 else BitVec.ofNat 64 l.pkt.amt
  let e := l.pkt.arg % 256
  let t := match SMap.get? s.mon.ctxs l.ctx with
    | some c => { s with mon := { s.mon with
        ctxs := SMap.put s.mon.ctxs l.ctx { c with events := SMap.put c.events e ((SMap.get? c.events e).getD 0 + add) } } }
    | none => s
  endPacket l.die l.q l.seq none t

/-- PACKET_START (R286, R232, R235): an event is counted; a launch is checked, refused, placed, or waits. -/
def execPacketStart (die : BitVec 2) (q : BitVec 10) (seq : Nat) (s : State) : Out :=
  match launchAt s die.toNat q.toNat seq with
  | none => notNow "PACKET_START"
  | some l =>
    if l.started || !depsMet s l || s.health.power != 0 then notNow "PACKET_START"
    else if l.pkt.type = 3 then .next (startEvent l s)
    else match recordBytes s l.ctx l.pkt.arg with
      | none => .next (endPacket l.die l.q l.seq (some (1, 0)) s)
      | some bs =>
        let r := recordOf bs
        match recordRefusal s l.ctx r with
        | some reason => .next (endPacket l.die l.q l.seq (some (reason, 0)) s)
        | none =>
          if !pointMet s l || !launchTurn s l then notNow "PACKET_START"
          else match placeLaunch r (launchCores s l.ctx r) with
            | none => notNow "PACKET_START"
            | some p =>
              let t := { s with fe := { s.fe with owed := s.fe.owed.filter fun o => o.2 != classOf s l } }
              .next (bindLaunch { l with recd := r } p t)

/-- OPERATING_POINT_REACHED (R287): the die runs at the point of the lowest-numbered class among its running launches and one
about to start, as far as the cap allows. -/
def execOperatingPointReached (die : BitVec 2) (fc : BitVec 2) (s : State) : Out :=
  let needs := (s.fe.launches.filter fun l =>
    l.die == die.toNat && ((l.started && !l.saved) || (waitsForCores s l && turnAmong s (waitsForCores s) l))).map fun l => max l.pkt.fc (fcCap s)
  if needs.min? = some fc.toNat then .next { s with fe := { s.fe with point := s.fe.point.set die.toNat fc die.isLt } }
  else notNow "OPERATING_POINT_REACHED"

/-- Does a launch keep data in the SRAM of a cluster while it is saved (R300)? -/
def keepsCluster (l : Launch) (cl : Nat) : Bool :=
  l.saved && l.recd.levels.any (fun x => x.mscope == 1) && l.tasks.any fun r => r.core / 16 == cl

/-- CLUSTER_SRAM_ZEROING (R320). -/
def execClusterSramZeroing (cluster : BitVec 4) (tenant : Nat) (s : State) : Out :=
  let cl := cluster.toNat
  let mine := decide (s.me / 16 = cl)
  let busy := s.fe.launches.any fun l => keepsCluster l cl || (List.range 16).any fun i => holdsCore l (16 * cl + i)
  match SMap.get? s.fe.clusters cl with
  | some t =>
    if t = tenant ∨ busy then notNow "CLUSTER_SRAM_ZEROING"
    else
      let out (m : List Host.Cell) : List Host.Cell := if mine then m.filter fun c => !isClusterHome c.1 else m
      .next { s with
        mem := out s.mem, outer := out s.outer
        poison := if mine then s.poison.filter fun b => !isClusterHome (64 * b) else s.poison
        fe := { s.fe with clusters := SMap.put s.fe.clusters cl tenant } }
  | none => notNow "CLUSTER_SRAM_ZEROING"

/-- Does an execution of a plan of the task's context go on, so that its block has still to commit? -/
def planRuns (s : State) : Bool := match s.ctx? with | some c => c.plans.any fun p => p.2.run.isSome | none => false

/-- Has the task done everything that retirement waits for (R240)? -/
def mayRetire (s : State) : Bool :=
  let c := s.c
  c.info.running && c.ended && c.mxq.isEmpty && c.cpq.isEmpty && c.spq.isEmpty && c.syq.isEmpty && c.inflight.isEmpty
    && !lanesWait c && c.failing.isNone && c.mismatch.isNone && (c.trap.pend.isEmpty || c.trap.handler) && !planRuns s

/-- Mark one task of a launch. -/
def markRow (t : Nat) (f : TaskRow → TaskRow) (l : Launch) : Launch :=
  { l with tasks := l.tasks.map fun r => if r.t = t then f r else r }

/-- The task of the modelled core retires (R240, R242). -/
def retireOwn (s : State) : Out :=
  if mayRetire s then
    let i := s.c.info
    let gone (r : TaskRow) : TaskRow := { r with ended := true, retired := true }
    let rk := leftRanked s.c
    let res := match (launchAt s i.die i.queue i.seq).bind fun l => imageAt s l.ctx l.recd.image with
      | some m => [(i.ctx, m.meas)]
      | none => []
    let u := onLaunch i.die i.queue i.seq (fun l => { markRow i.t gone l with ranked := l.ranked ++ rk, far := l.far ++ s.c.far }) s
    .next (leaveCore { u with mon := { u.mon with resident := res } })
  else notNow "TASK_RETIRE"

/-- TASK_RETIRE (R240, R242): the task of the modelled core, or the task of another core that has done so (log 3). -/
def execTaskRetire (die : BitVec 2) (q : BitVec 10) (seq : Nat) (t : Nat) (s : State) : Out :=
  let gone (r : TaskRow) : TaskRow := { r with ended := true, retired := true }
  if ownLaunch s die.toNat q.toNat seq ∧ s.c.info.t = t then retireOwn s
  else match launchAt s die.toNat q.toNat seq with
    | some l =>
      if l.started && !l.saved && l.tasks.any fun r => r.t == t && !r.retired && r.core != s.me then
        .next (onLaunch die.toNat q.toNat seq (markRow t gone) s)
      else notNow "TASK_RETIRE"
    | none => notNow "TASK_RETIRE"

/-- The final boundary of a launch, seen from outside any task (R241). -/
def finalBoundary (l : Launch) (env : BoundaryEnv) (s : State) : State :=
  let out (a : Nat) : Bool := !isPoolHome a
  (rankedOrder [] [] ((env.ranked ++ l.ranked).filter fun x => out x.addr)).foldl (fun s x => applyRanked false x s)
    (s.writeOuter (l.far ++ env.writes.filter fun c => out c.1))

/-- LAUNCH_COMPLETE (R241, R288): the completion is reported behind the final boundary. -/
def execLaunchComplete (die : BitVec 2) (q : BitVec 10) (seq : Nat) (env : BoundaryEnv) (s : State) : Out :=
  match launchAt s die.toNat q.toNat seq with
  | none => notNow "LAUNCH_COMPLETE"
  | some l =>
    if l.started && l.tasks.all fun r => r.retired then
      .next (endPacket l.die l.q l.seq (l.failed.map fun c => (32, c)) (finalBoundary l env s))
    else notNow "LAUNCH_COMPLETE"

/-- SCHEDULER_FAULT_DELIVERY (R372, R374, R380, R385): a fault of a task on another core. An idempotent launch starts again after a
residue mismatch, at most twice; the modelled core's task of it stops with the rest. -/
def execSchedulerFaultDelivery (die : BitVec 2) (q : BitVec 10) (seq : Nat) (t : Nat) (cause : BitVec 8) (s : State) : Out :=
  match launchAt s die.toNat q.toNat seq with
  | none => notNow "SCHEDULER_FAULT_DELIVERY"
  | some l =>
    match l.tasks.find? fun r => r.t == t && !r.retired && r.core != s.me with
    | none => notNow "SCHEDULER_FAULT_DELIVERY"
    | some r =>
      if !l.started || l.saved || !taskCause cause.toNat then notNow "SCHEDULER_FAULT_DELIVERY"
      else
        let s := if cause = 0xF3 ∧ r.core < 256 then { s with health := { s.health with resid := bump (r.core / 64) s.health.resid } } else s
        if cause = 0xF3 ∧ idemLaunch s l ∧ l.reruns < 2 then
          let own := ownLaunch s die.toNat q.toNat seq
          .next (onLaunch die.toNat q.toNat seq (fun l => { l with
            started := false, tasks := [], preempt := false, reruns := l.reruns + 1, ranked := []
            far := l.far ++ if own then s.c.far else [] }) (if own then stopCore s else s))
        else .next (onLaunch die.toNat q.toNat seq (failRow t cause.toNat) s)

/-- TIME_SLICE_EXPIRY (R294). -/
def execTimeSliceExpiry (die : BitVec 2) (q : BitVec 10) (seq : Nat) (s : State) : Out :=
  match launchAt s die.toNat q.toNat seq with
  | some l =>
    if l.started && !l.saved then .next (onLaunch die.toNat q.toNat seq (fun l => { l with sliced := true }) s)
    else notNow "TIME_SLICE_EXPIRY"
  | none => notNow "TIME_SLICE_EXPIRY"

/-- CLASS_FLOOR_OWED (R297). -/
def execClassFloorOwed (die : BitVec 2) (prio : BitVec 3) (s : State) : Out :=
  if s.fe.launches.any fun l => readyLaunch s l && classOf s l == prio.toNat then
    .next { s with fe := { s.fe with owed := (s.fe.owed ++ [(die.toNat, prio.toNat)]).eraseDups } }
  else notNow "CLASS_FLOOR_OWED"

/-- The record of a launch that waits for cores. -/
def recordOfLaunch (s : State) (l : Launch) : Option LaunchRecord :=
  if l.started then some l.recd else (recordBytes s l.ctx l.pkt.arg).map recordOf

/-- Is the row of a task saved as fused (R239)? -/
def savedFused (l : Launch) (t : Nat) : Bool := (l.tasks.find? fun r => r.t == t).any fun r => r.fused

/-- The cluster that a task of a launch stood in. -/
def clusterOf (l : Launch) (t : Nat) : Nat := ((l.tasks.find? fun r => r.t == t).map fun r => r.core / 16).getD 0

/-- With a level whose MSCOPE is cluster SRAM, each scope of the outermost such level goes back to its cluster (R300); MSCOPE never
decreases outwards (Table 13-3). -/
def savedPins (l : Launch) : Pins :=
  let r := l.recd
  let size := recBelow r ((r.levels.filter fun x => decide (x.mscope ≤ 1)).length)
  if r.levels.any (fun x => x.mscope == 1) then (List.range (recTasks r / size)).map fun k => (k * size, size, clusterOf l (k * size)) else []

/-- The placement of a restore (R235, R239, R300). -/
def placeRestore (l : Launch) (free : List Nat) : Option (List (Nat × Nat)) := placeRows l.recd (savedPins l) (savedFused l) free

/-- Would a launch find cores once every request under way has freed its launch's (R295)? -/
def placeable (s : State) (r : Launch) : Bool :=
  let t := { s with fe := { s.fe with launches := s.fe.launches.filter fun l => !(l.preempt && l.started && !l.saved) } }
  match recordOfLaunch s r with
  | some x => (if r.saved then placeRestore r (launchCores t r.ctx x) else placeLaunch x (launchCores t r.ctx x)).isSome
  | none => true

/-- Is a launch running with no request pending? -/
def runsFree (l : Launch) : Bool := decide (l.die < 4) && l.started && !l.saved && !l.preempt

/-- May the scheduler pre-empt a launch for another (R294, R295, R297): for one of its class with a lower v, once it has held its
cores for its slice; for one of a higher class that finds no cores, in increasing class order and decreasing v, until it would;
for a class that is owed its floor? -/
def outranks (s : State) (r l : Launch) : Bool :=
  let v (x : Launch) : Nat × Nat := shareOf s (qKey x.die x.q)
  !isRow l.die l.q l.seq r && readyLaunch s r &&
    ((classOf s r == classOf s l && l.sliced && lessShare (v r) (v l))
      || (decide (classOf s l < classOf s r) && !placeable s r && !s.fe.launches.any fun x =>
        runsFree x && (decide (classOf s x < classOf s l) || (classOf s x == classOf s l && lessShare (v l) (v x))))
      || s.fe.owed.any fun o => o.2 == classOf s r)

/-- A pre-emption request of a launch: every task of it receives it. -/
def requestLaunch (die q seq : Nat) (s : State) : State :=
  let t := onLaunch die q seq (fun l => { l with preempt := true }) s
  if ownLaunch s die q seq then t.onC fun c => { c with preempt := true } else t

/-- PREEMPTION_REQUEST (R295): every task of the launch receives it. -/
def execPreemptionRequest (die : BitVec 2) (q : BitVec 10) (seq : Nat) (s : State) : Out :=
  match launchAt s die.toNat q.toNat seq with
  | some l =>
    if runsFree l && s.fe.launches.any fun r => outranks s r l then .next (requestLaunch die.toNat q.toNat seq s)
    else notNow "PREEMPTION_REQUEST"
  | none => notNow "PREEMPTION_REQUEST"

/-- Is the core inside the body of an active pre-emptible loop (R296)? -/
def inPreLoop (c : Core) : Bool := c.loops.any fun l => l.pre && inBody l c.pc

/-- Does the core's row stop with it: it is not fused, or every core of the row stands at the point (R239)? The drain of a loop ends
for all cores of a row at once (R88, R99). -/
def rowStops (c : Core) : Bool := !c.fused.fused || c.bun.drained || Config.rowStops c.bundles

/-- A pre-emption point with a request pending (R296): a safe point taken, or a bundle stalled at issue outside the body of
a pre-emptible loop; of a fused row, one for all its cores (R239). -/
def savePoint (s : State) : Bool :=
  s.c.preempt && active s && atBoundary s && rowStops s.c && (s.c.bun.safe || (!inPreLoop s.c && !(issueBundle s).1))

/-- Does the head of the sy queue count as landed: an arrival that waits only for other tasks, or a coll for results (R296)? -/
def headLanded (s : State) : Bool :=
  match s.c.syq.head? with
  | none => true
  | some q =>
    match q.i with
    | .phase _ _ => s.c.phaseAt.isSome
    | .bara _ b => (barOf s.c b.toNat).arrived
    | .bar _ b => (barOf s.c b.toNat).arrived
    | i => match collOf i with
      | some (_, id) => s.c.colls.any fun c => c.id == id
      | none => false

/-- Everything that a save waits for has landed (R296): fixed latencies land with it, and a stream keeps its place (R204). Commands
behind a landed arrival have not started, those with a register result among them, and are kept so. -/
def saveLanded (s : State) : Bool :=
  let c := s.c
  !lanesWait c && !speculating s && c.mxq.isEmpty && c.spq.isEmpty
    && c.cpq.all (fun q => match q.i with | .cpbs _ _ _ _ => true | _ => false)
    && c.failing.isNone && headLanded s

/-- Take a queue out of service (R284): its doorbells go, and accepted packets that have not started end with the reason. -/
def stopQueue (k reason : Nat) (s : State) : State :=
  let t := onQueue k (fun x => { x with e := { x.e with en := false }, read := [] }) s
  let t := { t with fe := { t.fe with
    letters := t.fe.letters.filter fun e => qKey e.die e.q != k
    overflow := t.fe.overflow.filter (· != k), handling := t.fe.handling.filter (· != k) } }
  (t.fe.launches.filter fun l => qKey l.die l.q == k && !l.started).foldl
    (fun t l => endPacket l.die l.q l.seq (some (reason, 0)) t) t

/-- A context is lost (R299): its launches end with reason 33, its tasks are gone, its queues are disabled, and the blocks of it that
run fail (R266, R343). -/
def loseContext (ctx : Nat) (s : State) : State :=
  let t := if s.c.info.running && s.c.info.ctx == ctx then stopCore s else s
  let running := ((SMap.get? t.mon.ctxs ctx).map fun c => c.plans.filter fun p => p.2.run.isSome).getD []
  let t := running.foldl (fun t p => setPlanIn ctx p.1 { p.2 with run := none, state := 3 } t) t
  let ls := t.fe.launches.filter fun l => l.ctx == ctx
  let t := { t with fe := { t.fe with
    saved := t.fe.saved.filter fun x => !ls.any fun l => isRow x.die x.q x.seq l } }
  let t := (ls.filter fun l => l.pkt.type == 1).foldl (fun t l => endPacket l.die l.q l.seq (some (33, 0)) t) t
  let t := { t with fe := { t.fe with launches := t.fe.launches.filter fun l => l.ctx != ctx || decide (l.die < 4) } }
  (t.fe.queues.filter fun x => x.2.e.ctx == ctx).foldl (fun t x => stopQueue x.1 34 t) t

/-- A save has met an uncorrectable error (R299): cause 0xF5 goes to the scheduler, and the context is lost. -/
def saveLost (ctx : Nat) (s : State) : State :=
  let t := loseContext ctx s
  { t with fe := { t.fe with causes := t.fe.causes ++ [0xF5] } }

/-- The chunks of a collective that a saved member owns pass on to the next member that has issued: which one that is no rule
tells this core, and it decides no result (R335, R336; log 109). -/
def passOwned (c : Core) : Core :=
  { c with
    fresh := c.fresh + c.colls.length
    colls := c.colls.zipIdx.map fun (x : Coll × Nat) =>
      let k := x.1
      let next := (k.self + (Config.freeWord (c.fresh + x.2)).toNat % max 1 k.n) % max 1 k.n
      let mine := (List.range k.n).filter fun j => ((k.owner.find? fun o => o.1 == j).map (·.2)).getD j == k.self
      { k with owner := (mine.map fun j => (j, next)) ++ k.owner.filter fun o => !mine.contains o.1 } }

/-- The saved context of the task (R299): everything that Core holds, its pool, and its snapshot. -/
def saveTask (s : State) : SavedTask :=
  let i := s.c.info
  ⟨i.die, i.queue, i.seq, i.t, { passOwned (landAll s.c) with preempt := false, bun := Bundle.idle, sinceSafe := 0 }, poolPart s.mem,
    otherPart s.mem, s.poison⟩

/-- Every task of a launch that has not retired is saved. -/
def allSaved (l : Launch) : Launch :=
  { l with saved := true, preempt := true, tasks := l.tasks.map fun r => if r.retired then r else { r with saved := true } }

/-- What the modelled core knows of its row: whether it is fused (R239). -/
def rowFused (t : Nat) (b : Bool) (l : Launch) : Launch :=
  if l.recd.fuse then { l with tasks := l.tasks.map fun r => if r.t / 8 = t / 8 then { r with fused := b } else r } else l

/-- CONTEXT_SAVE (R295, R296, R299): the modelled core's task; the tasks on other cores are saved with it (log 3). With an
uncorrectable error the context is lost. A launch that has no task here is saved as a whole. -/
def execContextSave (error : Bool) (s : State) : Out :=
  if s.c.info.running && s.c.preempt then
    if savePoint s && saveLanded s then
      if error then .next (saveLost s.c.info.ctx s)
      else
        let i := s.c.info
        let t := onLaunch i.die i.queue i.seq (fun l => rowFused i.t s.c.fused.fused (allSaved l)) { s with fe := { s.fe with saved := s.fe.saved ++ [saveTask s] } }
        .next (leaveCore (t.onC fun c => { c with fresh := c.fresh + c.colls.length }))
    else notNow "CONTEXT_SAVE"
  else match s.fe.launches.find? fun l => l.started && l.preempt && !l.saved with
    | some l =>
      if error then .next (saveLost l.ctx s) else .next (onLaunch l.die l.q l.seq allSaved s)
    | none => notNow "CONTEXT_SAVE"

/-- A loop that was drained for the save starts again on resume (R88). -/
def rearmSaved (c : Core) : Core :=
  match c.loops with
  | l :: ls => (match l.stop with
    | some k => if k + l.e ≤ l.trip then rearm k l ls c else c
    | none => c)
  | [] => c

/-- The modelled core takes a saved context back (R299, R300), its residues recomputed (R50): its pool and its snapshot; what has been written since stands
outside the snapshot until the task's next boundary (R217), and so does the lifting of a mark that the snapshot holds (R210). -/
def restoreTask (x : SavedTask) (s : State) : State :=
  let s := takeSnapshot s
  let home := otherPart s.mem
  { s with
    c := { rearmSaved { x.core with arr := { x.core.arr with upset := [] } } with fresh := s.c.fresh, info := { x.core.info with patch := s.mon.sfCur } }
    mem := memSetAll x.pool x.snap
    poison := x.poison ++ s.poison
    cleaned := x.poison.filter fun b => !isPoolHome (64 * b) && !s.poison.contains b
    outer := memDiff x.snap home |>.foldl (fun m c => SMap.put m c.1 c.2) [] }

/-- A saved launch runs again on a placement (R300), its tasks together; none where the save area of a task that comes to the
modelled core holds no context that the model knows. -/
def restoreLaunch (l : Launch) (p : List (Nat × Nat)) (s : State) : Option State :=
  let live (t : Nat) : Bool := l.tasks.any fun r => r.t == t && !r.retired
  let l' := { l with
    saved := false, preempt := false, sliced := false, patch := s.mon.sfCur
    tasks := l.tasks.map fun r =>
      { r with saved := false, core := ((p.find? fun x => x.1 == r.t).map (·.2)).getD r.core } }
  let t := { s with fe := { s.fe with
    owed := s.fe.owed.filter fun o => o.2 != classOf s l
    saved := s.fe.saved.filter fun x => !isRow x.die x.q x.seq l
    launches := s.fe.launches.map fun x => if isRow l.die l.q l.seq x then l' else x
    clusters := takeClusters p (tenantOfCtx s l.ctx) s.fe.clusters } }
  match p.find? fun x => x.2 == s.me && live x.1 with
  | none => some t
  | some x => (s.fe.saved.find? fun y => isRow y.die y.q y.seq l && y.t == x.1).map fun y => restoreTask y t

/-- CONTEXT_RESTORE (R300): placed again under R235, its tasks together. -/
def execContextRestore (die : BitVec 2) (q : BitVec 10) (seq : Nat) (s : State) : Out :=
  match launchAt s die.toNat q.toNat seq with
  | none => notNow "CONTEXT_RESTORE"
  | some l =>
    if !l.saved || !launchTurn s l || s.health.power != 0 then notNow "CONTEXT_RESTORE"
    else match (placeRestore l (launchCores s l.ctx l.recd)).bind fun p => restoreLaunch l p s with
      | none => notNow "CONTEXT_RESTORE"
      | some t => .next t

/-- The scheduler level of a die starts again (R280, R292): read marks go; an overflow bit that its firmware has not finished
with stands as an entry does, so it is in the mask again. -/
def restartScheduler (die : BitVec 2) (s : State) : State :=
  let mine (k : Nat) : Bool := k / 1024 == die.toNat
  { s with fe := { s.fe with
    letters := s.fe.letters.map fun e => if e.die = die.toNat then { e with read := false } else e
    overflow := (s.fe.overflow ++ s.fe.handling.filter mine).eraseDups
    handling := s.fe.handling.filter fun k => !mine k
    queues := s.fe.queues.map fun x => if x.1 / 1024 = die.toNat then (x.1, { x.2 with read := [] }) else x
    restarts := s.fe.restarts.set die.toNat (s.fe.restarts[die.toNat]'die.isLt + 1) die.isLt } }

/-- SCHEDULER_WATCHDOG_EXPIRY (R292). -/
def execSchedulerWatchdogExpiry (die : BitVec 2) (s : State) : Out := .next (restartScheduler die s)

/-- PLUGIN_CALL_TIMEOUT (R291): the call is abandoned, and the queue's own WEIGHT stands; a plug-in proposes timing and
placement only. -/
def execPluginCallTimeout (_die : BitVec 2) (_tenant : Nat) (s : State) : Out := .next s

end Sys2Proof.Machine
end

