-- ==== Sys2Proof/Machine/Mailbox.lean ====
section
/-! DEFINITION. The mailbox commands of contexts, queues, host windows, jobs, groups, debug and power, with page-table walks and shootdowns (R208, R274, R284, R301 to R311, R316 to R328, R332, R338, R400). -/

namespace Sys2Proof.Machine

/-- What a mailbox command does: the state, STATUS, DETAIL and the response. -/
structure MailRes where
  st     : State
  status : Nat
  detail : Nat
  resp   : List Byte
  deriving DecidableEq, Repr

/-- Done; refused with a DETAIL; not authorised (Table 17-2). -/
def mailOk (s : State) : MailRes := ⟨s, 0, 0, []⟩
def mailNo (s : State) (detail : Nat) : MailRes := ⟨s, 4, detail, []⟩
def mailDenied (s : State) : MailRes := ⟨s, 5, 0, []⟩

/-- Commands that the recovery ROM serves (R367). -/
def recoveryOp (op : Nat) : Bool := [0xA0, 0xA1, 0xA2, 0xA3, 0xA6, 0xA7].contains op

/-- Is GO of a die's mailbox set (R323)? -/
def mailBusy (die : BitVec 2) (s : State) : Bool := (s.mon.mail[die.toNat]'die.isLt).ctl.getLsbD 0

/-- The host writes MBCMD while a command is in progress; its write of GO is ignored (R323). -/
def mailOffer (die : BitVec 2) (tag : BitVec 16) (op : Nat) (s : State) : State :=
  let b := s.mon.mail[die.toNat]'die.isLt
  { s with mon := { s.mon with mail := s.mon.mail.set die.toNat { b with cmd := cmdWord tag op } die.isLt } }

/-- A mailbox command (R323, R324, R367): a write of GO while one is in progress is ignored; the monitor, or the recovery ROM,
serves it. -/
def mailCall (name : String) (m : Mb) (op : Nat) (f : State → MailRes) (s : State) : Out :=
  if !s.links.linkUp || s.health.power == 3 || !s.mon.flash.running then notNow name
  else if mailBusy m.die s then .next (mailOffer m.die m.tag op s)
  else if s.mon.flash.recovery && !recoveryOp op then .next (mailDone m.die m.tag op 2 0 [] s)
  else
    let r := f s
    .next (mailDone m.die m.tag op r.status r.detail r.resp r.st)

/-- PAGE_TABLE_WALK (R309): a miss of the task is resolved, and its translation cached. -/
def execPageTableWalk (va : Word) (s : State) : Out :=
  let ctx := s.c.info.ctx
  match s.ctx? with
  | none => notNow "PAGE_TABLE_WALK"
  | some c =>
    if !s.c.info.running || decide (2 ^ 52 ≤ va.toNat) || (c.ranges.any fun e => rangeHolds e.2 va.toNat)
        || s.mon.tlb.any fun t => t.1 == ctx && decide (t.2.1 ≤ va.toNat) && decide (va.toNat < t.2.1 + t.2.2.1) then
      notNow "PAGE_TABLE_WALK"
    else match walkFrom (homeMem s) va.toNat 3 c.recd.ptroot with
      | some p => .next { s with mon := { s.mon with tlb := s.mon.tlb ++ [(ctx, p)] } }
      | none => .next s

/-- The pages that stream commands of a core hold in the middle of a command (R310). -/
def heldPages (c : Core) : List RangeEntry := c.z.toList.filterMap fun x => x.page

/-- The pages that stream commands of a context's tasks hold, the tasks that are saved among them (R296, R310). -/
def ctxPages (s : State) (ctx : Nat) : List RangeEntry :=
  (if s.c.info.running && s.c.info.ctx == ctx then heldPages s.c else [])
    ++ (s.fe.saved.filter fun x => x.core.info.ctx == ctx).flatMap fun x => heldPages x.core

/-- SHOOTDOWN (R310): cached translations and resident code of the range go. It completes at a bundle boundary of the
context's task, once no stream command holds a translation of a page of the range; any other command accesses its pages in one
step. -/
def execShootdown (ctx : BitVec 12) (lo : Nat) (hi : Nat) (s : State) : Out :=
  let own := s.c.info.running && s.c.info.ctx == ctx.toNat
  let held := (ctxPages s ctx.toNat).any fun e => decide (e.base < hi) && decide (lo < e.limit)
  if (own && !(s.c.view.isNone && s.c.emu.isNone)) || held then notNow "SHOOTDOWN"
  else .next { s with mon := { s.mon with
    tlb := s.mon.tlb.filter fun t => t.1 != ctx.toNat || decide (hi ≤ t.2.1) || decide (t.2.1 + t.2.2.1 ≤ lo)
    resident := s.mon.resident.filter fun r => r.1 != ctx.toNat } }

/-- Change a context. -/
def onCtx (ctx : Nat) (f : Context → Context) (s : State) : State :=
  match SMap.get? s.mon.ctxs ctx with
  | some c => { s with mon := { s.mon with ctxs := SMap.put s.mon.ctxs ctx (f c) } }
  | none => s

/-- Does a task of the context run (R301)? -/
def ctxRuns (s : State) (ctx : Nat) : Bool :=
  (s.c.info.running && s.c.info.ctx == ctx) || s.fe.launches.any fun l => l.ctx == ctx && l.started && !l.saved

/-- May the value stand in fmask (R316)? -/
def fmaskOk (v : Word) : Bool :=
  let p := pver v
  let n := v.toNat
  let h (k : Nat) : Bool := hidden v k
  decide (2 ≤ p) && decide (p ≤ 4) && decide (n / 2 ^ 48 % 2 ^ 8 = 0) && decide (n / 2 ^ 45 % 2 ^ 3 = 0)
    && decide (n / 2 ^ 13 % 2 ^ 19 = 0) && !h 0 && !h 1 && !h 2 && (!h 64 || h 65)
    && (decide (4 ≤ p) || [64, 65, 66, 67, 68].all h) && (decide (3 ≤ p) || [32, 33, 34, 35, 36, 37, 38, 39].all h)

/-- The nonce of a context is spent: a grant that names it verifies no more (R327, log 22). -/
def spendNonce (ctx : Nat) (s : State) : State :=
  { s with mon := { s.mon with nonces := SMap.put s.mon.nonces ctx ((SMap.get? s.mon.nonces ctx).getD 0 + 1) } }

/-- The nonce that the monitor issues for grants of a context (R327, log 22). -/
def issuedNonce (s : State) (ctx : Nat) : Word := Config.monitorNonce ctx + BitVec.ofNat 64 ((SMap.get? s.mon.nonces ctx).getD 0)

/-- Do the fields of a range entry keep Table 16-2 and R304 (code 8)? -/
def rangeFieldsOk (e : RangeEntry) : Bool :=
  !e.res0 && !(e.tw && e.tx) && decide (e.base % 4096 = 0) && decide (e.limit % 4096 = 0) && decide (e.base < 2 ^ 52)
    && decide (e.limit < 2 ^ 52) && decide (e.offset.toNat % 4096 = 0) && decide (e.key < 64)

/-- Do two valid entries share an address? -/
def rangesMeet (a b : RangeEntry) : Bool := a.valid && b.valid && decide (a.base < b.limit) && decide (b.base < a.limit)
  && decide (a.base < a.limit) && decide (b.base < b.limit)

/-- A key ID that the context owns; an entry with DEV uses key 0 whatever it names (R304, R305). -/
def rangeKeyOk (keys : BitVec 64) (e : RangeEntry) : Bool := e.dev || keys.getLsbD e.key

/-- Physical memory of the package: four stacks of 96 GiB (R6). -/
def physBytes : Nat := 4 * 96 * 2 ^ 30

/-- Does a range of a base and size meet another? -/
def spansMeet (a b : Nat × Nat) : Bool := decide (a.1 < b.1 + b.2) && decide (b.1 < a.1 + a.2)

/-- The physical memory of a range entry. -/
def entrySpan (e : RangeEntry) : Nat × Nat := ((e.base + e.offset.toNat) % 2 ^ 48, e.limit - e.base)

/-- The physical memory that page tables of any context take: device-owned memory (R306). -/
def allTables (s : State) : List (Nat × Nat) := s.mon.ctxs.flatMap fun c => tableSpans (homeMem s) 3 c.2.recd.ptroot

/-- The physical memory that a context maps, by range entries and by leaves. -/
def ctxSpans (s : State) (c : Context) : List (Nat × Nat) :=
  ((c.ranges.filter fun e => e.2.valid).map fun e => entrySpan e.2) ++ (leafEntries (homeMem s) 3 c.recd.ptroot).map fun p => (p.1, p.2.1)

/-- Is the physical range present, mapped by no context of another tenant, and free of page tables (R305, R306, log 19)? -/
def physOwned (s : State) (tenant lo size : Nat) : Bool :=
  decide (lo + size ≤ physBytes) && !(allTables s).any (spansMeet (lo, size))
    && !s.mon.ctxs.any fun c => c.2.recd.tenant != tenant && (ctxSpans s c.2).any (spansMeet (lo, size))

/-- The physical memory that stale translations still reach: cached ones, and pages that stream commands hold (R310). -/
def staleSpans (s : State) : List (Nat × Nat) :=
  (s.mon.tlb.map fun t => (pteAddr t.2.2.2, t.2.2.1))
    ++ (heldPages s.c ++ s.fe.saved.flatMap fun x => heldPages x.core).map entrySpan

/-- Does anything use the physical range: a mapping, a translation that a shootdown has still to end, a page table, a host
window? -/
def physUsed (s : State) (lo size : Nat) : Bool :=
  (allTables s).any (spansMeet (lo, size)) || (s.mon.ctxs.any fun c => (ctxSpans s c.2).any (spansMeet (lo, size)))
    || (staleSpans s).any (spansMeet (lo, size)) || s.mon.windows.any fun w => spansMeet (w.2.pa, w.2.size) (lo, size)

/-- The physical memory that range entries and leaves of any context map with a permission. -/
def permSpans (s : State) (range : RangeEntry → Bool) (bit : Nat) : List (Nat × Nat) :=
  s.mon.ctxs.flatMap fun c =>
    ((c.2.ranges.filter fun e => e.2.valid && range e.2).map fun e => entrySpan e.2)
      ++ ((leafEntries (homeMem s) 3 c.2.recd.ptroot).filter fun p => pteBit p.2.2 bit).map fun p => (p.1, p.2.1)

/-- The physical memory that a fetch may read (R312). -/
def codeSpans (s : State) : List (Nat × Nat) := permSpans s (·.tx) 3

/-- The physical memory that tasks, or the host through a window, may write. -/
def writeSpans (s : State) : List (Nat × Nat) := permSpans s (·.tw) 2 ++ s.mon.windows.map fun w => (w.2.pa, w.2.size)

/-- Does nothing stand in the physical range but code that was admitted: is what has been written there under executable
mappings already (R312)? -/
def admitted (s : State) (p : Nat × Nat) : Bool :=
  (homeMem s).all fun c =>
    !(decide (p.1 ≤ homePhys c.1) && decide (homePhys c.1 < p.1 + p.2)) || (codeSpans s).any (spansMeet (homePhys c.1, 1))

/-- Does a change of mappings from s to t keep page tables and code out of reach of every write, and code to what was admitted
(R306, R312)? Only what the change brings is looked at. -/
def mapsOk (s t : State) : Bool :=
  let fresh (f : State → List (Nat × Nat)) : List (Nat × Nat) := (f t).filter fun p => !(f s).contains p
  let apart (a b : List (Nat × Nat)) : Bool := !a.any fun p => b.any (spansMeet p)
  apart (fresh allTables) (writeSpans t) && apart (fresh writeSpans) (allTables t ++ codeSpans t)
    && apart (fresh codeSpans) (writeSpans t) && (fresh codeSpans).all (admitted s)

/-- Are the pages of a locked entry present and the tenant's (code 7)? -/
def lockedOk (s : State) (tenant : Nat) (e : RangeEntry) : Bool :=
  !e.valid || !e.lock || physOwned s tenant (entrySpan e).1 (entrySpan e).2

/-- Does one valid entry of the list hold the whole range? -/
def covered (rs : List RangeEntry) (a size : Nat) : Bool :=
  rs.any fun e => e.valid && decide (e.base ≤ a) && decide (a + size ≤ e.limit)

/-- The table bases of a record with their sizes (R301). -/
def tableBases (r : CtxRecord) : List (Nat × Nat) :=
  [(r.dtbase, 2 ^ 18), (r.stbase, 2 ^ 18), (r.cbbase, 2 ^ 17), (r.prbase, 2 ^ 20), (r.cgbase, 2 ^ 14)]

/-- Does a save area lie under an entry as R298 requires (code 6)? -/
def saveOk (rs : List RangeEntry) (a : Nat) : Bool :=
  decide (a % 65536 = 0) && rs.any fun e => e.valid && e.lock && e.dev && !e.tr && !e.tw && !e.tx && decide (e.base ≤ a)
    && decide (a + 9 * 2 ^ 20 ≤ e.limit) && decide ((e.base + e.offset.toNat) % 2 ^ 48 + (e.limit - e.base) ≤ physBytes)

/-- Do the save areas name each core once and share no byte (R298)? -/
def savesApart : List (Nat × Nat) → Bool
  | [] => true
  | a :: l => !(l.any fun b => b.1 == a.1 || spansMeet (a.2, 9 * 2 ^ 20) (b.2, 9 * 2 ^ 20)) && savesApart l

/-- Do the plan records lie under an entry that is locked, device-owned and readable only (R305)? -/
def recordsOk (rs : List RangeEntry) (r : CtxRecord) : Bool :=
  rs.any fun e => e.valid && e.lock && e.dev && e.tr && !e.tw && !e.tx && decide (e.base ≤ r.prbase)
    && decide (r.prbase + 2 ^ 20 ≤ e.limit)

/-- Do entries of the list overlap pairwise? -/
def anyMeet : List RangeEntry → Bool
  | [] => false
  | e :: l => l.any (rangesMeet e) || anyMeet l

/-- A context as CREATE_CONTEXT makes it. -/
def newContext (rec : CtxRecord) (ranges : List RangeEntry) (saves : List (Nat × Nat)) : Context :=
  { recd := rec, ranges := ranges.zipIdx.map fun x => (x.2, x.1), saves := saves, aps := Vector.replicate 8 0
    events := [], masked := 0, images := [], pops := [], hranges := [], job := none, grant := none, bkpts := false
    plans := [] }

/-- s with a context in a place of the list of contexts. -/
def putCtx (ctx : Nat) (c : Context) (s : State) : State := { s with mon := { s.mon with ctxs := SMap.put s.mon.ctxs ctx c } }

/-- The first code of Table 16-11 for the creation of a context. A context whose mappings or page tables break R306 or R312 has
code 8 (log 90). -/
def createRefusal (s : State) (r : CtxRecord) (rs : List RangeEntry) (saves : List (Nat × Nat)) : Option Nat :=
  if (SMap.get? s.mon.ctxs r.ctx).isSome ∨ 4096 ≤ r.ctx ∨ 1024 ≤ r.tenant ∨ r.res0 then some 1
  else if (r.ptroot :: (tableBases r).map (·.1)).any fun a => decide (a % 65536 ≠ 0) then some 2
  else if ((tableBases r).any fun t => !covered rs t.1 t.2) || !recordsOk rs r then some 3
  else if r.keys.getLsbD 0 || (List.range 64).any fun k => r.keys.getLsbD k &&
      (match SMap.get? s.mon.keyOwner k with | some t => t != r.tenant | none => false) then some 4
  else if !fmaskOk r.fmask then some 5
  else if (saves.any fun a => !saveOk rs a.2 || decide (256 ≤ a.1)) || !savesApart saves then some 6
  else if rs.any fun e => !lockedOk s r.tenant e then some 7
  else if (rs.any fun e => !rangeFieldsOk e) || !mapsOk s (putCtx r.ctx (newContext r rs saves) s) then some 8
  else if anyMeet rs then some 9
  else if rs.any fun e => !rangeKeyOk r.keys e then some 10
  else none

/-- Give the keys of a record to its tenant; a key that is given anew is generated anew (R318). -/
def giveKeys (r : CtxRecord) (m : Monitor) : Monitor :=
  (List.range 64).foldl (fun m k =>
    if r.keys.getLsbD k && (SMap.get? m.keyOwner k).isNone then
      { m with keyOwner := SMap.put m.keyOwner k r.tenant, keyGen := SMap.put m.keyGen k ((SMap.get? m.keyGen k).getD 0 + 1) }
    else m) m

/-- The tables that a context starts with are zero: its statistics (R251), and its plan records, all of state 0 (R265). -/
def clearTables (r : CtxRecord) (rs : List RangeEntry) (s : State) : State :=
  [(r.stbase, 2 ^ 18), (r.prbase, 2 ^ 20)].foldl (fun s t =>
    match rs.find? fun e => e.valid && decide (e.base ≤ t.1) && decide (t.1 + t.2 ≤ e.limit) with
    | some e =>
      let b := (t.1 + e.offset.toNat) % 2 ^ 48
      scrubPhys b (b + t.2) s
    | none => s) s

/-- CREATE_CONTEXT (R301, R304, R305, R318, R400). -/
def execCreateContext (m : Mb) (rec : CtxRecord) (ranges : List RangeEntry) (saves : List (Nat × Nat)) (s : State) : Out :=
  mailCall "CREATE_CONTEXT" m 0x0001 (fun s =>
    if 64 < ranges.length then ⟨s, 3, 0, []⟩
    else match createRefusal s rec ranges saves with
      | some d => mailNo s d
      | none =>
        let s := clearTables rec ranges s
        mailOk (putCtx rec.ctx (newContext rec ranges saves) { s with mon := giveKeys rec s.mon })) s

/-- The keys that no context names any more are taken and destroyed (R319). -/
def takeKeys (m : Monitor) : Monitor :=
  { m with keyOwner := m.keyOwner.filter fun k => m.ctxs.any fun c => c.2.recd.keys.getLsbD k.1 }

/-- DESTROY_CONTEXT (R319, R400). It waits for the end of the context's launches; its queues go out of service (log 20). -/
def execDestroyContext (m : Mb) (ctx : BitVec 12) (s : State) : Out :=
  if s.fe.launches.any fun l => l.ctx == ctx.toNat then notNow "DESTROY_CONTEXT"
  else mailCall "DESTROY_CONTEXT" m 0x0002 (fun s =>
    if (SMap.get? s.mon.ctxs ctx.toNat).isNone then mailNo s 1
    else
      let t := (s.fe.queues.filter fun x => x.2.e.ctx == ctx.toNat).foldl (fun t x => stopQueue x.1 34 t) s
      mailOk (spendNonce ctx.toNat { t with mon := takeKeys { t.mon with
        ctxs := SMap.del t.mon.ctxs ctx.toNat
        tlb := t.mon.tlb.filter fun e => e.1 != ctx.toNat
        resident := t.mon.resident.filter fun r => r.1 != ctx.toNat } })) s

/-- The first code of Table 16-11 for a range entry of a context. -/
def rangeRefusal (s : State) (c : Context) (i : Nat) (e : RangeEntry) : Option Nat :=
  if !lockedOk s c.recd.tenant e then some 7
  else if !rangeFieldsOk e || !mapsOk s (putCtx c.recd.ctx { c with ranges := SMap.put c.ranges i e } s) then some 8
  else if c.ranges.any fun x => x.1 != i && rangesMeet x.2 e then some 9
  else if !rangeKeyOk c.recd.keys e then some 10
  else if (SMap.get? c.ranges i).any fun x => x.lock && x != e then some 11
  else none

/-- WRITE_RANGE_ENTRY (R304, R400). -/
def execWriteRangeEntry (m : Mb) (ctx : BitVec 12) (im : BitVec 6) (e : RangeEntry) (s : State) : Out :=
  mailCall "WRITE_RANGE_ENTRY" m 0x0003 (fun s =>
    match SMap.get? s.mon.ctxs ctx.toNat with
    | none => mailNo s 1
    | some c =>
      match rangeRefusal s c im.toNat e with
      | some d => mailNo s d
      | none => mailOk (onCtx ctx.toNat (fun c => { c with ranges := SMap.put c.ranges im.toNat e }) s)) s

/-- Do the fields of a queue entry keep Table 15-1? -/
def queueFieldsOk (s : State) (e : QueueEntry) : Bool :=
  !e.res0 && decide (e.ring % 4096 = 0) && decide (e.donea % 8 = 0) && decide (e.erra % 64 = 0) && decide (e.prio < 8)
    && decide (1 ≤ e.weight) && decide (e.weight < 256) && (SMap.get? s.mon.ctxs e.ctx).isSome

/-- WRITE_QUEUE_ENTRY (R274, R294): EN belongs to the enable command, CLAMP to the hardware. -/
def execWriteQueueEntry (m : Mb) (q : BitVec 10) (e : QueueEntry) (s : State) : Out :=
  mailCall "WRITE_QUEUE_ENTRY" m 0x0010 (fun s =>
    let k := qKey m.die.toNat q.toNat
    if !queueFieldsOk s e then mailNo s 0
    else
      let old := queueAt s k
      let e' := { e with en := (old.map fun x => x.e.en).getD false, clamp := decide (e.slice < 400) }
      let x : Queue := match old with
        | some x => { x with e := e' }
        | none => ⟨e', 0, e.ring, 1, 0, 0, [], false, [], 0⟩
      mailOk { s with fe := { s.fe with queues := SMap.put s.fe.queues k x } }) s

/-- ENABLE_QUEUE (R274): LASTSEQ is 0, the cursor at the ring's first slot with sequence 1. -/
def execEnableQueue (m : Mb) (q : BitVec 10) (s : State) : Out :=
  mailCall "ENABLE_QUEUE" m 0x0011 (fun s =>
    let k := qKey m.die.toNat q.toNat
    match queueAt s k with
    | some x =>
      if x.e.en || x.disabling then mailNo s 0
      else mailOk (onQueue k (fun x => { x with
        e := { x.e with en := true }, lastSeq := 0, curSeg := x.e.ring, curSeq := 1, taken := 0, done := 0, ended := []
        read := [] }) s)
    | none => mailNo s 0) s

/-- DISABLE_QUEUE (R284): the command stays in progress until every accepted packet has ended. -/
def execDisableQueue (m : Mb) (q : BitVec 10) (s : State) : Out :=
  let k := qKey m.die.toNat q.toNat
  if !s.links.linkUp || s.health.power == 3 || !s.mon.flash.running then notNow "DISABLE_QUEUE"
  else if mailBusy m.die s then .next (mailOffer m.die m.tag 0x12 s)
  else if s.mon.flash.recovery then .next (mailDone m.die m.tag 0x12 2 0 [] s)
  else match queueAt s k with
    | some x =>
      if !x.e.en then .next (mailDone m.die m.tag 0x12 4 0 [] s)
      else
        let old := s.mon.mail[m.die.toNat]'m.die.isLt
        let b : Mailbox := ⟨cmdWord m.tag 0x12, 1, old.sts, m.tag, [], old.area⟩
        let t := { s with mon := { s.mon with mail := s.mon.mail.set m.die.toNat b m.die.isLt } }
        .next (settleDisable k (stopQueue k 34 (onQueue k (fun x => { x with disabling := true }) t)))
    | none => .next (mailDone m.die m.tag 0x12 4 0 [] s)

/-- WRITE_FMASK (R316): only while no task of the context runs. -/
def execWriteFmask (m : Mb) (ctx : BitVec 12) (v : Word) (s : State) : Out :=
  mailCall "WRITE_FMASK" m 0x0030 (fun s =>
    if (SMap.get? s.mon.ctxs ctx.toNat).isNone then mailNo s 1
    else if !fmaskOk v then mailNo s 5
    else if ctxRuns s ctx.toNat then mailNo s 0
    else mailOk (onCtx ctx.toNat (fun c => { c with recd := { c.recd with fmask := v } }) s)) s

/-- READ_CLEAR_MASKED_COUNTER (R317). -/
def execReadClearMaskedCounter (m : Mb) (ctx : BitVec 12) (s : State) : Out :=
  mailCall "READ_CLEAR_MASKED_COUNTER" m 0x0031 (fun s =>
    match SMap.get? s.mon.ctxs ctx.toNat with
    | none => mailNo s 1
    | some c => ⟨onCtx ctx.toNat (fun c => { c with masked := 0 }) s, 0, 0, natLe 8 c.masked.toNat⟩) s

/-- Does a physical range lie under a locked or device-owned entry of any context (R325)? -/
def underLocked (s : State) (pa size : Nat) : Bool :=
  s.mon.ctxs.any fun c => c.2.ranges.any fun e =>
    e.2.valid && (e.2.lock || e.2.dev) && spansMeet (entrySpan e.2) (pa, size)

/-- s with a host window. -/
def withWindow (w : Nat) (x : HostWindow) (s : State) : State := { s with mon := { s.mon with windows := SMap.put s.mon.windows w x } }

/-- OPEN_HOST_WINDOW (R325): the lowest window that is closed. None opens over code (R312). -/
def execOpenHostWindow (m : Mb) (tenant : Nat) (pa : Nat) (size : Nat) (hdm : Nat) (s : State) : Out :=
  mailCall "OPEN_HOST_WINDOW" m 0x0040 (fun s =>
    match (List.range 64).find? fun w => (SMap.get? s.mon.windows w).isNone with
    | none => mailNo s 0
    | some w =>
      let t := withWindow w ⟨tenant, pa, size, hdm⟩ s
      if pa % 2 ^ 21 ≠ 0 || !physOwned s tenant pa size || underLocked s pa size || !mapsOk s t then mailNo s 0
      else ⟨t, 0, 0, natLe 8 w⟩) s

/-- CLOSE_HOST_WINDOW (R325). -/
def execCloseHostWindow (m : Mb) (w : BitVec 6) (s : State) : Out :=
  mailCall "CLOSE_HOST_WINDOW" m 0x0041 (fun s =>
    if (SMap.get? s.mon.windows w.toNat).isNone then mailNo s 0
    else mailOk { s with mon := { s.mon with windows := SMap.del s.mon.windows w.toNat } }) s

/-- WRITE_HOST_RANGE (R326). -/
def execWriteHostRange (m : Mb) (ctx : BitVec 12) (im : BitVec 3) (r : HostRange) (s : State) : Out :=
  mailCall "WRITE_HOST_RANGE" m 0x0042 (fun s =>
    if (SMap.get? s.mon.ctxs ctx.toNat).isNone then mailNo s 1
    else mailOk (onCtx ctx.toNat (fun c => { c with hranges := SMap.put c.hranges im.toNat r }) s)) s

/-- BIND_CONTEXT_JOB (R328): a job is bound to at most one context of the package. -/
def execBindContextJob (m : Mb) (ctx : BitVec 12) (job : BitVec 32) (s : State) : Out :=
  mailCall "BIND_CONTEXT_JOB" m 0x0050 (fun s =>
    if (SMap.get? s.mon.ctxs ctx.toNat).isNone then mailNo s 1
    else if s.mon.ctxs.any fun c => c.1 != ctx.toNat && c.2.job == some job then mailNo s 0
    else mailOk (onCtx ctx.toNat (fun c => { c with job := some job }) s)) s

/-- Does a core's task hold an incomplete coll on an id, taken or queued? -/
def holdsColl (id : Nat) (c : Core) : Bool :=
  (c.colls.any fun x => x.id == id) || c.syq.any fun q => (collOf q.i).map (·.2) == some id

/-- Is a coll of the context on an id incomplete, of the task here or of one that is saved (R296, R332)? -/
def collOpen (s : State) (ctx id : Nat) : Bool :=
  (s.c.info.running && s.c.info.ctx == ctx && holdsColl id s.c)
    || s.fe.saved.any fun x => x.core.info.ctx == ctx && holdsColl id x.core

/-- WRITE_COLLECTIVE_GROUP (R332). -/
def execWriteCollectiveGroup (m : Mb) (ctx : BitVec 12) (id : BitVec 8) (entry : List Byte) (s : State) : Out :=
  mailCall "WRITE_COLLECTIVE_GROUP" m 0x0051 (fun s =>
    match SMap.get? s.mon.ctxs ctx.toNat with
    | none => mailNo s 1
    | some c =>
      if entry.length ≠ 64 then ⟨s, 3, 0, []⟩
      else if collOpen s ctx.toNat id.toNat then mailNo s 0
      else match translate s ctx.toNat .write true (c.recd.cgbase + 64 * id.toNat) with
        | .ok h => mailOk (s.writeOuter (cellsAt h entry))
        | .error _ => mailNo s 0) s

/-- Is a grant signed with the tenant's key over context, nonce and rights, with the monitor's nonce (R327, log 22)? -/
def grantOk (s : State) (c : Context) (g : DebugGrant) : Bool :=
  g.ctx == c.recd.ctx && g.nonce == issuedNonce s c.recd.ctx
    && Config.signatureVerifies c.recd.tpk (natLe 8 g.ctx ++ natLe 8 g.nonce.toNat ++ natLe 8 g.rights) g.sig

/-- A debug request (R327): served under the grant that the context holds, or that comes with it; op is its place in the list
of operations, and its bit in the rights mask (log 22). -/
def debugCall (name : String) (m : Mb) (ctx : BitVec 12) (g : Option DebugGrant) (op : Nat) (f : State → MailRes) (s : State) : Out :=
  mailCall name m 0x0070 (fun s =>
    match SMap.get? s.mon.ctxs ctx.toNat with
    | none => mailDenied s
    | some c =>
      match (match c.grant with | some x => some x | none => g.filter (grantOk s c)) with
      | none => mailDenied s
      | some x =>
        let t := onCtx ctx.toNat (fun c => { c with grant := some x }) s
        if x.rights / 2 ^ op % 2 = 1 then f t else mailDenied t) s

/-- Is the modelled core's task one of the context? -/
def ownCtx (s : State) (ctx : BitVec 12) : Bool := s.c.info.running && s.c.info.ctx == ctx.toNat

/-- DEBUG_HALT (R35, R239): at a bundle boundary, once everything in flight has landed; until then the halt stays asked for. -/
def execDebugHalt (m : Mb) (ctx : BitVec 12) (g : Option DebugGrant) (s : State) : Out :=
  debugCall "DEBUG_HALT" m ctx g 0 (fun s =>
    mailOk (if !ownCtx s ctx then s
      else if s.c.halted || (atBoundary s && !waitsInFlight s.c && !speculating s) then s.onC haltNow
      else s.onC fun c => { c with haltAsked := true })) s

/-- DEBUG_RESUME (R327). -/
def execDebugResume (m : Mb) (ctx : BitVec 12) (g : Option DebugGrant) (s : State) : Out :=
  debugCall "DEBUG_RESUME" m ctx g 1 (fun s =>
    mailOk (if ownCtx s ctx then s.onC fun c => { c with halted := false, haltAsked := false, stepOnce := false } else s)) s

/-- DEBUG_STEP (R35): one bundle, or the rest of a split one. -/
def execDebugStep (m : Mb) (ctx : BitVec 12) (g : Option DebugGrant) (s : State) : Out :=
  debugCall "DEBUG_STEP" m ctx g 2 (fun s =>
    if ownCtx s ctx then
      (if s.c.halted then mailOk (s.onC fun c => { c with halted := false, haltAsked := false, stepOnce := true }) else mailNo s 0)
    else mailOk s) s

/-- The value of a register for the debugger. -/
def debugValue (r : DebugReg) (s : State) : BitVec 256 :=
  match r with
  | .s r => (s.c.r.rdS r).setWidth 256
  | .p i => if s.c.r.rdP i then 1 else 0
  | .h i => s.c.r.rdH i
  | .stg e i => (s.c.r.rdStg (BitVec.ofNat 5 (8 * e.toNat + i.toNat))).setWidth 256
  | .sp c => (spRead c.toNat s).setWidth 256
  | .tag => s.c.bkptTag.setWidth 256

/-- DEBUG_READ_REGISTER (R94, R327): of a halted task. -/
def execDebugReadRegister (m : Mb) (ctx : BitVec 12) (g : Option DebugGrant) (r : DebugReg) (s : State) : Out :=
  debugCall "DEBUG_READ_REGISTER" m ctx g 3 (fun s =>
    if ownCtx s ctx && s.c.halted then ⟨s, 0, 0, natLe 32 (debugValue r s).toNat⟩ else mailNo s 0) s

/-- Replace the value of the entries of a register in the active undo list (R36). -/
def patchUndo (cls : BitVec 3) (idx : Nat) (v : BitVec 256) (c : Core) : Core :=
  { c with trap := { c.trap with undo := c.trap.undo.map fun e => if e.cls = cls ∧ e.idx.toNat = idx then { e with val := v } else e } }

/-- Is a split pending: a handler runs, or a resumed bundle waits (R36)? -/
def splitPending (c : Core) : Bool := c.trap.tstat.getLsbD 29 && (c.trap.handler || c.resume.isSome)

/-- Registers of Table 6-5 that are read only: a write of one is ignored (R4). -/
def spReadOnly (code : Nat) : Bool :=
  code == 2 || code == 4 || (decide (8 ≤ code) && decide (code ≤ 0x0E)) || (decide (0x10 ≤ code) && decide (code ≤ 0x2B))
    || (decide (0x38 ≤ code) && decide (code ≤ 0x3D)) || (decide (0x40 ≤ code) && decide (code ≤ 0x4F)) || code == 0x59
    || code == 0x5B || code == 0x5C || (decide (0x60 ≤ code) && decide (code ≤ 0x67))

/-- A debugger's write of a special register: what swrite may write, tpc and isav in every mode, none where swrite would
fault. -/
def debugSp (code : Nat) (v : Word) (s : State) : Option State :=
  let got (r : Res State) : Option State := match r with
    | .ok t => some (t.onC fun c => landAll { c with bun := s.c.bun })
    | .error _ => none
  if code = 1 then some (s.onC fun c => { c with trap := { c.trap with tpc := v } })
  else if code = 3 then some (s.onC fun c => { c with trap := { c.trap with isav := v } })
  else if code = 0 then got (writeTstat v s)
  else if 0x30 ≤ code ∧ code ≤ 0x37 then got (writeSrec (code - 0x30) v s)
  else if 0x50 ≤ code ∧ code ≤ 0x57 then got (writeWm (code - 0x50) v s)
  else if code = 0x58 then got (writeMtol v s)
  else if code = 0x5A then got (writeLstat v s)
  else if code = 0x68 ∨ code = 0x69 then got (writeSat (code - 0x68) v s)
  else if spReadOnly code then some s
  else none

/-- A debugger's write (R36): the register, a matching undo entry, and a predicate's bit of psnap while a split is pending.
DESIGN CHOICE (log 105): the spec lists no set of registers that a debugger's write can name; `DebugReg` is the set here, and the
l latches' selection, which the undo list keeps under CLASS 4, is not of it. -/
def debugWrite (r : DebugReg) (v : BitVec 256) (s : State) : Option State :=
  match r with
  | .s r => some (s.onC fun c =>
      if r = 0 then c
      else patchUndo 0 r.toNat (v.setWidth 64 |>.setWidth 256) { c with r := c.r.setCell (cellOf c.r.rpos r) (v.setWidth 64) })
  | .p i => some (s.onC fun c =>
      let c' := { c with r := c.r.setP i.toNat (v.getLsbD 0) }
      if splitPending c ∧ i ≠ 0 then { c' with trap := { c'.trap with psnap := setBit16 c.trap.psnap i.toNat (v.getLsbD 0) } } else c')
  | .h i => some (s.onC fun c => patchUndo 1 i.toNat v { c with r := c.r.setH i v })
  | .stg e i =>
    let n := 8 * e.toNat + i.toNat
    some (s.onC fun c =>
      patchUndo 2 (32 + n) (v.setWidth 64 |>.setWidth 256) { c with r := c.r.setStg (BitVec.ofNat 5 n) (v.setWidth 64) })
  | .sp c => (debugSp c.toNat (v.setWidth 64) s).map fun t => t.onC (patchUndo 3 c.toNat (v.setWidth 64 |>.setWidth 256))
  | .tag => none

/-- DEBUG_WRITE_REGISTER (R36, R327): of a halted task. -/
def execDebugWriteRegister (m : Mb) (ctx : BitVec 12) (g : Option DebugGrant) (r : DebugReg) (v : BitVec 256) (s : State) : Out :=
  debugCall "DEBUG_WRITE_REGISTER" m ctx g 4 (fun s =>
    if ownCtx s ctx && s.c.halted then
      (match debugWrite r v s with | some t => mailOk t | none => mailNo s 0)
    else mailNo s 0) s

/-- DEBUG_ENABLE_BREAKPOINTS (R94, R327). -/
def execDebugEnableBreakpoints (m : Mb) (ctx : BitVec 12) (g : Option DebugGrant) (s : State) : Out :=
  debugCall "DEBUG_ENABLE_BREAKPOINTS" m ctx g 5 (fun s => mailOk (onCtx ctx.toNat (fun c => { c with bkpts := true }) s)) s

/-- DEBUG_DISABLE_BREAKPOINTS (R94, R327). -/
def execDebugDisableBreakpoints (m : Mb) (ctx : BitVec 12) (g : Option DebugGrant) (s : State) : Out :=
  debugCall "DEBUG_DISABLE_BREAKPOINTS" m ctx g 6 (fun s => mailOk (onCtx ctx.toNat (fun c => { c with bkpts := false }) s)) s

/-- DEBUG_REVOKE (R327): the grant goes, and its nonce is spent. -/
def execDebugRevoke (m : Mb) (ctx : BitVec 12) (g : Option DebugGrant) (s : State) : Out :=
  debugCall "DEBUG_REVOKE" m ctx g 7 (fun s => mailOk (spendNonce ctx.toNat (onCtx ctx.toNat (fun c => { c with grant := none }) s))) s

/-- Every die leaves an operating point faster than the cap (R287, R338, R373). -/
def capPoints (s : State) : State :=
  { s with fe := { s.fe with point := s.fe.point.map fun p => if p.toNat < fcCap s then BitVec.ofNat 2 (fcCap s) else p } }

/-- SET_POWER_LIMIT (R338): 1,500 to 4,200 W. -/
def execSetPowerLimit (m : Mb) (w : Nat) (s : State) : Out :=
  mailCall "SET_POWER_LIMIT" m 0x0080 (fun s =>
    if w < 1500 ∨ 4200 < w then mailNo s 0 else mailOk (capPoints { s with health := { s.health with limit := w } })) s

/-- Opcodes that Tables 17-3 and 23-11 list. -/
def listedOps : List Nat :=
  [0x0001, 0x0002, 0x0003, 0x0010, 0x0011, 0x0012, 0x0020, 0x0030, 0x0031, 0x0040, 0x0041, 0x0042, 0x0050, 0x0051, 0x0060,
    0x0070, 0x0080, 0x0081, 0x0090, 0x00A0, 0x00A1, 0x00A2, 0x00A3, 0x00A4, 0x00A5, 0x00A6, 0x00A7, 0x00A8]

/-- UNKNOWN_OPCODE (R324): STATUS 2. -/
def execUnknownOpcode (m : Mb) (op : BitVec 16) (s : State) : Out :=
  if listedOps.contains op.toNat then notNow "UNKNOWN_OPCODE"
  else mailCall "UNKNOWN_OPCODE" m op.toNat (fun s => ⟨s, 2, 0, []⟩) s

/-- The bits of Table 10-8 that are not res0. -/
def apMask : Word := 0xF000FFF000FFFFFF

/-- APERTURE_REGISTER_WRITE (R208): by the scheduler level, while no task of the context runs; res0 bits stay zero (R3, R4). -/
def execApertureRegisterWrite (ctx : BitVec 12) (im : BitVec 3) (v : Word) (s : State) : Out :=
  if (SMap.get? s.mon.ctxs ctx.toNat).isNone || ctxRuns s ctx.toNat then notNow "APERTURE_REGISTER_WRITE"
  else .next (onCtx ctx.toNat (fun c => { c with aps := c.aps.set im.toNat (v &&& apMask) im.isLt }) s)

end Sys2Proof.Machine
end

