-- ==== Sys2Proof/Machine/Health.lean ====
section
/-! DEFINITION. Health, power and the health log (R338, R373, R377 to R386). -/

namespace Sys2Proof.Machine

/-- Room of the log: 960 KiB of 512-byte records, eight to a sector (Table 23-9, R385). -/
def logRoom : Nat := 1920

/-- The latest record. -/
def latestRecord (s : State) : Option HealthRecord := s.health.log.getLast?

/-- A record of the health state as it stands, one higher than the last (Table 24-5). -/
def newRecord (kind : Nat) (s : State) : HealthRecord :=
  let h := s.health
  let per (m : SMap Nat) (n : Nat) : List Nat := (List.range n).map fun i => (SMap.get? m i).getD 0
  { seq := ((latestRecord s).map fun r => r.seq + 1).getD 0, kind := kind, replace := h.replace, spare := h.spare
    subst := h.subst.toList, uavail := h.uavail.toList, poh := h.poh, ce := per h.ce 16, ue := per h.ue 16, res := per h.resid 4
    tmax := h.tmax }

/-- Write a record: it stands at its number modulo the room; the sector after its own is erased before its own fills
(log 23). -/
def logRecord (r : HealthRecord) (s : State) : State :=
  let pos := r.seq % logRoom
  let erase (x : HealthRecord) : Bool := pos % 8 == 7 && decide (x.seq % logRoom / 8 = (pos / 8 + 1) % (logRoom / 8))
  { s with health := { s.health with
    log := (s.health.log.filter fun x => !erase x && x.seq % logRoom != pos) ++ [r] } }

/-- The 512 bytes of a record (Table 24-5). -/
def recordImage (r : HealthRecord) : List Byte :=
  let nat8 (l : List Nat) : List Byte := l.flatMap fun n => natLe 8 n
  let b := natLe 4 0x484C4731 ++ natLe 8 r.seq ++ natLe 1 r.kind ++ natLe 1 (if r.replace then 1 else 0) ++ natLe 2 r.spare.toNat
    ++ (r.subst.flatMap fun n => natLe 1 n) ++ nat8 (r.uavail.map BitVec.toNat) ++ natLe 8 r.poh ++ nat8 r.ce ++ nat8 r.ue
    ++ nat8 r.res ++ natLe 2 r.tmax ++ List.replicate 118 0
  b ++ Config.sha256 b

/-- Power is gone (R338, R367): contexts, keys, tables and memories go; flash, fuses, the log and host memory stay, and the
counts of the latest record. -/
def powerOff (s : State) : State :=
  let r := latestRecord s
  let per (l : List Nat) : SMap Nat := (l.zipIdx.filter fun x => x.1 != 0).map fun x => (x.2, x.1)
  { State.reset with
    inputs := s.inputs, me := s.me, c := idleCore s.c
    mem := (homeMem s).filter fun c => decide (hostHome 0 ≤ c.1) && decide (c.1 < tagHome 1 0)
    mon := { State.reset.mon with
      keyGen := s.mon.keyGen, nonces := s.mon.nonces, flash := { s.mon.flash with opened := none, checked := none, running := false, recovery := false } }
    health := { State.reset.health with
      power := 3, log := s.health.log
      spare := (r.map fun r => r.spare).getD 0, replace := (r.map fun r => r.replace).getD false
      ce := (r.map fun r => per r.ce).getD [], ue := (r.map fun r => per r.ue).getD []
      resid := (r.map fun r => per r.res).getD [], poh := (r.map fun r => r.poh).getD 0, tmax := (r.map fun r => r.tmax).getD 0 } }

/-- Orderly entry to S3 (R338, R385): a shutdown record first. -/
def enterS3 (s : State) : State := powerOff (logRecord (newRecord 2 s) s)

/-- SET_POWER_STATE (R338): S2 is refused while a launch exists. -/
def execSetPowerState (m : Mb) (st : BitVec 2) (s : State) : Out :=
  if st = 3 ∧ s.links.linkUp ∧ s.health.power ≠ 3 ∧ s.mon.flash.running ∧ !s.mon.flash.recovery ∧ !mailBusy m.die s then
    .next (enterS3 s)
  else mailCall "SET_POWER_STATE" m 0x0081 (fun s =>
    if st = 1 then mailNo s 0
    else if st = 2 ∧ s.fe.launches.any fun l => l.pkt.type == 1 then mailNo s 1
    else mailOk { s with health := { s.health with power := st.toNat } }) s

/-- READ_HEALTH_LOG (R386): the index is a record's place in the ring; all ones names the latest. -/
def execReadHealthLog (m : Mb) (im : Word) (s : State) : Out :=
  mailCall "READ_HEALTH_LOG" m 0x0090 (fun s =>
    match if im = BitVec.allOnes 64 then latestRecord s else s.health.log.find? fun r => r.seq % logRoom == im.toNat with
    | some r => ⟨s, 0, 0, recordImage r⟩
    | none => mailNo s 1) s

/-- OVERTEMPERATURE (R373): every die is held to FC3 from 100 °C on; at 110 °C the device shuts down to S3. -/
def execOvertemperature (celsius : Nat) (s : State) : Out :=
  if s.health.power = 3 then notNow "OVERTEMPERATURE"
  else
    let t := { s with health := { s.health with tmax := max s.health.tmax celsius } }
    if celsius < 100 then .next { t with health := { t.health with maxFc := 0 } }
    else
      let t := monitorCause 0xF6 (capPoints { t with health := { t.health with maxFc := 3 } })
      .next (if 110 ≤ celsius then enterS3 t else t)

/-- Does a page of the physical range lie on the die's stack (log 12)? -/
def onStack (die lo size : Nat) : Bool := (List.range ((size + 4095) / 4096)).any fun i => (Config.dieOfPage (lo / 4096 + i)).toNat == die

/-- Does a context have a page on the die's stack (R373)? -/
def ctxOnStack (s : State) (die : Nat) (c : Context) : Bool :=
  (c.ranges.any fun e => e.2.valid && onStack die ((e.2.base + e.2.offset.toNat) % 2 ^ 48) (e.2.limit - e.2.base))
    || (leafEntries (homeMem s) 3 c.recd.ptroot).any fun p => onStack die p.1 p.2.1

/-- DEVICE_MEMORY_STACK_FAILURE (R373): contexts on the stack are lost, REPLACE is raised, the die's cores go from uavail. -/
def execDeviceMemoryStackFailure (die : BitVec 2) (s : State) : Out :=
  if s.health.power = 3 then notNow "DEVICE_MEMORY_STACK_FAILURE"
  else
    let lost := (s.mon.ctxs.filter fun c => ctxOnStack s die.toNat c.2).map (·.1)
    let t := lost.foldl (fun t c => loseContext c t) (monitorCause 0xF7 s)
    let h := { t.health with replace := true, uavail := t.health.uavail.set die.toNat 0 die.isLt }
    let r := newRecord 1 { t with health := h }
    .next (logRecord r { t with health := h })

/-- A block that cannot be corrected: it is counted and poisoned (R210, R377). -/
def uncorrectable (addr : Nat) (s : State) : State :=
  let b := addr / 64
  let p := errorPlace s addr
  { s with
    health := (countPoison p s).health
    poison := if s.poison.contains b then s.poison else b :: s.poison
    cleaned := s.cleaned.filter (· != b) }

/-- A transfer of a block of device memory fails its link CRC n times (R377): each retry is counted, and after eight failed
ones the block counts as uncorrectable. -/
def linkRetries (addr n : Nat) (s : State) : State :=
  let die := (errorPlace s addr).2
  let t := { s with health := { s.health with ce := (List.range (min n 8)).foldl (fun m _ => bump (4 * die + 3) m) s.health.ce } }
  if 8 ≤ n then uncorrectable addr t else t

/-- SCRUB (R377): a block is corrected, or poisoned; both are counted, by pool, cluster SRAM and device memory. -/
def execScrub (addr : Nat) (correctable : Bool) (s : State) : Out :=
  if s.health.power = 3 ∨ hostHome 0 ≤ addr then notNow "SCRUB"
  else
    let p := errorPlace s addr
    if correctable then .next { s with health := { s.health with ce := bump (4 * p.2 + p.1) s.health.ce } }
    else .next (uncorrectable addr s)

/-- The task of a core ends with cause 0xF0, without a save (R372, R378). -/
def endOnCore (core : Nat) (s : State) : State :=
  if core = s.me ∧ s.c.info.running then endByFault 0xF0 s
  else match s.fe.launches.find? fun l => holdsCore l core with
    | some l =>
      match l.tasks.find? fun r => r.core == core && !r.retired with
      | some r => onLaunch l.die l.q l.seq (failRow r.t 0xF0) s
      | none => s
    | none => s

/-- The spare of the cluster takes the core's place, or the core is retired (R381, R382); the record is written first. -/
def replaceCore (core : Nat) (s : State) : State :=
  let h := s.health
  let cl := core / 16 % 16
  let die := core / 64 % 4
  let h := { h with ue := bump (4 * die + 3) h.ue }
  let h' := if h.spare.getLsbD cl then
      { h with
        replace := true
        uavail := setW h.uavail die (((h.uavail.toList[die]?).getD 0) &&& ~~~((1 : Word) <<< (core % 64))) }
    else { h with spare := h.spare ||| ((1 : BitVec 16) <<< cl), subst := if hc : cl < 16 then h.subst.set cl (core % 16) hc else h.subst }
  logRecord (newRecord 1 { s with health := h' }) { s with health := h' }

/-- CORE_LOST (R378, R381, R382). -/
def execCoreLost (core : BitVec 8) (s : State) : Out :=
  if s.health.power = 3 then notNow "CORE_LOST" else .next (replaceCore core.toNat (endOnCore core.toNat s))

/-- HEALTH_LOG_PERIODIC (R385). -/
def execHealthLogPeriodic (s : State) : Out :=
  if s.health.power = 3 then notNow "HEALTH_LOG_PERIODIC" else .next (logRecord (newRecord 0 s) s)

end Sys2Proof.Machine
end

