-- ==== Sys2Proof/Machine/Firmware.lean ====
section
/-! DEFINITION. Signed images, flash, patch sets, boot, recovery and postmarks (R347, R358 to R368, R386, R401). -/

namespace Sys2Proof.Machine

/-- The bytes of a signature (R359). -/
def sigBytes : Nat := 16224

/-- Is the signature at an offset Polori's over the bytes before the length (R359)? -/
def poloriSigned (bs : List Byte) (len : Nat) : Bool :=
  Config.signatureVerifies Config.imageKey (bs.take len) ((bs.drop len).take sigBytes)

/-- The shared header, for a kind (Table 23-7). -/
def headerOk (bs : List Byte) (kind : Nat) : Bool :=
  decide (leAt bs 0 4 = 0x53464931) && decide (leAt bs 4 1 = 1) && decide (leAt bs 5 1 = kind) && zeroAt bs 12 4 && zeroAt bs 80 48
    && decide (leAt bs 72 8 ≤ bs.length)

/-- The firmware image's own fields and segment entries (R360). -/
def firmwareOk (bs : List Byte) : Bool :=
  let n := leAt bs 6 2
  let len := leAt bs 72 8
  headerOk bs 3 && decide (1 ≤ n) && decide (n ≤ 8) && zeroAt bs 8 4 && zeroAt bs 32 40 && decide (128 + 32 * n ≤ len)
    && (List.range n).all fun i =>
      let o := 128 + 32 * i
      decide (leAt bs (o + 8) 8 + leAt bs (o + 16) 4 ≤ len) && decide (leAt bs (o + 20) 1 ≤ 2) && zeroAt bs (o + 21) 11

/-- The first code of Table 23-8 for a firmware image, against its floor. -/
def firmwareRefusal (floor : Nat) (bs : List Byte) : Option Nat :=
  if !firmwareOk bs then some 3
  else if !poloriSigned bs (leAt bs 72 8) then some 4
  else if leAt bs 16 8 < floor then some 6
  else none

/-- The measurement of an image (R359). -/
def measureOf (bs : List Byte) : List Byte := Config.sha256 (bs.take (leAt bs 72 8))

/-- Slot entry i of a patch-set image (R360). -/
def slotEntry (bs : List Byte) (i : Nat) : PatchSlot :=
  let o := 128 + 64 * i
  let w (k : Nat) : BitVec 64 := BitVec.ofNat 64 (leAt bs (o + k) 8)
  ⟨leAt bs o 1, w 8, w 16, w 24, w 32⟩

/-- The patch-set image's header and tables (R359, R360). -/
def patchTablesOk (bs : List Byte) : Bool :=
  let n := leAt bs 6 2
  let e := leAt bs 8 4
  headerOk bs 2 && decide (n ≤ 32) && decide (e ≤ 2048) && decide (leAt bs 72 8 = 128 + 64 * n + 32 * e)
    && (List.range n).all fun i =>
      let o := 128 + 64 * i
      decide (leAt bs o 1 < 32) && zeroAt bs (o + 1) 7 && zeroAt bs (o + 40) 24

/-- SFCOND holds values that its table marks as valid (Table 23-2, R361). -/
def sfCondOk (p : PatchSlot) (fault : Bool) : Bool :=
  let m := sfBits p.sfcond 63 62
  decide (m ≠ 3) && decide (sfBits p.sfcond 61 44 = 0) && decide (sfBits p.sfcond 23 0 = 0)
    && (m != 2 || decide (sfBits p.sfcond 43 42 = 0)) && (fault == decide (sfBits p.sfcond 31 24 ≠ 0))

/-- A cause that a fault slot may name (R361). -/
def sfCauseOk (c : Nat) : Bool := listedCauses.contains c && decide (c / 16 ≠ 0xD) && decide (c / 16 ≠ 0xF)

/-- Causes of fetch and decode, which SUPPRESS may not name (R361). -/
def earlyCause (c : Nat) : Bool :=
  (decide (0x02 ≤ c) && decide (c ≤ 0x05)) || (decide (0x10 ≤ c) && decide (c ≤ 0x14)) || [0x20, 0x30, 0x31].contains c

/-- A slot entry keeps R361, with nemu bundles in the store. -/
def slotEntryOk (nemu : Nat) (p : PatchSlot) : Bool :=
  let act := sfBits p.sfact 63 61
  let res0 := decide (sfBits p.sfact 58 56 = 0) && decide (sfBits p.sfact 47 46 = 0) && decide (sfBits p.sfact 39 35 = 0)
    && decide (sfBits p.sfact 23 20 = 0) && decide (sfBits p.sftmpl 63 27 = 0)
  let val := sfBits p.sfmatch 39 20
  let msk := sfBits p.sfmatch 19 0
  res0 && decide (sfBits p.sfact 60 59 ≤ 1) && sfCauseOk (sfBits p.sfact 55 48) && decide (sfBits p.sfact 34 24 + sfBits p.sfact 45 40 + 1 ≤ nemu ∨ act ≠ 2)
    && (match sfBits p.sfmatch 59 58 with
      | 0 => sfCondOk p false && decide (val &&& (2 ^ 20 - 1 - msk) = 0) && decide (sfBits p.sfmatch 47 40 = 0)
          && decide (act ≤ 2) && !(act == 2 && sfBits p.sfmatch 57 55 == 0)
      | 1 => sfCondOk p true && decide (sfBits p.sfmatch 57 48 = 0) && decide (val = 0) && decide (msk = 0)
          && decide (3 ≤ act) && decide (act ≤ 5) && sfCauseOk (sfBits p.sfmatch 47 40)
          && !(act == 4 && earlyCause (sfBits p.sfmatch 47 40))
      | _ => false)

/-- A word at position pos of a sequence of len bundles passes the load checks (R354, R361). -/
def emuWordOk (len pos : Nat) (k : Slot) (w : BitVec 32) : Bool :=
  (guardOf w.toNat).wf && match decodeWord k w with
    | .error _ => false
    | .ok (.b _ o) => let t : Int := (pos : Int) + o.toInt; decide (0 ≤ t) && decide (t ≤ (len : Int))
    | .ok i => emuAllowed i

/-- Every word of every sequence passes (R361, code 8). -/
def emuStoreOk (slots : List PatchSlot) (emu : List (List (BitVec 32))) : Bool :=
  slots.all fun p => sfBits p.sfact 63 61 != 2 || sfBits p.sfmatch 59 58 != 0 ||
    (let len := sfBits p.sfact 45 40 + 1
     (List.range len).all fun i =>
      (Slot.all.zip ((emu[sfBits p.sfact 34 24 + i]?).getD [])).all fun x => emuWordOk len i x.1 x.2)

/-- Insert a slot by its number. -/
def insertSlot (p : PatchSlot) : List PatchSlot → List PatchSlot
  | [] => [p]
  | q :: l => if p.n ≤ q.n then p :: q :: l else q :: insertSlot p l

/-- The set that a patch-set image loads (R360). -/
def patchSetOf (bs : List Byte) : PatchSet :=
  let n := leAt bs 6 2
  let base := 128 + 64 * n
  { slots := ((List.range n).map (slotEntry bs)).foldr insertSlot []
    emu := (List.range (leAt bs 8 4)).map fun i => (List.range 8).map fun k => BitVec.ofNat 32 (leAt bs (base + 32 * i + 4 * k) 4)
    meas := measureOf bs, load := 0 }

/-- The first code of Table 23-8 for a patch-set image under a firmware version. -/
def patchRefusal (floor fwver : Nat) (bs : List Byte) : Option Nat :=
  let len := leAt bs 72 8
  let set := patchSetOf bs
  if !patchTablesOk bs then some 3
  else if !poloriSigned bs len then some 4
  else if (bs.drop 40).take 32 ≠ Config.approvalKeyDigest
      ∨ !Config.signatureVerifies Config.approvalKey (bs.take (len + sigBytes)) ((bs.drop (len + sigBytes)).take sigBytes) then some 5
  else if leAt bs 16 8 < floor ∨ fwver < leAt bs 32 8 then some 6
  else if set.slots.any (fun p => !slotEntryOk (leAt bs 8 4) p) ∨ (set.slots.map fun p => p.n).eraseDups.length ≠ set.slots.length then
    some 7
  else if !emuStoreOk set.slots set.emu then some 8
  else none

/-- The place of the current marker record: the valid one of the higher SEQ, a tie to record 0 (R363). -/
def currentMarker (f : Flash) : Option (Nat × Marker) :=
  match f.markers.toList with
  | [some a, some b] => if a.seq < b.seq then some (1, b) else some (0, a)
  | [some a, none] => some (0, a)
  | [none, some b] => some (1, b)
  | _ => none

/-- The place of the record that a flip programs (R364); with none valid, record 0 (R367). -/
def flipPlace (f : Flash) : Nat := match currentMarker f with | some (0, _) => 1 | _ => 0

/-- Program a marker, or leave none that is valid, over the record that is not current (R364). -/
def flipMarker (r : Option Marker) (f : Flash) : Flash :=
  { f with markers := if h : flipPlace f < 2 then f.markers.set (flipPlace f) r h else f.markers }

/-- Change the flash. -/
def onFlash (g : Flash → Flash) (s : State) : State := { s with mon := { s.mon with flash := g s.mon.flash } }

/-- Program bytes at an offset of a slot; an erased byte reads as ones. -/
def program (off : Nat) (data l : List Byte) : List Byte :=
  l.take off ++ List.replicate (off - l.length) 0xFF ++ data ++ l.drop (off + data.length)

/-- The open slot's bytes. -/
def openBytes (f : Flash) : Option (List Byte) := f.opened.map fun b => if b then f.slotB else f.slotA

/-- FW_OPEN (R364, R367): the slot that the current record does not name, or the one asked for in recovery. -/
def execFwOpen (m : Mb) (target : BitVec 8) (s : State) : Out :=
  mailCall "FW_OPEN" m 0xA0 (fun s =>
    let f := s.mon.flash
    if f.opened.isSome then mailNo s 1
    else if f.recovery && decide (1 < target.toNat) then ⟨s, 3, 0, []⟩
    else
      let b := if f.recovery then target == 1 else !((currentMarker f).map fun c => c.2.active).getD false
      mailOk (onFlash (fun f => { f with
        opened := some b, checked := none, slotA := if b then f.slotA else [], slotB := if b then [] else f.slotB }) s)) s

/-- Data of which a failing flash write has programmed some bytes and left the others as they were (Table 23-12, log 94). -/
def halfWritten (fresh off : Nat) (data l : List Byte) : List Byte :=
  data.zipIdx.map fun x => if Config.freeByteIsNew (fresh + x.2) then x.1 else (l[off + x.2]?).getD 0xFF

/-- A flash write, or its read-back, fails (Table 23-8, DETAIL 10): g is what it leaves. -/
def flashFailed (n : Nat) (g : Flash → Flash) (s : State) : MailRes :=
  mailNo (onFlash (fun f => { g f with fails := none }) (s.onC fun c => { c with fresh := c.fresh + n })) 10

/-- Does the flash write after k more of a command fail? -/
def writeFails (k : Nat) (f : Flash) : Bool := f.fails == some k

/-- k flash writes have succeeded. -/
def wrote (k : Nat) (f : Flash) : Flash := { f with fails := f.fails.map (· - k) }

/-- Program data into the open slot; what a Check has found no longer holds. -/
def writeSlot (b : Bool) (off : Nat) (data : List Byte) (f : Flash) : Flash :=
  { f with
    checked := none
    slotA := if b then f.slotA else program off data f.slotA, slotB := if b then program off data f.slotB else f.slotB }

/-- FW_WRITE (R364): at most 32 KiB, inside the slot's 8 MiB. -/
def execFwWrite (m : Mb) (off : Nat) (data : List Byte) (s : State) : Out :=
  mailCall "FW_WRITE" m 0xA1 (fun s =>
    match s.mon.flash.opened with
    | none => mailNo s 1
    | some b =>
      if 32768 < data.length ∨ 2 ^ 23 < off + data.length then ⟨s, 3, 0, []⟩
      else if writeFails 0 s.mon.flash then
        flashFailed data.length (fun f => writeSlot b off (halfWritten s.c.fresh off data (if b then f.slotB else f.slotA)) f) s
      else mailOk (onFlash (fun f => wrote 1 (writeSlot b off data f)) s)) s

/-- FW_CHECK (R364, R365): the measurement of the verified image. -/
def execFwCheck (m : Mb) (s : State) : Out :=
  mailCall "FW_CHECK" m 0xA2 (fun s =>
    match openBytes s.mon.flash with
    | none => mailNo s 1
    | some bs =>
      match firmwareRefusal s.mon.flash.floorFw bs with
      | some d => mailNo s d
      | none => ⟨onFlash (fun f => { f with checked := some (measureOf bs) }) s, 0, 0, measureOf bs⟩) s

/-- FW_FLIP (R364, R367): the open slot becomes active. Where the flash fails, the record is left torn (Table 23-12). -/
def execFwFlip (m : Mb) (s : State) : Out :=
  mailCall "FW_FLIP" m 0xA3 (fun s =>
    let f := s.mon.flash
    match f.opened, f.checked with
    | some b, some meas =>
      let r : Marker := match currentMarker f with
        | some (_, c) => ⟨c.seq + 1, b, c.patch, meas, c.psmeas⟩
        | none => ⟨1, b, 0, meas, List.replicate 32 0⟩
      if writeFails 0 f then flashFailed 0 (flipMarker none) s
      else mailOk (onFlash (fun f => wrote 1 { flipMarker (some r) f with opened := none, checked := none }) s)
    | _, _ => mailNo s 1) s

/-- Where an image cannot be read over CXL.cache, it has no header (DETAIL 3, log 94). -/
def hostImage (s : State) (addr len : Nat) : List Byte := if cxlUp s then hostBytes s addr len else []

/-- STAGE_PATCH (R364): the image goes to the copy that the current record does not name, and the marker flips. Where the first
flash write fails, the copy is left half programmed and the marker as it was; where the second fails, the copy is whole and the
record torn (Table 23-12, log 94). -/
def execStagePatch (m : Mb) (addr : Nat) (len : Nat) (s : State) : Out :=
  mailCall "STAGE_PATCH" m 0xA4 (fun s =>
    let bs := hostImage s addr len
    let f := s.mon.flash
    if 2 ^ 20 < len then mailNo s 3
    else match patchRefusal f.floorPs f.fwver bs with
      | some d => mailNo s d
      | none =>
        let cur := currentMarker f
        let copy := if (cur.map fun c => c.2.patch).getD 0 = 1 then 2 else 1
        let f' (bs : List Byte) : Flash := if copy = 1 then { f with patch0 := bs } else { f with patch1 := bs }
        let r : Marker := match cur with
          | some (_, c) => ⟨c.seq + 1, c.active, copy, c.fwmeas, measureOf bs⟩
          | none => ⟨1, false, copy, f.fwmeas, measureOf bs⟩
        if writeFails 0 f then
          flashFailed bs.length (fun _ => f' (halfWritten s.c.fresh 0 bs (if copy = 1 then f.patch0 else f.patch1))) s
        else if writeFails 1 f then flashFailed 0 (fun _ => flipMarker none (f' bs)) s
        else mailOk (onFlash (fun _ => wrote 2 (flipMarker (some r) (f' bs))) s)) s

/-- Does a core still use a set other than the current one (R362)? -/
def oldSetUsed (s : State) : Bool :=
  (s.c.info.running && s.c.info.patch != s.mon.sfCur)
    || s.fe.launches.any fun l => l.started && !l.saved && (l.tasks.any fun r => !r.retired) && l.patch != s.mon.sfCur

/-- The commit of a live load: one switch of the package's current set (R362). A load has a number of its own, so that the same
image loaded again is another set. -/
def commitSet (p : PatchSet) (s : State) : State :=
  { s with mon := { s.mon with sfPrev := some s.mon.sfCur, sfCur := { p with load := s.mon.sfCur.load + 1 }, sfHits := [] } }

/-- A live load (R362): refused while a core uses the set before the current one. -/
def liveLoad (p : PatchSet) (s : State) : MailRes := if oldSetUsed s then mailNo s 9 else mailOk (commitSet p s)

/-- LIVE_PATCH (R362, R364). -/
def execLivePatch (m : Mb) (addr : Nat) (len : Nat) (s : State) : Out :=
  mailCall "LIVE_PATCH" m 0xA5 (fun s =>
    let bs := hostImage s addr len
    match patchRefusal s.mon.flash.floorPs s.mon.flash.fwver bs with
    | some d => mailNo s d
    | none => liveLoad (patchSetOf bs) s) s

/-- CLEAR_LIVE (R364). -/
def execClearLive (m : Mb) (s : State) : Out := mailCall "CLEAR_LIVE" m 0xA8 (liveLoad PatchSet.empty) s

/-- The 512 bytes of a marker record (Table 23-10), or ones where none is valid. -/
def markerImage : Option Marker → List Byte
  | none => List.replicate 512 0xFF
  | some r =>
    let b := natLe 4 0x4D4B5231 ++ natLe 8 r.seq ++ natLe 1 (if r.active then 1 else 0) ++ natLe 1 r.patch ++ natLe 2 0
      ++ r.fwmeas ++ r.psmeas ++ List.replicate 400 0
    b ++ Config.sha256 b

/-- A set's measurement, zero for the empty set (Table 23-13). -/
def setMeas (p : PatchSet) : List Byte := if p.meas.isEmpty then List.replicate 32 0 else p.meas

/-- The previous set's measurement, zero where there is none (Table 23-11). -/
def lastMeas (s : State) : List Byte := (s.mon.sfPrev.map setMeas).getD (List.replicate 32 0)

/-- PSPREV: the previous set's measurement while a core still uses it, otherwise zero (Table 23-13). -/
def prevMeas (s : State) : List Byte := if oldSetUsed s then lastMeas s else List.replicate 32 0

/-- FW_STATE (R364): both records, the measurements of the current and previous sets, and each slot's SFHIT. DESIGN CHOICE
(log 21): each die's Sorting Frame has hit counters of its own (R347), and the spec does not say whose a die's mailbox returns; the
model keeps one set for the package, and every mailbox answers it. -/
def execFwState (m : Mb) (s : State) : Out :=
  mailCall "FW_STATE" m 0xA6 (fun s =>
    ⟨s, 0, 0, (s.mon.flash.markers.toList.flatMap markerImage) ++ setMeas s.mon.sfCur ++ lastMeas s
      ++ (List.range 32).flatMap fun i => natLe 8 ((SMap.get? s.mon.sfHits i).getD 0)⟩) s

/-- FW_RESET (R364, R385): refused while a launch runs; otherwise a shutdown record, and the package waits for its boot. -/
def execFwReset (m : Mb) (s : State) : Out :=
  let up := s.links.linkUp && s.health.power != 3 && s.mon.flash.running && !mailBusy m.die s
  if up && !s.fe.launches.any fun l => l.started && !l.saved then .next (enterS3 s)
  else mailCall "FW_RESET" m 0xA7 (fun s => mailNo s 2) s

/-- A slot's image as the boot ROM finds it. -/
def slotImage (f : Flash) (b : Bool) : List Byte := if b then f.slotB else f.slotA

/-- boot() of R366: the slot that is run, or none for recovery. -/
def bootSlot (f : Flash) : Option Bool :=
  let first := ((currentMarker f).map fun c => c.2.active).getD false
  let ok (b : Bool) : Bool := (firmwareRefusal f.floorFw (slotImage f b)).isNone
  if ok first then some first else if ok (!first) then some (!first) else none

/-- The staged set (R366), where the firmware booted is the one that ACTIVE names and the set verifies. -/
def stagedSet (f : Flash) (b : Bool) (fwver : Nat) : Option (List Byte) :=
  match currentMarker f with
  | some (_, c) =>
    let bs := if c.patch = 1 then f.patch0 else f.patch1
    if c.patch ≠ 0 ∧ c.active = b ∧ (patchRefusal f.floorPs fwver bs).isNone then some bs else none
  | none => none

/-- Does the current record name a set that the monitor does not load (R366)? -/
def notStaged (f : Flash) (set : Option (List Byte)) : Bool := set.isNone && ((currentMarker f).any fun c => c.2.patch != 0)

/-- The firmware and patch set of a boot, with the floors that they raise (R365, R366). Where the set named is not loaded, that is
logged (log 94). -/
def bootImages (s : State) : State :=
  match bootSlot s.mon.flash with
  | none => onFlash (fun f => { f with recovery := true, running := true }) s
  | some b =>
    let bs := slotImage s.mon.flash b
    let ver := leAt bs 16 8
    let set := stagedSet s.mon.flash b ver
    let s := onFlash (fun f => { f with
      recovery := false, running := true, fwver := ver, fwmeas := measureOf bs, floorFw := max f.floorFw (leAt bs 24 8)
      floorPs := match set with | some p => max f.floorPs (leAt p 24 8) | none => f.floorPs
      unstaged := f.unstaged + (notStaged f set).toNat }) s
    { s with mon := { s.mon with
      sfCur := match set with | some p => patchSetOf p | none => PatchSet.empty
      sfPrev := none, sfHits := [] } }

/-- The pod identity (R401): the switches that are up agree. -/
def podOf : List SwitchReport → Option (Nat × Nat)
  | [] => none
  | r :: l => if l.all fun x => x.port == r.port && x.pod == r.pod then some (r.port, r.pod) else none

/-- BOOT (R366, R386, R401): firmware or recovery, the patch set, the health state of the latest record, the self-test's lost
cores, and the links. -/
def execBoot (failed : List (BitVec 8)) (reports : List SwitchReport) (s : State) : Out :=
  if s.mon.flash.running then notNow "BOOT"
  else
    let t := bootImages s
    let h := match latestRecord t with
      | some r => { t.health with
          power := 0, spare := r.spare, replace := r.replace
          subst := Vector.ofFn fun i => (r.subst[i.val]?).getD 0, uavail := Vector.ofFn fun i => (r.uavail[i.val]?).getD 0 }
      | none => { t.health with power := 0 }
    let up := { t.links with
      linkUp := true, ide := false, ports := BitVec.allOnes 32, pod := podOf reports
      planes := if (podOf reports).isNone then 0
        else reports.foldl (fun p r => p ||| ((1 : BitVec 64) <<< r.plane.toNat)) 0 }
    let t := { t with health := h, links := if t.mon.flash.recovery then { t.links with linkUp := true } else up }
    .next (if t.mon.flash.recovery then t else failed.foldl (fun t c => replaceCore c.toNat t) t)

/-- POWER_LOSS (R367). -/
def execPowerLoss (s : State) : Out := .next (powerOff s)

/-- The postmark of a context (Table 23-13). -/
def postmark (s : State) (c : Context) (nonce : List Byte) (first : Nat) : List Byte :=
  let ims := (c.images.drop first).take 256
  let f := s.mon.flash
  let b := natLe 4 0x504D4B31 ++ natLe 1 1 ++ natLe 1 (if s.health.replace then 1 else 0) ++ natLe 2 0 ++ nonce ++ natLe 2 c.recd.ctx
    ++ natLe 2 c.recd.tenant ++ natLe 4 0 ++ natLe 8 c.recd.fmask.toNat ++ natLe 8 f.fwver ++ f.fwmeas ++ setMeas s.mon.sfCur
    ++ prevMeas s ++ (s.health.uavail.toList.flatMap fun u => natLe 8 u.toNat) ++ natLe 4 c.images.length ++ natLe 4 first
    ++ ims.flatMap fun i => natLe 1 i.kind ++ natLe 1 i.pop ++ natLe 6 0 ++ natLe 8 i.base ++ i.meas
  b ++ Config.identitySignature b

/-- REQUEST_POSTMARK (R368). -/
def execRequestPostmark (m : Mb) (ctx : BitVec 12) (nonce : List Byte) (first : Nat) (s : State) : Out :=
  mailCall "REQUEST_POSTMARK" m 0x0060 (fun s =>
    match SMap.get? s.mon.ctxs ctx.toNat with
    | none => mailNo s 1
    | some c => if nonce.length ≠ 32 then ⟨s, 3, 0, []⟩ else ⟨s, 0, 0, postmark s c nonce first ++ Config.deviceCertificate⟩) s

end Sys2Proof.Machine
end

