-- ==== Sys2Proof/Machine/Admit.lean ====
section
/-! DEFINITION. The admission of images: the checks of Table 16-10 in order, the mapping of segments, presets, registration (R76, R312 to R315, R358, R370, R394). -/

namespace Sys2Proof.Machine

/-- A segment of an image (Table 16-9), with its contents. -/
structure Segment where
  voff : Nat
  kind : Nat
  data : List Byte
  deriving DecidableEq, Repr

/-- A preset record (R394). -/
structure Preset where
  kind : Nat
  idx  : Nat
  data : List Byte
  deriving DecidableEq, Repr

/-- An image taken apart (R313). -/
structure ImageParts where
  isav  : Nat
  kind  : Nat
  nmreg : Nat
  pop   : Nat
  feats : List Nat
  segs  : List Segment
  ents  : List Nat
  marks : List (Nat × Nat)
  presets : List Preset
  deriving DecidableEq, Repr

/-- Physical-operator codes (Table 14-5). -/
def popCodes : List Nat := [0x01, 0x02, 0x03, 0x04, 0x10, 0x11, 0x12, 0x13, 0x14, 0x15, 0x16, 0x17]

/-- The header keeps Table 16-8, and the tables lie inside LENGTH (reason 1). -/
def imageHeaderOk (bs : List Byte) : Bool :=
  let kind := leAt bs 6 1
  let len := leAt bs 64 8
  decide (leAt bs 0 4 = 0x49424C4F) && decide (leAt bs 4 1 = 1) && decide (2 ≤ leAt bs 5 1) && decide (leAt bs 5 1 ≤ 4)
    && decide (kind ≤ 1) && decide (leAt bs 7 1 ≤ 16) && decide (1 ≤ leAt bs 8 2) && decide (leAt bs 8 2 ≤ 16)
    && decide (1 ≤ leAt bs 10 2) && decide (leAt bs 10 2 ≤ 256) && zeroAt bs 49 15 && zeroAt bs 72 56
    && (if kind = 0 then decide (leAt bs 48 1 = 0) else popCodes.contains (leAt bs 48 1)) && decide (len ≤ bs.length)
    && decide (128 + 32 * leAt bs 8 2 + 8 * leAt bs 10 2 + 8 * leAt bs 12 4 ≤ len)

/-- A segment entry keeps Table 16-9 and lies inside LENGTH. -/
def segEntryOk (bs : List Byte) (i : Nat) : Bool :=
  let o := 128 + 32 * i
  let k := leAt bs (o + 20) 1
  decide (leAt bs o 8 % 4096 = 0) && decide (leAt bs (o + 8) 8 + leAt bs (o + 16) 4 ≤ leAt bs 64 8) && decide (k ≤ 3)
    && zeroAt bs (o + 21) 11 && (k != 0 || decide (leAt bs (o + 16) 4 % 32 = 0)) && (i != 0 || k == 0)

/-- The records of a preset segment, at most n of them; none where one breaks R394. -/
def presetsOf : Nat → List Byte → Option (List Preset)
  | _, [] => some []
  | 0, _ => none
  | n + 1, bs =>
    let k := leAt bs 0 1
    let idx := leAt bs 2 2
    let len := leAt bs 4 4
    let ok := decide (k ≤ 2) && zeroAt bs 1 1 && decide (len = if k = 2 then 512 else 64) && decide (idx < if k = 2 then 256 else 4096)
      && decide (8 + len ≤ bs.length)
    if ok then (presetsOf n (bs.drop (8 + len))).map fun l => ⟨k, idx, (bs.drop 8).take len⟩ :: l else none

/-- The image of the bytes, or none where reason 1 refuses it. -/
def imageParts (bs : List Byte) : Option ImageParts :=
  if !imageHeaderOk bs then none
  else
    let nseg := leAt bs 8 2
    let nent := leAt bs 10 2
    let o := 128 + 32 * nseg
    let segs := (List.range nseg).map fun i =>
      let e := 128 + 32 * i
      (⟨leAt bs e 8, leAt bs (e + 20) 1, (bs.drop (leAt bs (e + 8) 8)).take (leAt bs (e + 16) 4)⟩ : Segment)
    let ents := (List.range nent).map fun i => (leAt bs (o + 8 * i) 4, leAt bs (o + 8 * i + 4) 4)
    if !(List.range nseg).all (segEntryOk bs) ∨ ents.any (fun e => decide (e.2 ≠ 0)) then none
    else match (segs.filter fun g => g.kind == 3).mapM fun g => presetsOf g.data.length g.data with
      | none => none
      | some ps => some
        { isav := leAt bs 5 1, kind := leAt bs 6 1, nmreg := leAt bs 7 1, pop := leAt bs 48 1
          feats := (List.range 256).filter fun n => decide (leAt bs (16 + n / 8) 1 / 2 ^ (n % 8) % 2 = 1)
          segs := segs, ents := ents.map (·.1)
          marks := (List.range (leAt bs 12 4)).map fun i =>
            (leAt bs (o + 8 * nent + 8 * i) 4, leAt bs (o + 8 * nent + 8 * i + 4) 4)
          presets := ps.flatten }

/-- The page range of a segment at a load base. -/
def segPages (base : Nat) (g : Segment) : Nat × Nat := (base + g.voff, (base + g.voff + g.data.length + 4095) / 4096 * 4096)

/-- The segments that are mapped (R394). -/
def mappedSegs (p : ImageParts) : List Segment := p.segs.filter fun g => g.kind != 3

/-- Do ranges of the list overlap pairwise? -/
def pagesMeet : List (Nat × Nat) → Bool
  | [] => false
  | r :: l => (l.any fun q => decide (r.1 < q.2) && decide (q.1 < r.2)) || pagesMeet l

/-- Reason 4: segments overlap, or their pages a valid mapping of the context or a fixed window. -/
def segsClash (s : State) (c : Context) (base : Nat) (p : ImageParts) : Bool :=
  let rs := (mappedSegs p).map (segPages base)
  pagesMeet rs || rs.any fun r =>
    decide (0xFFD * 2 ^ 40 < r.2) || (c.ranges.any fun e => e.2.valid && decide (e.2.base < r.2) && decide (r.1 < e.2.limit))
      || (List.range ((r.2 - r.1) / 4096)).any fun i => (walkFrom (homeMem s) (r.1 + 4096 * i) 3 c.recd.ptroot).isSome

/-- The machine as a task of the context would find it if it started now (R358). -/
def asTask (s : State) (ctx : Nat) : State := s.onC fun c => { c with info := { c.info with ctx := ctx, patch := s.mon.sfCur } }

/-- A slot word at admission (reason 5): refused, or what it decodes to; a word claimed with TRAP or EMULATE, or one that only
step 7 would fail, has no instruction to look at. -/
def admitWord (s : State) (k : Slot) (f : BitVec 32) : Option (Option Instr) :=
  let fm := fmaskOf s
  let check (w : BitVec 32) : Option (Option Instr) :=
    match decodeWord k w with
    | .ok i => if hiddenCode s i then none else some (some i)
    | .error .operand => some none
    | .error _ => none
  if (guardOf f.toNat).wf = false ∨ masked fm k f then none
  else match decodeSlot f k.idx s with
    | some p =>
      (match sfBits p.sfact 63 61 with
      | 1 => let w := rewriteWord p f; if masked fm k w then none else check w
      | _ => some none)
    | none => check f

/-- A bundle at admission: its address, its words, whether reason 5 refuses one of them, and 1 + ST. -/
structure ABundle where
  addr : Nat
  ws   : List (Slot × Instr)
  bad  : Bool
  cost : Nat
  deriving DecidableEq, Repr

/-- The bundles of a code segment. -/
def admitBundles (s : State) (base : Nat) (g : Segment) : List ABundle :=
  (List.range (g.data.length / 32)).map fun i =>
    let fs := Slot.all.map fun k => (k, BitVec.ofNat 32 (leAt g.data (32 * i + 4 * k.idx) 4))
    let rs := fs.map fun x => (x.1, admitWord s x.1 x.2)
    { addr := base + g.voff + 32 * i
      ws := rs.filterMap fun r => match r.2 with | some (some w) => some (r.1, w) | _ => none
      bad := rs.any fun r => r.2.isNone
      cost := 1 + match fs.head? with | some x => stallCount x s | none => 0 }

/-- The instruction of a slot of a bundle. -/
def ABundle.at (b : ABundle) (k : Slot) : Option Instr := (b.ws.find? fun x => x.1 == k).map (·.2)

/-- The relative target of a BR or BS word, in bundles (reason 6). -/
def relTarget : Instr → Option Int
  | .b _ o => some o.toInt
  | .call _ o => some o.toInt
  | .spec _ _ o => some o.toInt
  | _ => none

/-- A loop bundle: bundles of its body, rotating, pre-emptible. -/
def loopShape : Instr → Option (Nat × Bool × Bool)
  | .loop _ _ l => some (l.toNat + 1, false, false)
  | .loopRot _ _ l => some (l.toNat + 1, true, false)
  | .loopPre _ _ l => some (l.toNat + 1, false, true)
  | .loopRotPre _ _ l => some (l.toNat + 1, true, true)
  | _ => none

/-- A word that may not stand last in an active body (R84). -/
def notLastWord : Instr → Bool
  | .b _ _ => true
  | .jmp _ _ _ => true
  | .call _ _ => true
  | .ret _ _ _ => true
  | .spec _ _ _ => true
  | .specx _ _ => true
  | .rett _ _ => true
  | i => (loopShape i).isSome

/-- The m registers that a word names (reason 8). -/
def mregsOf : Instr → List Nat
  | .mld _ m _ => [m.toNat]
  | .mst _ m _ => [m.toNat]
  | .mzr _ d => [d.toNat]
  | .mcpy _ d a => [d.toNat, a.toNat]
  | .mmul _ d a b => [d.toNat, a.toNat, b.toNat]
  | .madd _ d a b => [d.toNat, a.toNat, b.toNat]
  | .mscl _ m _ => [m.toNat]
  | .mrcmp _ d a => [d.toNat, a.toNat]
  | .mdns _ d a => [d.toNat, a.toNat]
  | .mfac _ d a _ => [d.toNat, a.toNat]
  | .mtrn _ d a => [d.toNat, a.toNat]
  | .mrnk _ m _ => [m.toNat]
  | .mocc _ m _ => [m.toNat]
  | .mapl _ _ _ m => [m.toNat]
  | .afac _ m _ _ _ => [m.toNat]
  | _ => []

/-- The br word of a bundle. -/
def brOf (b : ABundle) : Option Instr := b.at .br

/-- Reason 6: a relative target outside the segment. -/
def targetsOk (lo hi : Nat) (bs : List ABundle) : Bool :=
  bs.all fun b => match (brOf b).bind relTarget with
    | some o => let t : Int := (b.addr : Int) + 32 * o; decide ((lo : Int) ≤ t) && decide (t < (hi : Int))
    | none => true

/-- Reason 7, over bundles in address order with the stack of open bodies: last address, and rotating. -/
def loopsOk (hi : Nat) : List (Nat × Bool) → List ABundle → Bool
  | _, [] => true
  | open_, b :: bs =>
    let st := open_.filter fun x => decide (b.addr ≤ x.1)
    let i := brOf b
    let lastBad := (i.any notLastWord) && st.any fun x => x.1 == b.addr
    match i.bind loopShape with
    | some (n, rot, _) =>
      let last := b.addr + 32 * n
      !lastBad && decide (last < hi) && (st.all fun x => decide (last ≤ x.1)) && decide (st.length < 4)
        && !(rot && st.any fun x => x.2) && loopsOk hi ((last, rot) :: st) bs
    | none => !lastBad && loopsOk hi st bs

/-- Reason 9: bara waits for barw or bar, dcpl for rjn, before the next end, ret or entry point; the arrivals still open and
a decoupling still open come along. -/
def pairsOk (eps : List Nat) : List Nat → Bool → List ABundle → Bool
  | bars, dc, [] => bars.isEmpty && !dc
  | bars, dc, b :: bs =>
    let pending := !bars.isEmpty || dc
    let bars := match b.at .sy with
      | some (.bara _ n) => n.toNat :: bars
      | some (.barw _ n) => bars.filter (· != n.toNat)
      | some (.bar _ n) => bars.filter (· != n.toNat)
      | _ => bars
    let dc := match brOf b with
      | some (.dcpl _ _) => true
      | some (.rjn _ _) => false
      | _ => dc
    let stop := match brOf b with
      | some (.endTask _ _) => true
      | some (.ret _ _ _) => true
      | _ => false
    !(pending && eps.contains b.addr) && !(stop && (!bars.isEmpty || dc)) && pairsOk eps bars dc bs

/-- A bundle that ends a run (R315). -/
def endsRun (b : ABundle) : Bool :=
  (match brOf b with
    | some (.pmark _ _) => true
    | some (.endTask _ _) => true
    | some (.call _ _) => true
    | some (.jmp _ _ _) => true
    | some (.ret _ _ _) => true
    | _ => false) || (match b.at .sy with | some (.yld _) => true | _ => false)

/-- The issue cycles of the first n bundles of the list, nested bodies multiplied; none where a loop lacks its entry (R315). -/
def spanCost (bound : Nat → Option Nat) : Nat → Nat → List ABundle → Option Nat
  | 0, _, _ => none
  | _, 0, _ => some 0
  | _, _, [] => some 0
  | k + 1, n + 1, b :: bs =>
    match (brOf b).bind loopShape with
    | none => (spanCost bound k n bs).map (b.cost + ·)
    | some (len, _, pre) =>
      match spanCost bound k len bs, spanCost bound k (n - len) (bs.drop len) with
      | some c, some rest =>
        let body := if pre then some (16 * c) else if (bs.take len).any endsRun then some c else (bound b.addr).map (· * c)
        body.map fun x => b.cost + x + rest
      | _, _ => none

/-- The runs of a segment, none above 65,536 (R315): run is what the current one counts. The body of a loop without PRE that holds
a bundle ending a run counts once, bundle by bundle, and is divided there; any other body counts as one lump, after which the run
that an entry point in it begins counts the lump alone (log 85). -/
def runsOk (bound : Nat → Option Nat) (eps : List Nat) : Nat → Nat → List ABundle → Bool
  | _, run, [] => decide (run ≤ 65536)
  | 0, _, _ => false
  | k + 1, run, b :: bs =>
    let fresh := eps.contains b.addr
    let here := (if fresh then 0 else run) + b.cost
    let after := if endsRun b then 0 else here
    decide (run ≤ 65536) && decide (here ≤ 65536) &&
      match (brOf b).bind loopShape with
      | none => runsOk bound eps k after bs
      | some (len, _, pre) =>
        match spanCost bound (2 * bs.length + 4) 1 (b :: bs) with
        | none => false
        | some c =>
          if !pre && (bs.take len).any endsRun then runsOk bound eps k after bs
          else
            let body := c - b.cost
            let split := (bs.take len).any fun x => eps.contains x.addr
            decide (after + body ≤ 65536) && runsOk bound eps k (if split then body else after + body) (bs.drop len)

/-- No backward BR outside every body that it targets, without a run end from its target to itself (R315). -/
def backwardOk (bs : List ABundle) : Bool :=
  bs.all fun b =>
    match brOf b with
    | some (.b _ o) =>
      let t : Int := (b.addr : Int) + 32 * o.toInt
      let inside := bs.any fun l => match (brOf l).bind loopShape with
        | some (n, _, _) =>
          decide ((l.addr : Int) < t) && decide (t ≤ ((l.addr + 32 * n : Nat) : Int)) && decide (l.addr < b.addr)
            && decide (b.addr ≤ l.addr + 32 * n)
        | none => false
      decide (0 ≤ o.toInt) || inside || bs.any fun x => decide (t ≤ (x.addr : Int)) && decide (x.addr ≤ b.addr) && endsRun x
    | some (.call _ _) => true
    | _ => true

/-- The first reason of Table 16-10 that refuses the image, or none. -/
def imageRefusal (s : State) (c : Context) (base : Nat) (bs : List Byte) : Option Nat :=
  match imageParts bs with
  | none => some 1
  | some p =>
    let len := leAt bs 64 8
    let sig (key : List Byte) : Bool := Config.signatureVerifies key (bs.take len) ((bs.drop len).take sigBytes)
    let fm := c.recd.fmask
    let t := asTask s c.recd.ctx
    let codes := (p.segs.filter fun g => g.kind == 0).map fun g => (base + g.voff, g, admitBundles t base g)
    let seg0 := p.segs.headD ⟨0, 0, []⟩
    let eps := p.ents.map fun e => base + seg0.voff + e
    let real := p.marks.filter fun m => decide (m.1 < 0xFFFFFFFE)
    let bound (lo : Nat) (a : Nat) : Option Nat := (real.find? fun m => lo + m.1 == a).map (·.2)
    if !(sig c.recd.tpk || (p.kind == 1 && sig Config.operatorLibraryKey)) then some 2
    else if pver fm < p.isav ∨ p.feats.any (fun n => !features.contains n || hidden fm n) then some 3
    else if segsClash s c base p then some 4
    else if codes.any fun x => x.2.2.any fun b => b.bad then some 5
    else if codes.any fun x => !targetsOk x.1 (x.1 + x.2.1.data.length) x.2.2 then some 6
    else if codes.any fun x => !loopsOk (x.1 + x.2.1.data.length) [] x.2.2 then some 7
    else if codes.any fun x => x.2.2.any fun b => b.ws.any fun w => (mregsOf w.2).any fun m => decide (p.nmreg ≤ m) then some 8
    else if codes.any fun x => !pairsOk eps [] false x.2.2 then some 9
    else if p.ents.any (fun e => decide (e % 32 ≠ 0) || decide (seg0.data.length ≤ e))
        ∨ 1 < (p.marks.filter fun m => m.1 == 0xFFFFFFFE).length
        ∨ p.marks.any (fun m => decide (0xFFFFFFFE ≤ m.1) && decide (p.ents.length ≤ m.2)) then some 10
    else if codes.any fun x => !runsOk (bound x.1) eps (x.2.2.length + 1) 0 x.2.2 || !backwardOk x.2.2 then some 11
    else none

/-- Set an 8-byte entry of a page table. -/
def setPte (table idx v : Nat) (m : List Host.Cell) : List Host.Cell := memSetAll (cellsAt (table + 8 * idx) (natLe 8 v)) m

/-- Map a 4 KiB page (R306, R312), taking tables that are not there yet from the free pages on; leaf is the entry without its
address. -/
def mapPage (leaf va pa : Nat) : Nat → Nat → List Host.Cell × Nat → List Host.Cell × Nat
  | 0, table, (m, free) => (setPte table (va / 2 ^ 12 % 512) (leaf + pa) m, free)
  | n + 1, table, (m, free) =>
    let idx := va / 2 ^ (12 + 9 * (n + 1)) % (if n + 1 = 3 then 8192 else 512)
    let e := pteAt m (table + 8 * idx)
    if pteBit e 0 then mapPage leaf va pa n (pteAddr e) (m, free)
    else
      let clear := m.filter fun c => !(decide (free ≤ c.1) && decide (c.1 < free + 4096))
      mapPage leaf va pa n free (setPte table idx (free + 1) clear, free + 4096)

/-- The permission bits of a segment's pages: code X, data R, or R and W (R312). -/
def segPerm : Nat → Nat
  | 0 => 2 ^ 3 | 1 => 2 ^ 1 | _ => 2 ^ 1 + 2 ^ 2

/-- Map one segment from the free pages on, with its contents. -/
def mapSegment (root key tag base : Nat) (g : Segment) (x : List Host.Cell × Nat) : List Host.Cell × Nat :=
  let r := segPages base g
  let n := (r.2 - r.1) / 4096
  let pa := x.2
  let clear := x.1.filter fun c => !(decide (pa ≤ homePhys c.1) && decide (homePhys c.1 < pa + 4096 * n))
  let leaf := key * 2 ^ 58 + 2 ^ 4 + 1 + segPerm g.kind
  (List.range n).foldl (fun y i => mapPage leaf (r.1 + 4096 * i) (pa + 4096 * i) 3 root y)
    (memSetAll (cellsAt (tagHome tag pa) g.data) clear, pa + 4096 * n)

/-- The lowest key of a record. -/
def firstKey (r : CtxRecord) : Nat := ((List.range 64).find? fun k => r.keys.getLsbD k).getD 0

/-- Another agent's effect meets the open transaction: it aborts where an action of it joined on the same thing (R188, reason 1). -/
def conflict (hit : Joined → Bool) (s : State) : State :=
  if s.c.txn.acts.any hit then s.onC (abortTxn 1) else s

/-- Does a preset write what a joined action is to write: a tensor's entry, or a statistics entry (R188)? -/
def presetHits (p : Preset) : Joined → Bool
  | .pub id _ => p.kind == 0 && id == p.idx
  | .statw id _ _ => p.kind == 1 && id == p.idx
  | _ => false

/-- Write a preset record (R394): an immediate effect, visible at once as a commit's descriptor stores are (R222); a statistics
preset has VERSION 1. -/
def writePreset (ctx : Nat) (r : CtxRecord) (p : Preset) (s : State) : State :=
  let va := match p.kind with
    | 0 => r.dtbase + 64 * p.idx
    | 1 => r.stbase + 64 * p.idx
    | _ => r.cbbase + 512 * p.idx
  let data := if p.kind = 1 then natLe 4 1 ++ p.data.drop 4 else p.data
  match translate s ctx .write true va with
  | .ok h =>
    (if s.c.info.running && s.c.info.ctx == ctx then conflict (presetHits p) s else s).write (cellsAt h data)
  | .error _ => s

/-- What the context keeps of an admitted image (R314, R370). -/
def admittedImage (base : Nat) (bs : List Byte) (p : ImageParts) : Image :=
  let seg0 := p.segs.headD ⟨0, 0, []⟩
  let ents := p.ents.map fun e => base + seg0.voff + e
  let codes := p.segs.filter fun g => g.kind == 0
  { base := base, kind := p.kind, pop := p.pop, entries := ents
    handler := (p.marks.find? fun m => m.1 == 0xFFFFFFFE).bind fun m => ents[m.2]?
    idem := if p.kind = 1 then List.range ents.length else (p.marks.filter fun m => m.1 == 0xFFFFFFFF).map (·.2)
    bounds := (p.marks.filter fun m => decide (m.1 < 0xFFFFFFFE)).flatMap fun m => codes.map fun g => (base + g.voff + m.1, m.2)
    feats := p.feats, meas := Config.sha256 (bs.take (leAt bs 64 8)), nmreg := p.nmreg }

/-- The bytes of an image at a virtual address, from memory that the context may read (R312): as many as the header's LENGTH and
the signature take. -/
def imageSource (s : State) (ctx a : Nat) : Option (List Byte) :=
  let get (o n : Nat) : Option (List Byte) :=
    ((List.range n).mapM fun i => (translate s ctx .read false (a + o + i)).toOption).map fun hs => hs.map (homeByte s)
  match get 0 128 with
  | none => none
  | some h => get 0 (leAt h 64 8 + sigBytes)

/-- What stands at home in the page tables from a root on enters memory: no task reads it, and the walk reads it as it stands at home
(R306, R309). -/
def landTables (root : Nat) (s : State) : State :=
  let spans := tableSpans (homeMem s) 3 root
  let mine (c : Host.Cell) : Bool := spans.any fun p => decide (p.1 ≤ c.1) && decide (c.1 < p.1 + p.2)
  { s with mem := memSetAll (s.outer.filter mine) s.mem, outer := s.outer.filter fun c => !mine c }

/-- Map, write and register an image that every check has passed. -/
def installImage (ctx base pa : Nat) (bs : List Byte) (p : ImageParts) (s : State) : State :=
  match SMap.get? s.mon.ctxs ctx with
  | none => s
  | some c =>
    let key := firstKey c.recd
    let tag := keyTag s key
    let place (m : List Host.Cell) : List Host.Cell × Nat :=
      (mappedSegs p).foldl (fun x g => mapSegment c.recd.ptroot key tag base g x) (m, pa)
    let s := landTables c.recd.ptroot (scrubPhys pa (place (homeMem s)).2 s)
    let x := place s.mem
    let keyed := x.1.foldl (fun k c =>
      if decide (pa ≤ homePhys c.1) && decide (homePhys c.1 < x.2) && homeTag c.1 != 0 then SMap.put k (homeBlock c.1) tag else k) s.keyed
    let t := p.presets.foldl (fun t r => writePreset ctx c.recd r t) { s with mem := x.1, keyed := keyed }
    onCtx ctx (fun c => { c with
      images := c.images ++ [admittedImage base bs p]
      pops := if p.kind = 1 then (if c.pops.contains p.pop then c.pops else c.pops ++ [p.pop]) else c.pops }) t

/-- The end of the physical pages that an image takes from pa on. -/
def imageEnd (s : State) (c : Context) (base pa : Nat) (bs : List Byte) : Nat :=
  match imageParts bs with
  | some p => ((mappedSegs p).foldl (fun x g => mapSegment c.recd.ptroot 0 0 base g x) (homeMem s, pa)).2
  | none => pa

/-- Are the pages from pa on free for an image: nothing maps them, no page table lies in them, no host window shows them (R310,
R312)? -/
def pagesFree (s : State) (ctx va base pa : Nat) : Bool :=
  match SMap.get? s.mon.ctxs ctx, imageSource s ctx va with
  | some c, some bs => !physUsed s pa (imageEnd s c base pa bs - pa)
  | _, _ => true

/-- ADMIT_IMAGE (R314): pa names the free physical pages that the monitor takes for contents and tables. -/
def execAdmitImage (m : Mb) (ctx : BitVec 12) (va : Word) (base : Word) (pa : Nat) (s : State) : Out :=
  if pa % 4096 ≠ 0 || !pagesFree s ctx.toNat va.toNat base.toNat pa then notNow "ADMIT_IMAGE"
  else mailCall "ADMIT_IMAGE" m 0x0020 (fun s =>
    match SMap.get? s.mon.ctxs ctx.toNat with
    | none => mailNo s 1
    | some c =>
      if base.toNat % 65536 ≠ 0 then mailNo s 0
      else match imageSource s ctx.toNat va.toNat with
        | none => mailNo s 1
        | some bs =>
          match imageRefusal s c base.toNat bs, imageParts bs with
          | none, some p => mailOk (installImage ctx.toNat base.toNat pa bs p s)
          | some r, _ => mailNo s r
          | none, none => mailNo s 1) s

end Sys2Proof.Machine
end

