-- ==== Sys2Proof/Machine/Links.lean ====
section
/-! DEFINITION. The host link and its windows, scale-up flits and scale-out packets (R318, R319, R321, R325, R329 to R331, R373). -/

namespace Sys2Proof.Machine

/-- Perform the host writes that waited for the link. -/
def flushWaiting (s : State) : State :=
  s.fe.waiting.foldl (fun s w => hostPut w.1 w.2 s) { s with fe := { s.fe with waiting := [] } }

/-- IDE_ESTABLISH (R321, R373): the link stands, trained again where it was lost, and CXL traffic is served. -/
def execIdeEstablish (s : State) : Out :=
  if s.health.power = 3 ∨ !s.mon.flash.running ∨ s.mon.flash.recovery then notNow "IDE_ESTABLISH"
  else .next (flushWaiting { s with links := { s.links with linkUp := true, ide := true } })

/-- The stored ciphertext of the 64-byte block at a physical address, by the key under which it stands (R318). -/
def storedBlock (s : State) (b : Nat) : List Byte :=
  let k := outTag s b
  let bs := (List.range 64).map fun i => homeGet s (tagHome k (64 * b + i))
  if k = rawTag then bs else Config.xtsEncrypt (k % 64) (k / 64) (64 * b) bs

/-- HOST_WINDOW_READ (R325): stored ciphertext. -/
def execHostWindowRead (w : BitVec 6) (off : Nat) (len : Nat) (s : State) : Out :=
  match SMap.get? s.mon.windows w.toNat with
  | none => notNow "HOST_WINDOW_READ"
  | some x =>
    if !cxlUp s || decide (x.size < off + len) then notNow "HOST_WINDOW_READ"
    else
      let b0 := (x.pa + off) / 64
      let blocks := (List.range ((x.pa + off + len + 63) / 64 - b0)).flatMap fun i => storedBlock s (b0 + i)
      .next { s with links := { s.links with hostRead := (blocks.drop ((x.pa + off) % 64)).take len } }

/-- HOST_WINDOW_WRITE (R325): whole aligned blocks are stored as given; the device decrypts them under the key of the mapping that
reads them (R318). -/
def execHostWindowWrite (w : BitVec 6) (off : Nat) (data : List Byte) (s : State) : Out :=
  match SMap.get? s.mon.windows w.toNat with
  | none => notNow "HOST_WINDOW_WRITE"
  | some x =>
    if !cxlUp s || decide (x.size < off + data.length) then notNow "HOST_WINDOW_WRITE"
    else
      let lo := x.pa + off
      let b0 := (lo + 63) / 64
      let n := (lo + data.length) / 64 - b0
      let cells := (List.range n).flatMap fun i =>
        let b := b0 + i
        cellsAt (tagHome rawTag (64 * b)) ((data.drop (64 * b - lo)).take 64)
      .next (s.writeOuter cells)

/-- The host's access goes: windows close, and CXL traffic is refused (R373). -/
def closeHost (cause : Nat) (s : State) : State :=
  monitorCause cause { s with mon := { s.mon with windows := [] }, links := { s.links with ide := false } }

/-- HOST_LINK_LOST (R373). -/
def execHostLinkLost (s : State) : Out :=
  if !s.links.linkUp then notNow "HOST_LINK_LOST"
  else
    let t := closeHost 0xE0 s
    .next { t with links := { t.links with linkUp := false } }

/-- IDE_INTEGRITY_FAILURE (R373). -/
def execIdeIntegrityFailure (s : State) : Out :=
  if !s.links.ide then notNow "IDE_INTEGRITY_FAILURE" else .next (closeHost 0xE1 s)

/-- SCALE_UP_PLANE_LOST (R329, R373). -/
def execScaleUpPlaneLost (plane : BitVec 6) (s : State) : Out :=
  if s.links.planes.getLsbD plane.toNat then
    .next (monitorCause 0xE2 { s with links := { s.links with planes := s.links.planes &&& ~~~((1 : BitVec 64) <<< plane.toNat) } })
  else notNow "SCALE_UP_PLANE_LOST"

/-- SCALE_OUT_PORT_LOST (R331, R373). -/
def execScaleOutPortLost (port : BitVec 5) (s : State) : Out :=
  if s.links.ports.getLsbD port.toNat then
    .next (monitorCause 0xE3 { s with links := { s.links with ports := s.links.ports &&& ~~~((1 : BitVec 32) <<< port.toNat) } })
  else notNow "SCALE_OUT_PORT_LOST"

/-- SWITCH_PLANE_UP (R329): traffic spreads over the plane again. Pod identity stays that of the boot (R401). -/
def execSwitchPlaneUp (plane : BitVec 6) (s : State) : Out :=
  if s.links.planes.getLsbD plane.toNat ∨ !s.mon.flash.running ∨ s.mon.flash.recovery then notNow "SWITCH_PLANE_UP"
  else .next { s with links := { s.links with planes := s.links.planes ||| ((1 : BitVec 64) <<< plane.toNat) } }

/-- Does the package carry scale-up traffic: does it belong to a pod, with a plane up (R328, R401)? -/
def scaleUp (s : State) : Bool := s.links.pod.isSome && s.links.planes != 0

/-- FLIT_RECEIVE (R329): a flit of 256 bytes that fails its CRC is retried on its link and counted; another is taken. A package of no
pod carries none (R401). The encryption of the link and its attestation show in nothing here (log 107). -/
def execFlitReceive (plane : BitVec 6) (crcOk : Bool) (payload : List Byte) (s : State) : Out :=
  if !s.links.planes.getLsbD plane.toNat || !scaleUp s || payload.length != 256 then notNow "FLIT_RECEIVE"
  else if crcOk then .next { s with links := { s.links with flits := s.links.flits ++ [(plane.toNat, payload)] } }
  else .next { s with links := { s.links with badFlits := bump plane.toNat s.links.badFlits } }

/-- A connection that no packet has touched (R331): its timeout starts at 20 µs. -/
def newConn (id : Nat) : Conn := ⟨id, (0, 0), none, 0, 0, [], 0, [], 20, 0, [], 0⟩

/-- The connection of a number. -/
def connAt (s : State) (id : Nat) : Conn := (s.links.conns.find? fun c => c.id == id).getD (newConn id)

/-- Put a connection back. -/
def setConn (c : Conn) (s : State) : State :=
  { s with links := { s.links with conns := c :: s.links.conns.filter fun x => x.id != c.id } }

/-- Every packet that verifies carries an acknowledgment: every PSN below ACKPSN has been received (Table 17-4). -/
def takeAck (ack : Nat) (c : Conn) : Conn :=
  if c.acked < ack then
    { c with acked := ack, unacked := c.unacked.filter fun p => decide (ack ≤ p), timeout := 20 }
  else c

/-- The next expected PSN once more of the list has come. -/
def nextPsn : Nat → Nat → List Nat → Nat
  | 0, n, _ => n
  | k + 1, n, seen => if seen.contains n then nextPsn k (n + 1) seen else n

/-- The monitors of two packages set up a connection for a job (R330). -/
def connect (id pod pkg : Nat) (job : BitVec 32) (s : State) : State := setConn { newConn id with peer := (pod, pkg), job := some job } s

/-- Bytes that another task writes reach no scratchpad (R215). -/
def sharedCells (cells : List Host.Cell) : List Host.Cell := cells.filter fun c => !isPoolHome c.1

/-- A peer of the job writes bytes into a context's memory (R178, R227, R326, R328, R331). -/
def remoteWrite (ctx va : Nat) (bs : List Byte) (s : State) : State :=
  match (List.range bs.length).mapM fun i => translate s ctx .write false (va + i) with
  | .ok hs => s.writeOuter (sharedCells (hs.zip bs))
  | .error _ => s

/-- A message with one more payload: its bytes by offset, its length once the last packet has come, and whether it has been
delivered whole (R331). -/
def addPart (h : TransportHeader) (payload : List Byte) (c : Conn) : Conn :=
  let old := (c.msgs.find? fun m => m.1 == h.msgid).getD (h.msgid, 0, [], none)
  let cells := (payload.zipIdx.foldl (fun m x => SMap.put m (h.offset + x.2) x.1) old.2.2.1)
  let len := if h.last then some (h.offset + payload.length) else old.2.2.2
  let whole := match len with | some n => (List.range n).all fun i => (SMap.get? cells i).isSome | none => false
  { c with msgs := (h.msgid, if whole then 1 else 0, cells, len) :: c.msgs.filter fun m => m.1 != h.msgid }

/-- A scale-out packet of a type (R330, R331): of no type, or of another version, it is dropped; with a bad tag, or on a connection
for no job, whose key nobody holds, it is dropped and counted. -/
def transport (name : String) (ttype : Nat) (h : TransportHeader) (tagOk : Bool) (f : Conn → State → State) (s : State) : Out :=
  if s.links.ports = 0 ∨ (h.ttype ≠ ttype ∧ h.ttype ≤ 3) then notNow name
  else if h.tver ≠ 1 ∨ 3 < h.ttype then .next s
  else
    let c := connAt s h.conn
    if !tagOk || c.job.isNone then .next (setConn { c with bad := c.bad + 1 } s)
    else .next (f { takeAck h.ackpsn c with echoes := c.echoes + h.congestion.toNat } s)

/-- The writes of a message that has come whole, where it writes: at an address of the job's context (R331, log 108). -/
def deliverMsg (c : Conn) (msgid : Nat) (dest : Option Word) (s : State) : State :=
  match c.msgs.find? (fun m => m.1 == msgid), dest, s.mon.ctxs.find? fun x => x.2.job.isSome && x.2.job == c.job with
  | some (_, 1, cells, some n), some a, some x => remoteWrite x.1 a.toNat ((List.range n).map fun i => (SMap.get? cells i).getD 0) s
  | _, _, _ => s

/-- A data packet on its connection (R331): within 4,096 of the next expected PSN, and no duplicate. With the last byte of its
message, what the message writes is written (log 108). -/
def takeData (h : TransportHeader) (payload : List Byte) (c : Conn) (s : State) : State :=
  if h.psn < c.next ∨ c.next + 4096 < h.psn ∨ c.seen.contains h.psn ∨ 4096 < payload.length then setConn c s
  else
    let seen := h.psn :: c.seen
    let n := nextPsn seen.length c.next seen
    let d := addPart h payload { c with next := n, seen := seen.filter fun p => decide (n ≤ p) }
    setConn d (deliverMsg d h.msgid h.dest s)

/-- TRANSPORT_DATA_RECEIVE (R330, R331). -/
def execTransportDataReceive (h : TransportHeader) (payload : List Byte) (tagOk : Bool) (s : State) : Out :=
  transport "TRANSPORT_DATA_RECEIVE" 0 h tagOk (takeData h payload) s

/-- TRANSPORT_ACK_RECEIVE (R330, R331). -/
def execTransportAckReceive (h : TransportHeader) (tagOk : Bool) (s : State) : Out :=
  transport "TRANSPORT_ACK_RECEIVE" 1 h tagOk setConn s

/-- TRANSPORT_NACK_RECEIVE (R330): what it says of packets received counts; what is missing is sent again. -/
def execTransportNackReceive (h : TransportHeader) (tagOk : Bool) (s : State) : Out :=
  transport "TRANSPORT_NACK_RECEIVE" 2 h tagOk setConn s

/-- TRANSPORT_KEEPALIVE_RECEIVE (R330). -/
def execTransportKeepaliveReceive (h : TransportHeader) (tagOk : Bool) (s : State) : Out :=
  transport "TRANSPORT_KEEPALIVE_RECEIVE" 3 h tagOk setConn s

/-- The package sends n data packets of a connection; each stays unacknowledged until ACKPSN passes it (R331). -/
def sendPackets (conn n : Nat) (s : State) : State :=
  let c := connAt s conn
  setConn { c with out := c.out + n, unacked := c.unacked ++ (List.range n).map (c.out + ·) } s

/-- RETRANSMIT_TIMEOUT (R331): every unacknowledged packet is sent again, and the timeout doubles, up to 10 ms. -/
def execRetransmitTimeout (conn : Nat) (s : State) : Out :=
  let c := connAt s conn
  if c.unacked.isEmpty then notNow "RETRANSMIT_TIMEOUT"
  else .next (setConn { c with timeout := min 10000 (2 * c.timeout) } s)

end Sys2Proof.Machine
end

