-- ==== Sys2Proof/Machine/Dispatch.lean ====
section
/-! DEFINITION. The one dispatch: each constructor of Instr to its meaning. -/

namespace Sys2Proof.Machine

def exec (i : Instr) (s : State) : Host.Outcome State Fault Refusal :=
  match i with
  | .nop g t => Sys2Proof.Machine.execNop g t s
  | .nopSlot k g => Sys2Proof.Machine.execNopSlot k g s
  | .b g o => Sys2Proof.Machine.execB g o s
  | .jmp g t a => Sys2Proof.Machine.execJmp g t a s
  | .call g o => Sys2Proof.Machine.execCall g o s
  | .ret g t a => Sys2Proof.Machine.execRet g t a s
  | .loop g rs l => Sys2Proof.Machine.execLoop g rs l s
  | .loopRot g rs l => Sys2Proof.Machine.execLoopRot g rs l s
  | .loopPre g rs l => Sys2Proof.Machine.execLoopPre g rs l s
  | .loopRotPre g rs l => Sys2Proof.Machine.execLoopRotPre g rs l s
  | .lbrk g t => Sys2Proof.Machine.execLbrk g t s
  | .pmark g t => Sys2Proof.Machine.execPmark g t s
  | .pset g t d => Sys2Proof.Machine.execPset g t d s
  | .pclr g t d => Sys2Proof.Machine.execPclr g t d s
  | .pand g t d a b => Sys2Proof.Machine.execPand g t d a b s
  | .por g t d a b => Sys2Proof.Machine.execPor g t d a b s
  | .pxor g t d a b => Sys2Proof.Machine.execPxor g t d a b s
  | .pnot g t d a => Sys2Proof.Machine.execPnot g t d a s
  | .endTask g t => Sys2Proof.Machine.execEndTask g t s
  | .trap g t c => Sys2Proof.Machine.execTrap g t c s
  | .rett g t => Sys2Proof.Machine.execRett g t s
  | .spec g p o => Sys2Proof.Machine.execSpec g p o s
  | .specx g t => Sys2Proof.Machine.execSpecx g t s
  | .dcpl g t => Sys2Proof.Machine.execDcpl g t s
  | .rjn g t => Sys2Proof.Machine.execRjn g t s
  | .sread g t d c => Sys2Proof.Machine.execSread g t d c s
  | .sreadWm g t d w => Sys2Proof.Machine.execSreadWm g t d w s
  | .sreadSrec g t d r => Sys2Proof.Machine.execSreadSrec g t d r s
  | .sreadSat g t d x => Sys2Proof.Machine.execSreadSat g t d x s
  | .swrite g t rs c => Sys2Proof.Machine.execSwrite g t rs c s
  | .swriteTstat g t rs => Sys2Proof.Machine.execSwriteTstat g t rs s
  | .swriteTpc g t rs => Sys2Proof.Machine.execSwriteTpc g t rs s
  | .swriteIsav g t rs => Sys2Proof.Machine.execSwriteIsav g t rs s
  | .swriteSrec g t rs r => Sys2Proof.Machine.execSwriteSrec g t rs r s
  | .swriteWm g t rs w => Sys2Proof.Machine.execSwriteWm g t rs w s
  | .swriteMtol g t rs => Sys2Proof.Machine.execSwriteMtol g t rs s
  | .swriteLstat g t rs => Sys2Proof.Machine.execSwriteLstat g t rs s
  | .swriteSat g t rs x => Sys2Proof.Machine.execSwriteSat g t rs x s
  | .bkpt g t k => Sys2Proof.Machine.execBkpt g t k s
  | .add g d a b => Sys2Proof.Machine.execAdd g d a b s
  | .sub g d a b => Sys2Proof.Machine.execSub g d a b s
  | .mul g d a b => Sys2Proof.Machine.execMul g d a b s
  | .mulh g d a b => Sys2Proof.Machine.execMulh g d a b s
  | .mulhz g d a b => Sys2Proof.Machine.execMulhz g d a b s
  | .div g d a b => Sys2Proof.Machine.execDiv g d a b s
  | .divz g d a b => Sys2Proof.Machine.execDivz g d a b s
  | .rem g d a b => Sys2Proof.Machine.execRem g d a b s
  | .remz g d a b => Sys2Proof.Machine.execRemz g d a b s
  | .and g d a b => Sys2Proof.Machine.execAnd g d a b s
  | .or g d a b => Sys2Proof.Machine.execOr g d a b s
  | .xor g d a b => Sys2Proof.Machine.execXor g d a b s
  | .andn g d a b => Sys2Proof.Machine.execAndn g d a b s
  | .shl g d a b => Sys2Proof.Machine.execShl g d a b s
  | .shr g d a b => Sys2Proof.Machine.execShr g d a b s
  | .sar g d a b => Sys2Proof.Machine.execSar g d a b s
  | .rol g d a b => Sys2Proof.Machine.execRol g d a b s
  | .min g d a b => Sys2Proof.Machine.execMin g d a b s
  | .max g d a b => Sys2Proof.Machine.execMax g d a b s
  | .minz g d a b => Sys2Proof.Machine.execMinz g d a b s
  | .maxz g d a b => Sys2Proof.Machine.execMaxz g d a b s
  | .clz g d a => Sys2Proof.Machine.execClz g d a s
  | .ctz g d a => Sys2Proof.Machine.execCtz g d a s
  | .popc g d a => Sys2Proof.Machine.execPopc g d a s
  | .sel g p d a b => Sys2Proof.Machine.execSel g p d a b s
  | .addi g d a im => Sys2Proof.Machine.execAddi g d a im s
  | .andi g d a im => Sys2Proof.Machine.execAndi g d a im s
  | .ori g d a im => Sys2Proof.Machine.execOri g d a im s
  | .xori g d a im => Sys2Proof.Machine.execXori g d a im s
  | .shli g d a im => Sys2Proof.Machine.execShli g d a im s
  | .shri g d a im => Sys2Proof.Machine.execShri g d a im s
  | .sari g d a im => Sys2Proof.Machine.execSari g d a im s
  | .li g d im => Sys2Proof.Machine.execLi g d im s
  | .lih g d im => Sys2Proof.Machine.execLih g d im s
  | .cmp g p c a b => Sys2Proof.Machine.execCmp g p c a b s
  | .cmpi g p c a im => Sys2Proof.Machine.execCmpi g p c a im s
  | .ldB g d a k o => Sys2Proof.Machine.execLdB g d a k o s
  | .ldBz g d a k o => Sys2Proof.Machine.execLdBz g d a k o s
  | .ldH g d a k o => Sys2Proof.Machine.execLdH g d a k o s
  | .ldHz g d a k o => Sys2Proof.Machine.execLdHz g d a k o s
  | .ldW g d a k o => Sys2Proof.Machine.execLdW g d a k o s
  | .ldWz g d a k o => Sys2Proof.Machine.execLdWz g d a k o s
  | .ldD g d a k o => Sys2Proof.Machine.execLdD g d a k o s
  | .stB g d a k o => Sys2Proof.Machine.execStB g d a k o s
  | .stH g d a k o => Sys2Proof.Machine.execStH g d a k o s
  | .stW g d a k o => Sys2Proof.Machine.execStW g d a k o s
  | .stD g d a k o => Sys2Proof.Machine.execStD g d a k o s
  | .ldh g h a k o => Sys2Proof.Machine.execLdh g h a k o s
  | .sth g h a k o => Sys2Proof.Machine.execSth g h a k o s
  | .hmk g h rs => Sys2Proof.Machine.execHmk g h rs s
  | .hset g h rs f => Sys2Proof.Machine.execHset g h rs f s
  | .hget g h rs f => Sys2Proof.Machine.execHget g h rs f s
  | .stg g e im a => Sys2Proof.Machine.execStg g e im a s
  | .rng g d a b => Sys2Proof.Machine.execRng g d a b s
  | .cvt g d a f m x => Sys2Proof.Machine.execCvt g d a f m x s
  | .faddS g d a b => Sys2Proof.Machine.execFaddS g d a b s
  | .fmulS g d a b => Sys2Proof.Machine.execFmulS g d a b s
  | .ffmaS g d a b => Sys2Proof.Machine.execFfmaS g d a b s
  | .fcmp g p c a b => Sys2Proof.Machine.execFcmp g p c a b s
  | .amoAdd g d a b k => Sys2Proof.Machine.execAmoAdd g d a b k s
  | .amoAnd g d a b k => Sys2Proof.Machine.execAmoAnd g d a b k s
  | .amoOr g d a b k => Sys2Proof.Machine.execAmoOr g d a b k s
  | .amoXor g d a b k => Sys2Proof.Machine.execAmoXor g d a b k s
  | .amoMax g d a b k => Sys2Proof.Machine.execAmoMax g d a b k s
  | .amoMin g d a b k => Sys2Proof.Machine.execAmoMin g d a b k s
  | .amoXchg g d a b k => Sys2Proof.Machine.execAmoXchg g d a b k s
  | .amoCas g d a b k => Sys2Proof.Machine.execAmoCas g d a b k s
  | .amob g d a b k => Sys2Proof.Machine.execAmob g d a b k s
  | .amoAddR g d a b k => Sys2Proof.Machine.execAmoAddR g d a b k s
  | .amoAndR g d a b k => Sys2Proof.Machine.execAmoAndR g d a b k s
  | .amoOrR g d a b k => Sys2Proof.Machine.execAmoOrR g d a b k s
  | .amoXorR g d a b k => Sys2Proof.Machine.execAmoXorR g d a b k s
  | .amoMaxR g d a b k => Sys2Proof.Machine.execAmoMaxR g d a b k s
  | .amoMinR g d a b k => Sys2Proof.Machine.execAmoMinR g d a b k s
  | .amoXchgR g d a b k => Sys2Proof.Machine.execAmoXchgR g d a b k s
  | .amoCasR g d a b k => Sys2Proof.Machine.execAmoCasR g d a b k s
  | .amobR g d a b k => Sys2Proof.Machine.execAmobR g d a b k s
  | .apush g h rs l t => Sys2Proof.Machine.execApush g h rs l t s
  | .ashf g b => Sys2Proof.Machine.execAshf g b s
  | .aacc g h rs l t => Sys2Proof.Machine.execAacc g h rs l t s
  | .adrn g h rs t => Sys2Proof.Machine.execAdrn g h rs t s
  | .alds g h rs l => Sys2Proof.Machine.execAlds g h rs l s
  | .aswp g l => Sys2Proof.Machine.execAswp g l s
  | .asel g l => Sys2Proof.Machine.execAsel g l s
  | .acfg g t rs => Sys2Proof.Machine.execAcfg g t rs s
  | .acfgImm g t im => Sys2Proof.Machine.execAcfgImm g t im s
  | .azr g t => Sys2Proof.Machine.execAzr g t s
  | .afac g m l t p => Sys2Proof.Machine.execAfac g m l t p s
  | .awm g t rs => Sys2Proof.Machine.execAwm g t rs s
  | .vadd g d a b => Sys2Proof.Machine.execVadd g d a b s
  | .vsub g d a b => Sys2Proof.Machine.execVsub g d a b s
  | .vmul g d a b => Sys2Proof.Machine.execVmul g d a b s
  | .vfma g d a b c => Sys2Proof.Machine.execVfma g d a b c s
  | .vfms g d a b c => Sys2Proof.Machine.execVfms g d a b c s
  | .vmax g d a b => Sys2Proof.Machine.execVmax g d a b s
  | .vmin g d a b => Sys2Proof.Machine.execVmin g d a b s
  | .vabs g d a => Sys2Proof.Machine.execVabs g d a s
  | .vneg g d a => Sys2Proof.Machine.execVneg g d a s
  | .vclamp g d a b c => Sys2Proof.Machine.execVclamp g d a b c s
  | .vexp g d a => Sys2Proof.Machine.execVexp g d a s
  | .vexp2 g d a => Sys2Proof.Machine.execVexp2 g d a s
  | .vlog2 g d a => Sys2Proof.Machine.execVlog2 g d a s
  | .vrcp g d a => Sys2Proof.Machine.execVrcp g d a s
  | .vrsq g d a => Sys2Proof.Machine.execVrsq g d a s
  | .vsqrt g d a => Sys2Proof.Machine.execVsqrt g d a s
  | .vtanh g d a => Sys2Proof.Machine.execVtanh g d a s
  | .vsigm g d a => Sys2Proof.Machine.execVsigm g d a s
  | .vcmp g d a b c => Sys2Proof.Machine.execVcmp g d a b c s
  | .vsel g d a b c => Sys2Proof.Machine.execVsel g d a b c s
  | .vand g d a b => Sys2Proof.Machine.execVand g d a b s
  | .vor g d a b => Sys2Proof.Machine.execVor g d a b s
  | .vxor g d a b => Sys2Proof.Machine.execVxor g d a b s
  | .vshl g d a b => Sys2Proof.Machine.execVshl g d a b s
  | .vshr g d a b => Sys2Proof.Machine.execVshr g d a b s
  | .vcvt g d a m => Sys2Proof.Machine.execVcvt g d a m s
  | .vqnt g d a m => Sys2Proof.Machine.execVqnt g d a m s
  | .vdqnt g d a => Sys2Proof.Machine.execVdqnt g d a s
  | .vcbk g d a => Sys2Proof.Machine.execVcbk g d a s
  | .vsum g d a => Sys2Proof.Machine.execVsum g d a s
  | .vmaxr g d a => Sys2Proof.Machine.execVmaxr g d a s
  | .vminr g d a => Sys2Proof.Machine.execVminr g d a s
  | .vscan g d a => Sys2Proof.Machine.execVscan g d a s
  | .vperm g d a b => Sys2Proof.Machine.execVperm g d a b s
  | .vbcast g d a => Sys2Proof.Machine.execVbcast g d a s
  | .viota g d a => Sys2Proof.Machine.execViota g d a s
  | .vpopc g d a => Sys2Proof.Machine.execVpopc g d a s
  | .vcmpr g d a b => Sys2Proof.Machine.execVcmpr g d a b s
  | .vexpd g d a b => Sys2Proof.Machine.execVexpd g d a b s
  | .vmov g d a => Sys2Proof.Machine.execVmov g d a s
  | .vrng g d a b => Sys2Proof.Machine.execVrng g d a b s
  | .mld g m h => Sys2Proof.Machine.execMld g m h s
  | .mst g m h => Sys2Proof.Machine.execMst g m h s
  | .mzr g d => Sys2Proof.Machine.execMzr g d s
  | .mcpy g d a => Sys2Proof.Machine.execMcpy g d a s
  | .mmul g d a b => Sys2Proof.Machine.execMmul g d a b s
  | .madd g d a b => Sys2Proof.Machine.execMadd g d a b s
  | .mscl g m rs => Sys2Proof.Machine.execMscl g m rs s
  | .mrcmp g d a => Sys2Proof.Machine.execMrcmp g d a s
  | .mdns g d a => Sys2Proof.Machine.execMdns g d a s
  | .mfac g d a c => Sys2Proof.Machine.execMfac g d a c s
  | .mtrn g d a => Sys2Proof.Machine.execMtrn g d a s
  | .mrnk g m rs => Sys2Proof.Machine.execMrnk g m rs s
  | .mocc g m rs => Sys2Proof.Machine.execMocc g m rs s
  | .mapl g d a m => Sys2Proof.Machine.execMapl g d a m s
  | .cpy g c d rs => Sys2Proof.Machine.execCpy g c d rs s
  | .cpt g c d rs => Sys2Proof.Machine.execCpt g c d rs s
  | .cpq g c d rs m => Sys2Proof.Machine.execCpq g c d rs m s
  | .cpqs g c d rs m => Sys2Proof.Machine.execCpqs g c d rs m s
  | .cpz g c d rs => Sys2Proof.Machine.execCpz g c d rs s
  | .cpx g c d rs => Sys2Proof.Machine.execCpx g c d rs s
  | .cpk g c d rs => Sys2Proof.Machine.execCpk g c d rs s
  | .cpbs g c z rs => Sys2Proof.Machine.execCpbs g c z rs s
  | .cpw g c => Sys2Proof.Machine.execCpw g c s
  | .cpab g c => Sys2Proof.Machine.execCpab g c s
  | .cpf g c d => Sys2Proof.Machine.execCpf g c d s
  | .cpr g c d rs => Sys2Proof.Machine.execCpr g c d rs s
  | .gth g d a b => Sys2Proof.Machine.execGth g d a b s
  | .sct g d a b => Sys2Proof.Machine.execSct g d a b s
  | .scta g d a b => Sys2Proof.Machine.execScta g d a b s
  | .flt g d a b => Sys2Proof.Machine.execFlt g d a b s
  | .bmk g d a b => Sys2Proof.Machine.execBmk g d a b s
  | .cnt g d a => Sys2Proof.Machine.execCnt g d a s
  | .dfr g a b => Sys2Proof.Machine.execDfr g a b s
  | .dfd g d a => Sys2Proof.Machine.execDfd g d a s
  | .phase g l => Sys2Proof.Machine.execPhase g l s
  | .bara g b => Sys2Proof.Machine.execBara g b s
  | .barw g b => Sys2Proof.Machine.execBarw g b s
  | .bar g b => Sys2Proof.Machine.execBar g b s
  | .pub g h => Sys2Proof.Machine.execPub g h s
  | .fence g l => Sys2Proof.Machine.execFence g l s
  | .xbeg g => Sys2Proof.Machine.execXbeg g s
  | .xend g => Sys2Proof.Machine.execXend g s
  | .xabt g => Sys2Proof.Machine.execXabt g s
  | .collAr g im => Sys2Proof.Machine.execCollAr g im s
  | .collRs g im => Sys2Proof.Machine.execCollRs g im s
  | .collAg g im => Sys2Proof.Machine.execCollAg g im s
  | .collA2a g im => Sys2Proof.Machine.execCollA2a g im s
  | .collBc g im => Sys2Proof.Machine.execCollBc g im s
  | .cwt g im => Sys2Proof.Machine.execCwt g im s
  | .plan g p => Sys2Proof.Machine.execPlan g p s
  | .pexec g p => Sys2Proof.Machine.execPexec g p s
  | .pwait g p => Sys2Proof.Machine.execPwait g p s
  | .hint g p => Sys2Proof.Machine.execHint g p s
  | .pin g p => Sys2Proof.Machine.execPin g p s
  | .unpin g p => Sys2Proof.Machine.execUnpin g p s
  | .statr g d im => Sys2Proof.Machine.execStatr g d im s
  | .statw g im => Sys2Proof.Machine.execStatw g im s
  | .evs g e => Sys2Proof.Machine.execEvs g e s
  | .evw g e => Sys2Proof.Machine.execEvw g e s
  | .yld g => Sys2Proof.Machine.execYld g s
  | .resultLanding => Sys2Proof.Machine.execResultLanding s
  | .variableLatencyResult => Sys2Proof.Machine.execVariableLatencyResult s
  | .slipRelease lane => Sys2Proof.Machine.execSlipRelease lane s
  | .slipWaitTimeout lane => Sys2Proof.Machine.execSlipWaitTimeout lane s
  | .loopEndOfTrip => Sys2Proof.Machine.execLoopEndOfTrip s
  | .fetchFault => Sys2Proof.Machine.execFetchFault s
  | .trapEntry => Sys2Proof.Machine.execTrapEntry s
  | .emulationSequence => Sys2Proof.Machine.execEmulationSequence s
  | .emulationOverrun => Sys2Proof.Machine.execEmulationOverrun s
  | .safePointDistanceExceeded => Sys2Proof.Machine.execSafePointDistanceExceeded s
  | .speculationResolve => Sys2Proof.Machine.execSpeculationResolve s
  | .transactionAbort reason => Sys2Proof.Machine.execTransactionAbort reason s
  | .mxCommandExecute env => Sys2Proof.Machine.execMxCommandExecute env s
  | .cpCommandExecute chan env => Sys2Proof.Machine.execCpCommandExecute chan env s
  | .spCommandExecute env => Sys2Proof.Machine.execSpCommandExecute env s
  | .syCommandExecute => Sys2Proof.Machine.execSyCommandExecute s
  | .queueFullEmptyTimeout k chan => Sys2Proof.Machine.execQueueFullEmptyTimeout k chan s
  | .executionFault => Sys2Proof.Machine.execExecutionFault s
  | .streamElementDelivery z => Sys2Proof.Machine.execStreamElementDelivery z s
  | .phaseBoundaryComplete env => Sys2Proof.Machine.execPhaseBoundaryComplete env s
  | .barrierGenerationComplete b => Sys2Proof.Machine.execBarrierGenerationComplete b s
  | .collectiveOwnershipMove id chunk issued => Sys2Proof.Machine.execCollectiveOwnershipMove id chunk issued s
  | .collectiveComplete id contribs residue => Sys2Proof.Machine.execCollectiveComplete id contribs residue s
  | .memberTimeout id member => Sys2Proof.Machine.execMemberTimeout id member s
  | .pexecAccept n => Sys2Proof.Machine.execPexecAccept n s
  | .planBreak n => Sys2Proof.Machine.execPlanBreak n s
  | .planBlockCommit n => Sys2Proof.Machine.execPlanBlockCommit n s
  | .bindingPlaneUpdate diff checksum => Sys2Proof.Machine.execBindingPlaneUpdate diff checksum s
  | .pageTableWalk va => Sys2Proof.Machine.execPageTableWalk va s
  | .doorbell ctx die v => Sys2Proof.Machine.execDoorbell ctx die v s
  | .frontEndRingRead die q => Sys2Proof.Machine.execFrontEndRingRead die q s
  | .letterboxRead die => Sys2Proof.Machine.execLetterboxRead die s
  | .letterboxRetire die q => Sys2Proof.Machine.execLetterboxRetire die q s
  | .overflowMaskReadClear die => Sys2Proof.Machine.execOverflowMaskReadClear die s
  | .launchPortWrite die q pkt => Sys2Proof.Machine.execLaunchPortWrite die q pkt s
  | .launchPortRefusalWrite die q seq reason => Sys2Proof.Machine.execLaunchPortRefusalWrite die q seq reason s
  | .packetStart die q seq => Sys2Proof.Machine.execPacketStart die q seq s
  | .operatingPointReached die fc => Sys2Proof.Machine.execOperatingPointReached die fc s
  | .clusterSramZeroing cluster tenant => Sys2Proof.Machine.execClusterSramZeroing cluster tenant s
  | .taskRetire die q seq t => Sys2Proof.Machine.execTaskRetire die q seq t s
  | .launchComplete die q seq env => Sys2Proof.Machine.execLaunchComplete die q seq env s
  | .schedulerFaultDelivery die q seq t cause => Sys2Proof.Machine.execSchedulerFaultDelivery die q seq t cause s
  | .timeSliceExpiry die q seq => Sys2Proof.Machine.execTimeSliceExpiry die q seq s
  | .classFloorOwed die prio => Sys2Proof.Machine.execClassFloorOwed die prio s
  | .preemptionRequest die q seq => Sys2Proof.Machine.execPreemptionRequest die q seq s
  | .contextSave error => Sys2Proof.Machine.execContextSave error s
  | .contextRestore die q seq => Sys2Proof.Machine.execContextRestore die q seq s
  | .schedulerWatchdogExpiry die => Sys2Proof.Machine.execSchedulerWatchdogExpiry die s
  | .pluginCallTimeout die tenant => Sys2Proof.Machine.execPluginCallTimeout die tenant s
  | .shootdown ctx lo hi => Sys2Proof.Machine.execShootdown ctx lo hi s
  | .createContext m rec ranges saves => Sys2Proof.Machine.execCreateContext m rec ranges saves s
  | .destroyContext m ctx => Sys2Proof.Machine.execDestroyContext m ctx s
  | .writeRangeEntry m ctx im e => Sys2Proof.Machine.execWriteRangeEntry m ctx im e s
  | .writeQueueEntry m q e => Sys2Proof.Machine.execWriteQueueEntry m q e s
  | .enableQueue m q => Sys2Proof.Machine.execEnableQueue m q s
  | .disableQueue m q => Sys2Proof.Machine.execDisableQueue m q s
  | .admitImage m ctx va base pa => Sys2Proof.Machine.execAdmitImage m ctx va base pa s
  | .writeFmask m ctx v => Sys2Proof.Machine.execWriteFmask m ctx v s
  | .readClearMaskedCounter m ctx => Sys2Proof.Machine.execReadClearMaskedCounter m ctx s
  | .openHostWindow m tenant pa size hdm => Sys2Proof.Machine.execOpenHostWindow m tenant pa size hdm s
  | .closeHostWindow m w => Sys2Proof.Machine.execCloseHostWindow m w s
  | .writeHostRange m ctx im r => Sys2Proof.Machine.execWriteHostRange m ctx im r s
  | .bindContextJob m ctx job => Sys2Proof.Machine.execBindContextJob m ctx job s
  | .writeCollectiveGroup m ctx id entry => Sys2Proof.Machine.execWriteCollectiveGroup m ctx id entry s
  | .requestPostmark m ctx nonce first => Sys2Proof.Machine.execRequestPostmark m ctx nonce first s
  | .debugHalt m ctx g => Sys2Proof.Machine.execDebugHalt m ctx g s
  | .debugResume m ctx g => Sys2Proof.Machine.execDebugResume m ctx g s
  | .debugStep m ctx g => Sys2Proof.Machine.execDebugStep m ctx g s
  | .debugReadRegister m ctx g r => Sys2Proof.Machine.execDebugReadRegister m ctx g r s
  | .debugWriteRegister m ctx g r v => Sys2Proof.Machine.execDebugWriteRegister m ctx g r v s
  | .debugEnableBreakpoints m ctx g => Sys2Proof.Machine.execDebugEnableBreakpoints m ctx g s
  | .debugDisableBreakpoints m ctx g => Sys2Proof.Machine.execDebugDisableBreakpoints m ctx g s
  | .debugRevoke m ctx g => Sys2Proof.Machine.execDebugRevoke m ctx g s
  | .setPowerLimit m w => Sys2Proof.Machine.execSetPowerLimit m w s
  | .setPowerState m st => Sys2Proof.Machine.execSetPowerState m st s
  | .readHealthLog m im => Sys2Proof.Machine.execReadHealthLog m im s
  | .fwOpen m target => Sys2Proof.Machine.execFwOpen m target s
  | .fwWrite m off data => Sys2Proof.Machine.execFwWrite m off data s
  | .fwCheck m => Sys2Proof.Machine.execFwCheck m s
  | .fwFlip m => Sys2Proof.Machine.execFwFlip m s
  | .stagePatch m addr len => Sys2Proof.Machine.execStagePatch m addr len s
  | .livePatch m addr len => Sys2Proof.Machine.execLivePatch m addr len s
  | .fwState m => Sys2Proof.Machine.execFwState m s
  | .fwReset m => Sys2Proof.Machine.execFwReset m s
  | .clearLive m => Sys2Proof.Machine.execClearLive m s
  | .boot failed reports => Sys2Proof.Machine.execBoot failed reports s
  | .powerLoss => Sys2Proof.Machine.execPowerLoss s
  | .ideEstablish => Sys2Proof.Machine.execIdeEstablish s
  | .hostWindowRead w off len => Sys2Proof.Machine.execHostWindowRead w off len s
  | .hostWindowWrite w off data => Sys2Proof.Machine.execHostWindowWrite w off data s
  | .flitReceive plane crcOk payload => Sys2Proof.Machine.execFlitReceive plane crcOk payload s
  | .transportDataReceive h payload tagOk => Sys2Proof.Machine.execTransportDataReceive h payload tagOk s
  | .transportAckReceive h tagOk => Sys2Proof.Machine.execTransportAckReceive h tagOk s
  | .transportNackReceive h tagOk => Sys2Proof.Machine.execTransportNackReceive h tagOk s
  | .transportKeepaliveReceive h tagOk => Sys2Proof.Machine.execTransportKeepaliveReceive h tagOk s
  | .retransmitTimeout conn => Sys2Proof.Machine.execRetransmitTimeout conn s
  | .hostLinkLost => Sys2Proof.Machine.execHostLinkLost s
  | .ideIntegrityFailure => Sys2Proof.Machine.execIdeIntegrityFailure s
  | .scaleUpPlaneLost plane => Sys2Proof.Machine.execScaleUpPlaneLost plane s
  | .scaleOutPortLost port => Sys2Proof.Machine.execScaleOutPortLost port s
  | .overtemperature celsius => Sys2Proof.Machine.execOvertemperature celsius s
  | .deviceMemoryStackFailure die => Sys2Proof.Machine.execDeviceMemoryStackFailure die s
  | .scrub addr correctable => Sys2Proof.Machine.execScrub addr correctable s
  | .coreLost core => Sys2Proof.Machine.execCoreLost core s
  | .healthLogPeriodic => Sys2Proof.Machine.execHealthLogPeriodic s
  | .unknownOpcode m op => Sys2Proof.Machine.execUnknownOpcode m op s
  | .switchPlaneUp plane => Sys2Proof.Machine.execSwitchPlaneUp plane s
  | .apertureRegisterWrite ctx im v => Sys2Proof.Machine.execApertureRegisterWrite ctx im v s

end Sys2Proof.Machine
end

