-- ==== Sys2Proof/Machine/MailArea.lean ====
section
/-! DEFINITION. Mailbox commands that the host starts through BAR0: the command that MBCMD and the payload stand for (R323, R324, Tables 15-1, 16-1, 16-2, 17-3, 23-11), and its service. -/

namespace Sys2Proof.Machine

/-- Put a mailbox back. -/
def setMail (die : BitVec 2) (m : Mailbox) (s : State) : State :=
  { s with mon := { s.mon with mail := s.mon.mail.set die.toNat m die.isLt } }

/-- A range entry of 32 bytes (Table 16-2). -/
def rangeEntryOf (bs : List Byte) : RangeEntry :=
  let p := leAt bs 24 1
  { base := leAt bs 0 8, limit := leAt bs 8 8, offset := BitVec.ofNat 64 (leAt bs 16 8)
    valid := pteBit p 0, tr := pteBit p 1, tw := pteBit p 2, tx := pteBit p 3, dev := pteBit p 4, lock := pteBit p 5
    key := leAt bs 25 1 % 64, res0 := decide (64 ≤ p) || decide (64 ≤ leAt bs 25 1) || !zeroAt bs 26 6 }

/-- A context record of 256 bytes (Table 16-1). -/
def ctxRecordOf (bs : List Byte) : CtxRecord :=
  { ctx := leAt bs 0 2 % 4096, tenant := leAt bs 2 2, ptroot := leAt bs 8 8, dtbase := leAt bs 16 8, stbase := leAt bs 24 8
    cbbase := leAt bs 32 8, prbase := leAt bs 40 8, cgbase := leAt bs 48 8, fmask := BitVec.ofNat 64 (leAt bs 56 8)
    keys := BitVec.ofNat 64 (leAt bs 64 8), tpk := (bs.drop 72).take 48
    res0 := decide (4096 ≤ leAt bs 0 2) || !zeroAt bs 4 4 || !zeroAt bs 120 136 }

/-- A queue entry of 64 bytes (Table 15-1). -/
def queueEntryOf (bs : List Byte) : QueueEntry :=
  let f := leAt bs 40 1
  { ring := leAt bs 0 8, donea := leAt bs 8 8, erra := leAt bs 16 8, pool := leAt bs 24 8, ctx := leAt bs 32 2 % 4096
    prio := leAt bs 34 1 % 8, weight := leAt bs 35 1, slice := leAt bs 36 4, clamp := pteBit f 1, en := pteBit f 0
    res0 := decide (4096 ≤ leAt bs 32 2) || decide (8 ≤ leAt bs 34 1) || decide (4 ≤ f) || !zeroAt bs 41 23 }

/-- A register by kind and index (log 106). -/
def debugRegOf (kind i : Nat) : Option DebugReg :=
  match kind with
  | 0 => if i < 64 then some (.s (BitVec.ofNat 6 i)) else none
  | 1 => if i < 16 then some (.p (BitVec.ofNat 4 i)) else none
  | 2 => if i < 32 then some (.h (BitVec.ofNat 5 i)) else none
  | 3 => if i < 32 then some (.stg (BitVec.ofNat 2 (i / 8)) (BitVec.ofNat 3 i)) else none
  | 4 => if i < 1024 then some (.sp (BitVec.ofNat 10 i)) else none
  | 5 => some .tag
  | _ => none

/-- A number of a width, where the word holds no more. -/
def fits (n v : Nat) : Option (BitVec n) := if v < 2 ^ n then some (BitVec.ofNat n v) else none

/-- Physical memory behind everything that is in use, for the monitor to take (log 106). -/
def freePage (s : State) : Nat :=
  let used := allTables s ++ (s.mon.ctxs.flatMap fun c => ctxSpans s c.2) ++ staleSpans s ++ s.mon.windows.map fun w => (w.2.pa, w.2.size)
  used.foldl (fun n p => max n ((p.1 + p.2 + 4095) / 4096 * 4096)) 0

/-- A debug request (R327, log 106): operation, context, register, value, and a grant where its word says that one comes. -/
def debugCommand (mb : Mb) (w : Nat → Nat) (bytes : Nat → Nat → List Byte) : Option (State → Out) := do
  let ctx ← fits 12 (w 1)
  let g : Option DebugGrant := if w 8 = 1 then some ⟨ctx.toNat, BitVec.ofNat 64 (w 9), w 10, bytes 88 16224⟩ else none
  match w 0 with
  | 0 => some (execDebugHalt mb ctx g)
  | 1 => some (execDebugResume mb ctx g)
  | 2 => some (execDebugStep mb ctx g)
  | 3 => (debugRegOf (w 2) (w 3)).map fun r => execDebugReadRegister mb ctx g r
  | 4 => (debugRegOf (w 2) (w 3)).map fun r => execDebugWriteRegister mb ctx g r (BitVec.ofNat 256 (leNat (bytes 32 32)))
  | 5 => some (execDebugEnableBreakpoints mb ctx g)
  | 6 => some (execDebugDisableBreakpoints mb ctx g)
  | 7 => some (execDebugRevoke mb ctx g)
  | _ => none

/-- The command of Table 17-3 or 23-11 that an opcode and a payload stand for; none is a malformed payload. The firmware
commands' payloads are those of Table 23-11 and R367, the health log's that of R386; the others' fields stand as 8-byte words in
the order of the command's arguments, and records in the layout of their tables (log 106). -/
def mailCommand (mb : Mb) (op : Nat) (area : List Host.Cell) : Option (State → Out) :=
  let bytes (off n : Nat) : List Byte := memBytes area off n
  let w (i : Nat) : Nat := leNat (bytes (8 * i) 8)
  match op with
  | 0x01 =>
    some (execCreateContext mb (ctxRecordOf (bytes 0 256))
      ((List.range (min 65 (w 32))).map fun i => rangeEntryOf (bytes (272 + 32 * i) 32))
      ((List.range (min 257 (w 33))).map fun i => (w (34 + 4 * min 65 (w 32) + 2 * i), w (35 + 4 * min 65 (w 32) + 2 * i))))
  | 0x02 => (fits 12 (w 0)).map fun c => execDestroyContext mb c
  | 0x03 => do some (execWriteRangeEntry mb (← fits 12 (w 0)) (← fits 6 (w 1)) (rangeEntryOf (bytes 16 32)))
  | 0x10 => (fits 10 (w 0)).map fun q => execWriteQueueEntry mb q (queueEntryOf (bytes 8 64))
  | 0x11 => (fits 10 (w 0)).map fun q => execEnableQueue mb q
  | 0x12 => (fits 10 (w 0)).map fun q => execDisableQueue mb q
  | 0x20 => (fits 12 (w 0)).map fun c s => execAdmitImage mb c (BitVec.ofNat 64 (w 1)) (BitVec.ofNat 64 (w 2)) (freePage s) s
  | 0x30 => (fits 12 (w 0)).map fun c => execWriteFmask mb c (BitVec.ofNat 64 (w 1))
  | 0x31 => (fits 12 (w 0)).map fun c => execReadClearMaskedCounter mb c
  | 0x40 => some (execOpenHostWindow mb (w 0) (w 1) (w 2) (w 3))
  | 0x41 => (fits 6 (w 0)).map fun x => execCloseHostWindow mb x
  | 0x42 => do some (execWriteHostRange mb (← fits 12 (w 0)) (← fits 3 (w 1)) ⟨w 2, w 3, pteBit (w 4) 0, pteBit (w 4) 1⟩)
  | 0x50 => do some (execBindContextJob mb (← fits 12 (w 0)) (← fits 32 (w 1)))
  | 0x51 => do some (execWriteCollectiveGroup mb (← fits 12 (w 0)) (← fits 8 (w 1)) (bytes 16 64))
  | 0x60 => (fits 12 (w 0)).map fun c => execRequestPostmark mb c (bytes 8 32) (w 5)
  | 0x70 => debugCommand mb w bytes
  | 0x80 => some (execSetPowerLimit mb (w 0))
  | 0x81 => (fits 2 (w 0)).map fun x => execSetPowerState mb x
  | 0x90 => some (execReadHealthLog mb (BitVec.ofNat 64 (w 0)))
  | 0xA0 => some (execFwOpen mb (BitVec.ofNat 8 (w 0)))
  | 0xA1 =>
    let n := leNat (bytes 8 4)
    if 32768 < n then none else some (execFwWrite mb (w 0) (bytes 16 n))
  | 0xA2 => some (execFwCheck mb)
  | 0xA3 => some (execFwFlip mb)
  | 0xA4 => some (execStagePatch mb (w 0) (w 1))
  | 0xA5 => some (execLivePatch mb (w 0) (w 1))
  | 0xA6 => some (execFwState mb)
  | 0xA7 => some (execFwReset mb)
  | 0xA8 => some (execClearLive mb)
  | n => some (execUnknownOpcode mb (BitVec.ofNat 16 n))

/-- The host writes GO (R323): with GO set already nothing happens; a malformed payload completes at once with STATUS 3, or 2 in
recovery where the ROM does not serve the opcode (R367); any other command is in progress, with the payload as it stands, until it
is served. -/
def startMail (die : BitVec 2) (s : State) : State :=
  let m := s.mon.mail[die.toNat]'die.isLt
  let op := m.cmd.toNat % 2 ^ 16
  let mb : Mb := ⟨die, BitVec.ofNat 16 (m.cmd.toNat / 2 ^ 16)⟩
  if mailBusy die s then s
  else if (mailCommand mb op m.area).isNone then mailDone die mb.tag op (if s.mon.flash.recovery && !recoveryOp op then 2 else 3) 0 [] s
  else
    let t := setMail die { m with ctl := 1 } s
    { t with mon := { t.mon with due := t.mon.due ++ [⟨mb, op, m.area⟩] } }

/-- The monitor serves the first command in progress that can be served now, with GO lent to its meaning; one that has to wait
stays in progress (R323). -/
def serveMail (s : State) : Option State :=
  s.mon.due.findSome? fun d =>
    let t := setMail d.mb.die { s.mon.mail[d.mb.die.toNat]'d.mb.die.isLt with ctl := 0 } s
    match mailCommand d.mb d.op d.area with
    | none => none
    | some f =>
      match f { t with mon := { t.mon with due := t.mon.due.erase d } } with
      | .next u => some u
      | _ => none

end Sys2Proof.Machine
end

