-- ==== Sys2Proof/Machine/Schedule.lean ====
section
/-! DEFINITION. The order in which one step looks for what happens next: what the core owes at once, then a bundle, then the engines (log 4). -/

namespace Sys2Proof.Machine

/-- Is every level up to L of extent 1, so that the task is alone in its scope (R233)? -/
def alone (s : State) (l : Nat) : Bool := (s.c.info.extents.take (l + 1)).all (· == 1)

/-- A pre-emption request is taken at a safe point, at a bundle boundary (R93, R296). -/
def preemptNow (s : State) : Bool := s.c.preempt && s.c.bun.safe && atBoundary s && active s && rowStops s.c

/-- A request at a safe point that an unresolved speculation holds up: where the speculation waits for a phase that the task has not
issued, the wait could never end, and cause 0xB2 comes at once (R97). -/
def settlePreempt (s : State) : Out :=
  match preemptNow s && speculating s, specWait s with
  | true, .deferred c v =>
    let t := deferFault c 0 v s
    if t.c.info.running then notNow "PREEMPTION" else .next t
  | _, _ => notNow "PREEMPTION"

/-- Does a halt wait to take effect here: at a bundle boundary, or at the split point of a bundle (R35)? -/
def haltsHere (s : State) : Bool := s.c.haltAsked && active s && betweenBundles s

/-- A halt takes effect there once the speculation is resolved and every result has landed (R21, R35, R97); a
speculation that waits for a phase the task has not issued is a deadlock (R97). -/
def settleHalt (s : State) : Out :=
  if !haltsHere s || waitsInFlight s.c then notNow "DEBUG_HALT"
  else if speculating s then
    (match specWait s with
    | .deferred c v =>
      let t := deferFault c 0 v s
      if t.c.info.running then notNow "DEBUG_HALT" else .next t
    | _ => notNow "DEBUG_HALT")
  else .next (s.onC haltNow)

/-- What comes before the next bundle, in this order. -/
def coreEvents (s : State) : List (State → Out) :=
  [execResultLanding, execVariableLatencyResult, execSpeculationResolve, execLoopEndOfTrip, execEmulationOverrun,
    execEmulationSequence, execSafePointDistanceExceeded, execExecutionFault, execSlipRelease .sc, execSlipRelease .ar,
    execSlipRelease .ve]
    ++ (if s.c.info.running then [retireOwn] else [])
    ++ [settleMismatch, execTrapEntry, settleHalt] ++ (if preemptNow s then [settlePreempt, execContextSave false] else []) ++ [execFetchFault]

/-- May the core issue a bundle: not while a sequence runs, a loop step is owed, a trap waits for its entry, a halt takes
effect, or a request waits for its save? -/
def mayIssue (s : State) : Bool :=
  active s && s.c.emu.isNone && s.c.tripAt.isNone && s.c.trap.due.isNone && (s.c.mismatch.isNone || !atBoundary s) && !haltsHere s && !preemptNow s
    && !(!s.c.trap.pend.isEmpty && !s.c.trap.handler && atBoundary s) && (fetchFault? s).isNone

/-- The boundary that a task alone in its scope completes at once. -/
def soloBoundary (s : State) : List (State → Out) :=
  match s.c.phaseAt with
  | some l => if alone s l then [execPhaseBoundaryComplete ⟨[], []⟩] else []
  | none => []

/-- The barriers whose generations a task alone in its scope completes at once. -/
def soloBarriers (s : State) : List (State → Out) :=
  (s.c.bars.filter fun b => b.2.arrived && alone s b.2.level).map fun b => execBarrierGenerationComplete (BitVec.ofNat 6 b.1)

/-- Collectives of a group that has no other member. -/
def soloColls (s : State) : List (State → Out) :=
  (s.c.colls.filter fun c => c.n == 1).map fun c => execCollectiveComplete (BitVec.ofNat 8 c.id) [] false

/-- What plan executions wait for: their next break, or their commit. -/
def planEvents (s : State) : List (State → Out) :=
  match s.ctx? with
  | none => []
  | some c => (c.plans.filter fun p => p.2.run.isSome).flatMap fun p =>
      [execPlanBreak (BitVec.ofNat 10 p.1), execPlanBlockCommit (BitVec.ofNat 10 p.1)]

/-- What the engines can do, in this order; nothing unusual happens to a command that no input speaks of. -/
def engineEvents (s : State) : List (State → Out) :=
  let pe := match s.c.syq.head? with
    | some q => (match q.i with | .pexec _ n => [execPexecAccept n] | _ => [])
    | none => []
  [execSyCommandExecute] ++ pe ++ [execMxCommandExecute .quiet]
    ++ (List.range 16).map (fun c => execCpCommandExecute (BitVec.ofNat 4 c) .quiet)
    ++ [execSpCommandExecute .quiet] ++ (List.range 8).map (fun z => execStreamElementDelivery (BitVec.ofNat 3 z))
    ++ soloBoundary s ++ soloBarriers s ++ soloColls s ++ planEvents s

/-- The first of the list that comes about. -/
def firstEnabled (s : State) : List (State → Out) → Option State
  | [] => none
  | f :: fs => match f s with | .next t => some t | _ => firstEnabled s fs

/-- A task with a request pending stops at a bundle that stalls outside a pre-emptible loop (R296). -/
def stopsHere (s : State) : Bool := mayIssue s && savePoint s && !s.c.bun.safe

/-- A bundle that waits at issue outside the body of a pre-emptible loop is a point of R296: the count of R315 starts again. -/
def stallPoint (c : Core) : Core := if inPreLoop c then c else { c with sinceSafe := 0 }

/-- One step of the machine with no input at its door. Where nothing can move, the machine waits: time passes, and the state is
the same but for what the wait itself leaves. -/
def ownStep (s : State) : Out :=
  match firstEnabled s (coreEvents s) with
  | some t => .next t
  | none =>
    let (issued, t) := if mayIssue s then issueBundle s else (false, s)
    let t := if mayIssue s && !issued then t.onC stallPoint else t
    if issued then .next t
    else if stopsHere t then .next (t.onC fun c => { c with bun := { c.bun with safe := true } })
    else match firstEnabled t (engineEvents t) with
      | some u => .next u
      | none => .next t

/-- The event at the door, and the machine with it taken in. -/
def takeInput (s : State) : Option (Instr × State) :=
  match s.inputs with
  | i :: is => some (i, { s with inputs := is })
  | [] => none

/-- Has a task been stopped with commands still in its queues (R241, R372)? -/
def cutShort (c : Core) : Bool := !c.info.running && !(c.mxq.isEmpty && c.cpq.isEmpty && c.spq.isEmpty && c.syq.isEmpty)

/-- What a command that was executing when its task stopped may still have written. -/
def stopCells (q : Cmd) (s : State) : List Host.Cell :=
  let got (r : EngRes State) : List Host.Cell := match r with
    | .ok t => wroteCells s t
    | .error (.fail _ _ _ cells) => cells
    | .error (.residue cells) => cells
    | .error .wait => []
  match q.slot with
  | 4 => got (mxRun .quiet q s)
  | 5 => abortCells s q
  | 6 => got (spRun .quiet q s)
  | _ => match (collOf q.i).bind fun k => s.c.colls.find? fun c => c.id == k.2 with
    | some c => collCells c s
    | none => []

/-- The commands that may execute: the head of each queue and of each channel. -/
def headCmds (c : Core) : List Cmd :=
  c.mxq.take 1 ++ ((List.range 16).filterMap fun k => chanHead c (BitVec.ofNat 4 k)) ++ c.spq.take 1 ++ c.syq.take 1

/-- The commands of a stopped task go: each byte that one of them was writing is prior or new (R241; log 6). -/
def settleStopped (s : State) : State :=
  ((headCmds s.c).foldl (fun t q => applyFree (stopCells q t) t) s).onC fun c =>
    { c with mxq := [], cpq := [], spq := [], syq := [], counts := [], colls := [] }

/-- The context that a test's task runs in: one page that may be fetched and read, and nothing else. -/
def testContext (page : Nat) : Context :=
  { recd := ⟨0, 0, 0, 0, 0, 0, 0, 0, 0x0400000000000000, 0, [], false⟩
    ranges := [(0, ⟨page, page + 4096, 0, true, true, false, true, false, false, 0, false⟩)]
    saves := [], aps := Vector.replicate 8 0, events := [], masked := 0, images := [], pops := [], hranges := [], job := none
    grant := none, bkpts := false, plans := [] }

/-- The launch that a test's task stands for: eight levels of extent 1, all accumulator tiles. -/
def testInfo : TaskInfo :=
  { TaskInfo.none with
    running := true, nlev := 8, ranks := List.replicate 8 0, extents := List.replicate 8 1, mscopes := List.replicate 8 4
    part := 0x704 }

/-- s with an instruction as its next (log 9): its word in the bundle at pc, a fetchable page there, a running task, and
nothing that comes before the bundle. -/
def placeWord (s : State) (nbits w : Nat) : State :=
  let page := s.c.pc.toNat / 4096 * 4096
  let words : List (BitVec 32) := match tableSlotWord nbits w with
    | some (k, _) => Slot.all.map fun j =>
        if j = k then BitVec.ofNat 32 (if nbits ≤ 32 then w % 2 ^ nbits else w / 2 ^ (32 * k.idx)) else 0
    | none => Slot.all.map fun j => BitVec.ofNat 32 (w / 2 ^ (32 * j.idx))
  let bytes := words.flatMap fun x => natLe 4 x.toNat
  let t := { s with
    inputs := [], world := [], outer := [], poison := [], cleaned := [], keyed := []
    mem := memSetAll (cellsAt s.c.pc.toNat bytes) s.mem
    mon := { s.mon with ctxs := SMap.put s.mon.ctxs 0 (testContext page), tlb := [], due := [] } }
  t.onC fun c => { c with
    info := testInfo, bun := Bundle.idle, view := none, resume := none, tripAt := none, inflight := [], spec := none
    emu := none, failing := none, haltAsked := false, mismatch := none, lanes := [[], [], []], ended := false, halted := false, preempt := false, sinceSafe := 0
    trap := { c.trap with pend := [], due := none } }

end Sys2Proof.Machine
end

