-- ==== Sys2Proof/Machine/Outside.lean ====
section
/-! DEFINITION. What happens outside the modelled core beside the events of the opcode table: other tasks of the launch, other packages of the pod, the host's CXL.io requests, the control cores (R50, R178, R186, R218 to R222, R227, R289 to R293, R306, R321 to R323, R401; log 84). What cannot come about changes nothing. -/

namespace Sys2Proof.Machine

/-- Another task's publish (R220): what its new buffer holds is visible whole, and CUR is inverted. -/
def peerPublish (id : Nat) (cells : List Host.Cell) (s : State) : State :=
  let s := conflict (fun a => match a with | .pub i _ => i == id | _ => false) s
  match curHome s id with
  | .ok a => (s.write (sharedCells cells)).writeOuter [(a, homeByte s a ^^^ 0x20)]
  | .error _ => s

/-- Another task's statistics write (R191, R218). -/
def peerStat (id word : Nat) (v : Word) (s : State) : State :=
  let s := conflict (fun a => match a with | .statw i _ _ => i == id | _ => false) s
  s.writeOuter (statCells id (word % 8) v s)

/-- Another task's arrival begins a generation, unless one stands (R186). -/
def peerArrive (b level : Nat) (s : State) : State :=
  let x := barOf s.c b
  if x.begun || s.c.info.nlev ≤ level then s
  else s.onC fun c => { c with bars := SMap.put c.bars b { x with level := level, begun := true } }

/-- One more on an event counter of the task's context (R192). -/
def peerEvent (e : Nat) (s : State) : State :=
  match s.ctx? with
  | none => s
  | some c => { s with mon := { s.mon with
      ctxs := SMap.put s.mon.ctxs s.c.info.ctx { c with events := SMap.put c.events e ((SMap.get? c.events e).getD 0 + 1) } } }

/-- Another task's atomic on a word at its home (R218). -/
def peerAtomic (a : Nat) (v : Word) (s : State) : State :=
  if a % 8 ≠ 0 ∨ isPoolHome a then s
  else
    let s := conflict (fun x => match x with | .atomic b _ => b == a | _ => false) s
    s.writeOuter (cellsAt a (natLe 8 v.toNat))

/-- An immediate effect of another task of the launch (R218). -/
def peerAct (s : State) : PeerAct → State
  | .publish id cells => peerPublish id cells s
  | .statw id word v => peerStat id word v s
  | .arrive b level => peerArrive b level s
  | .event e => peerEvent (e % 256) s
  | .table cells => s.write (sharedCells cells)
  | .atomic a v => peerAtomic a v s

/-- Does a launch of another placing package span packages, on the job of the context, fit the cores that it names, and does the
context hold its image (R9, R401)? -/
def groupFits (s : State) (ctx : Nat) (r : LaunchRecord) (tasks : List (Nat × Nat)) : Bool :=
  (recLevel r (r.nlev - 1)).domain == 5 && ((SMap.get? s.mon.ctxs ctx).bind fun c => c.job).isSome && imageOk s ctx r && tasks.all (fun x => (freeCores s ctx).contains x.2)
    && decide ((tasks.map (·.2)).eraseDups.length = tasks.length)

/-- What another placing package asks of this one for its launch (R401). -/
def groupAct (die q seq : Nat) (a : GroupAct) (s : State) : State :=
  match launchAt s die q seq, a with
  | none, .bind ctx r tasks =>
    if groupFits s ctx r tasks then
      let l := { newLaunch die q ctx ⟨1, 0, false, seq, [], 0, 0, false⟩ with recd := r }
      bindLaunch l tasks { s with fe := { s.fe with launches := s.fe.launches ++ [l] } }
    else s
  | some l, .retire t =>
    if !l.saved && l.tasks.any (fun r => r.t == t && !r.retired && r.core != s.me) then
      onLaunch die q seq (markRow t fun r => { r with ended := true, retired := true }) s
    else s
  | some l, .preempt => if l.preempt || l.saved then s else requestLaunch die q seq s
  | some l, .save error =>
    if !l.preempt || l.saved || ownLaunch s die q seq then s
    else if error then saveLost l.ctx s else onLaunch die q seq allSaved s
  | some l, .restore tasks =>
    if l.saved && tasks.all (fun x => (freeCores s l.ctx).contains x.2) then (restoreLaunch l tasks s).getD s else s
  | some l, .done =>
    if l.tasks.all fun r => r.retired then
      let t := finalBoundary l ⟨[], []⟩ s
      { t with fe := { t.fe with launches := t.fe.launches.filter fun x => !isRow die q seq x } }
    else s
  | _, _ => s

/-- Does an address lie in one of the regions, each a base and a size? -/
def inRegions (rs : List (Nat × Nat)) (a : Nat) : Bool := rs.any fun x => decide (x.1 ≤ a) && decide (a < x.1 + x.2)

/-- Who owns a resource (Table 15-8): the monitor everything, the scheduler what its row lists and the memory that the monitor
leaves it, a plug-in its protection regions. -/
def fwOwns (s : State) : FwLevel → FwResource → Bool
  | .monitor, _ => true
  | .scheduler, r => match r with
    | .keys | .sortingFrame | .fmask | .memoryProtection | .saveRanges | .lastSeq => false
    | .memory a => s.fe.confine.all fun rs => inRegions rs a
    | _ => true
  | .policy t, r => match r with
    | .memory a => (SMap.get? s.fe.plugins t).any fun p => inRegions p.regions a
    | _ => false

/-- A cause of a control core goes to the next more privileged level (R290): a plug-in's to the scheduler, which disables it for
its tenant (R291); the scheduler's to the monitor, which starts the faulting level again (R292). -/
def controlFault (die : BitVec 2) (l : FwLevel) (cause : Nat) (s : State) : State :=
  match l with
  | .monitor => monitorCause cause s
  | .scheduler => restartScheduler die (monitorCause cause s)
  | .policy t => { s with fe := { s.fe with
      causes := s.fe.causes ++ [cause]
      plugins := match SMap.get? s.fe.plugins t with
        | some p => SMap.put s.fe.plugins t { p with off := true }
        | none => s.fe.plugins } }

/-- Does firmware of a level run: a plug-in only while it is loaded and not disabled? -/
def fwRuns (s : State) : FwLevel → Bool
  | .policy t => (SMap.get? s.fe.plugins t).any fun p => !p.off
  | _ => true

/-- The 8 bytes of a mailbox payload from an offset on. -/
def payloadWord (m : Mailbox) (off : Nat) : Word := BitVec.ofNat 64 (leNat (memBytes m.area off 8))

/-- Word i of a die's letterbox overflow mask, a bit for each queue. -/
def maskWord (s : State) (die i : Nat) : Word :=
  BitVec.ofNat 64 ((List.range 64).foldl (fun v b => if s.fe.overflow.contains (qKey die (64 * i + b)) then v + 2 ^ b else v) 0)

/-- A request to a die's part of BAR0 (Table 17-1): its answer, and the machine after it. The overflow mask stands at 0x2_0000,
the duplicate counter behind it (log 86). -/
def bar0 (die : BitVec 2) (r : Nat) (data : Option Word) (s : State) : Word × State :=
  let m := s.mon.mail[die.toNat]'die.isLt
  match data with
  | none =>
    (if r = 0 then m.cmd else if r = 8 then m.ctl else if r = 16 then m.sts
     else if 0x1000 ≤ r ∧ r < 0x10000 then payloadWord m (r - 0x1000)
     else if 0x20000 ≤ r ∧ r < 0x20080 then maskWord s die.toNat ((r - 0x20000) / 8)
     else if r = 0x20080 then BitVec.ofNat 64 (s.fe.dups[die.toNat]'die.isLt) else 0, s)
  | some v =>
    (0, if r = 0 then setMail die { m with cmd := v &&& 0xFFFFFFFF } s
        else if r = 8 then (if v.getLsbD 0 then startMail die s else s)
        else if 0x1000 ≤ r ∧ r < 0x10000 then setMail die { m with area := memSetAll (cellsAt (r - 0x1000) (natLe 8 v.toNat)) m.area } s
        else s)

/-- A request to a context's window of BAR2 (Table 17-1, R289): a doorbell, or an event counter. -/
def bar2 (ctx r : Nat) (data : Option Word) (s : State) : Word × State :=
  match data with
  | some v =>
    (0, if r < 32 then
      (match execDoorbell (BitVec.ofNat 12 ctx) (BitVec.ofNat 2 (r / 8)) v s with | .next t => t | _ => s)
      else s)
  | none =>
    (if 0x1000 ≤ r ∧ r < 0x1800 then
      ((SMap.get? s.mon.ctxs ctx).bind fun c => SMap.get? c.events ((r - 0x1000) / 8)).getD 0
     else 0, s)

/-- A CXL.io request of the host at an aligned word (R321, R322): before IDE only the mailbox is served, and any other completes
with unsupported-request status. -/
def hostRequest (inBar2 : Bool) (off : Nat) (data : Option Word) (s : State) : State :=
  if !s.links.linkUp || s.health.power == 3 || decide (off % 8 ≠ 0) then s
  else
    let far := if inBar2 then decide (0x2000 * 4096 ≤ off) else decide (0x4000000 ≤ off)
    if far || (!s.links.ide && (inBar2 || decide (0x10000 ≤ off % 0x1000000))) then { s with links := { s.links with io := none } }
    else
      let (v, t) := if inBar2 then bar2 (off / 0x2000) (off % 0x2000) data s
        else bar0 (BitVec.ofNat 2 (off / 0x1000000)) (off % 0x1000000) data s
      { t with links := { t.links with io := some v } }

/-- Core time that launches of a queue have used is added to v over the queue's WEIGHT (R293). -/
def addCoreTime (k n : Nat) (s : State) : State :=
  match queueAt s k with
  | none => s
  | some x =>
    let v := shareOf s k
    let w := max 1 x.e.weight
    let a := v.1 * w + n * v.2
    let g := Nat.gcd a (v.2 * w)
    { s with fe := { s.fe with shares := SMap.put s.fe.shares k (a / g, v.2 * w / g) } }

/-- One thing that happens outside. -/
def outsideStep (o : Outside) (s : State) : State :=
  match o with
  | .idle => s
  | .peer acts => if s.c.info.running then acts.foldl peerAct s else s
  | .group die q seq a => if 4 ≤ die && scaleUp s then groupAct die q seq a s else s
  | .report r => if !scaleUp s then s else { s with fe := { s.fe with group := r :: s.fe.group.filter fun x => !(x.job == r.job && x.pkg == r.pkg) } }
  | .hostIo inBar2 off data => hostRequest inBar2 off data s
  | .payload die off bs =>
    let m := s.mon.mail[die.toNat]'die.isLt
    if off + bs.length ≤ 0xF000 then setMail die { m with area := memSetAll (cellsAt off bs) m.area } s else s
  | .pte a v =>
    let t := s.writeOuter (cellsAt a (natLe 8 v.toNat))
    if a % 8 = 0 ∧ (allTables s).any (spansMeet (a, 8)) ∧ mapsOk s t then t else s
  | .remote ctx va bs =>
    if scaleUp s && ((SMap.get? s.mon.ctxs ctx).bind fun c => c.job).isSome then remoteWrite ctx va bs s else s
  | .coreTime die q n => addCoreTime (qKey die q) n s
  | .connect conn pod pkg job =>
    if s.links.ports = 0 ∨ 576 ≤ pkg ∨ 2 ^ 16 - 1 ≤ pod ∨ !(s.mon.ctxs.any fun c => c.2.job == some job) then s else connect conn pod pkg job s
  | .send conn n => if s.links.ports = 0 then s else sendPackets conn n s
  | .memRetry addr n =>
    if s.health.power = 3 ∨ 2 ^ 48 ≤ addr then s else linkRetries addr n s
  | .hour => if s.health.power = 3 then s else { s with health := { s.health with poh := min (2 ^ 64 - 1) (s.health.poh + 1) } }
  | .flashFails n => { s with mon := { s.mon with flash := { s.mon.flash with fails := some n } } }
  | .upset key => s.onC fun c => { c with arr := { c.arr with upset := key :: c.arr.upset } }
  | .upsetDrain slot => s.onC fun c => { c with upsets := c.upsets ++ [slot] }
  | .control die l r => if fwRuns s l && !fwOwns s l r then controlFault die l 0xC1 s else s
  | .controlWord die l slot w => if fwRuns s l && decide (2 ≤ slot) && decide (slot ≤ 7) && w != 0 then controlFault die l 0x10 s else s
  | .plugin tenant regions =>
    if regions.length ≤ 8 then { s with fe := { s.fe with plugins := SMap.put s.fe.plugins tenant ⟨regions, false⟩ } } else s
  | .confine rs => { s with fe := { s.fe with confine := rs } }
  | .saved x =>
    if Memory.wf x.snap && (launchAt s x.die x.q x.seq).any (fun l => l.saved && l.tasks.any fun r => r.t == x.t && r.saved)
        && !s.fe.saved.any (fun y => isRow y.die y.q y.seq (newLaunch x.die x.q 0 ⟨1, 0, false, x.seq, [], 0, 0, false⟩) && y.t == x.t) then
      { s with fe := { s.fe with saved := s.fe.saved ++ [x] } }
    else s

/-- The head of what the outside does; idle leaves the step to the machine, where it has one to take. -/
def worldStep (o : Outside) (s : State) : Out :=
  match o with
  | .idle => ownStep s
  | o => .next (outsideStep o s)

end Sys2Proof.Machine
end

