-- ==== Sys2Proof/Machine/Step.lean ====
section
/-! DEFINITION. One step of the machine: the event at its door, what the outside does, or what comes next of itself (log 4, log 84); and how a test places an instruction (log 9). -/

namespace Sys2Proof.Machine

/-- One step: what a stopped task leaves, else the first input that has arrived, else a mailbox command in progress, else what
the outside does, else the machine's own next event. Only a bundle issues slot words. -/
def step (s : State) : Host.Outcome State Fault Refusal :=
  if cutShort s.c then .next (settleStopped s)
  else match takeInput s with
  | some (i, t) => if i.slot.isSome then .fault .notAnEvent else exec i t
  | none => match serveMail s with
    | some t => .next t
    | none => match s.world with
      | o :: os => worldStep o { s with world := os }
      | [] => ownStep s

/-- s with the instruction of a table word in its slot of the bundle at pc, every other slot a nop, and with the task that a
launch would have started there (log 9). -/
def State.withFetchWord (s : State) (nbits w : Nat) : State := placeWord s nbits w

end Sys2Proof.Machine
end

