-- ==== Sys2Proof/Safety.lean ====
section
/-! DEFINITION. What counts as a safe state and a safe run, in the terms that claims use. -/

namespace Sys2Proof.Machine

/-- Memory, the writes that a snapshot does not hold yet, the tags of blocks, and the snapshots of saved tasks are in canonical
form: memory with no zero byte listed, the waiting writes by rising address, the tags by rising block. -/
def State.MemOk (s : State) : Prop :=
  Memory.wf s.mem = true ∧ SMap.risesFrom 0 s.outer = true ∧ keyedWf s.keyed = true
    ∧ (s.fe.saved.all fun x => Memory.wf x.snap) = true

/-- Every cell of a write reaches its block under the key that the block stands under (R318), so that no other byte of memory is
rewritten for it. -/
def sameKeys (s : State) (cells : List Host.Cell) : Prop := ∀ c ∈ cells, sameKey s.keyed c.1 = true

/-- n steps that each answer a next state lead from s to t. -/
def Runs : Nat → State → State → Prop
  | 0, s, t => s = t
  | n + 1, s, t => ∃ u, step s = .next u ∧ Runs n u t

/-- A run is safe where no step of it stops: the machine goes on, or waits with time passing. -/
def SafeStep (s : State) : Prop := ∃ t, step s = .next t

/-- Nothing keeps a slot word from its effect: no release is in progress, its guard has landed and holds (R16), no operand and
no destination waits for an earlier result (R20, R26) or, in a compare apart, for a ranked atomic (R95, R116), a word that speculation holds meets none
(R97), its lane is empty, nothing that waits in a lane keeps it at issue (R24, R26, R121, R134, R195), and no operation of another
lane touches what it touches. -/
def ready (k : Slot) (g : Guard) (i : Instr) (s : State) : Bool :=
  s.c.held.isNone && !mustWait s.c (guardName g) && guardHolds k g s
    && (srcs i).all (fun n => !mustWait s.c n && (isCompare i || (rankedOn s.c n).isNone))
    && (dstOf i).all (fun d => !writeWaits s.c d.1 && (rankedOn s.c d.1).isNone)
    && !(heldBySpec i && speculating s)
    && !(ownWaits i s || specAwaits i s.c || rotWaits i s.c || (usesTables i && tableStoreWaits s))
    && (match laneIdx k with | some n => (laneOf s n).isEmpty && !laneClash n i (capture i s) s | none => true)

/-- n is the number of zero bits above the highest set bit of a word, 64 for zero (Table 6-6). -/
def leadingZeros (a : Word) (n : Nat) : Prop :=
  n ≤ 64 ∧ (∀ i, i < n → a.getLsbD (63 - i) = false) ∧ (n < 64 → a.getLsbD (63 - n) = true)

/-- n is the number of zero bits below the lowest set bit of a word, 64 for zero (Table 6-6). -/
def trailingZeros (a : Word) (n : Nat) : Prop :=
  n ≤ 64 ∧ (∀ i, i < n → a.getLsbD i = false) ∧ (n < 64 → a.getLsbD n = true)

/-- The conditions of Table 5-4 on two words, in integers (R105). -/
def condTable (cc : Nat) (x y : Word) : Bool :=
  match cc with
  | 0 => decide (x = y)
  | 1 => decide (x ≠ y)
  | 2 => decide (x.toInt < y.toInt)
  | 3 => decide (y.toInt ≤ x.toInt)
  | 4 => decide (x.toNat < y.toNat)
  | 5 => decide (y.toNat ≤ x.toNat)
  | 6 => decide (y.toInt < x.toInt)
  | 7 => decide (x.toInt ≤ y.toInt)
  | 8 => decide (y.toNat < x.toNat)
  | _ => decide (x.toNat ≤ y.toNat)

/-- Does the bundle at pc stand last in an active body, where no branch may stand (R84)? -/
def standsLast (s : State) : Bool := !s.c.trap.handler && s.c.loops.any fun l => l.last == s.c.pc

/-- Nothing delays or diverts a precise fault: no sequence, no speculation, nothing in a lane or stream, no queued
command with a register result, no patch slot. -/
def trapReady (s : State) : Bool :=
  s.c.emu.isNone && s.c.spec.isNone && !lanesWait s.c && s.c.info.patch.slots.isEmpty
    && (s.c.mxq ++ s.c.spq ++ s.c.syq).all fun q => q.cell == 0

/-- A watermark after swrite of a word (R131, Table 7-4): HIT cleared where a 1 is written, HROW kept, the threshold written. -/
def wmAfter (old v : Word) : Word :=
  (if v.getLsbD 63 then 0 else old &&& 0x8000000000000000) ||| (old &&& 0x007F000000000000) ||| (v &&& 0xFF)

/-- A scalar access of size bytes at ea reaches its first byte at home address a: aligned, translated and permitted, not held by
a phase or fence, its tile full (R24, R106, R184, R185). -/
def reaches (s : State) (k : Acc) (ea : Word) (size a : Nat) : Prop :=
  ea.toNat % size = 0 ∧ translate s s.c.info.ctx k false ea.toNat = .ok a ∧ (isPoolHome a = true ∨ phaseHolds s = false)
    ∧ emptyAt s a = false

/-- What a scalar memory word does, where, and how many bytes wide (R106, R107, R112). -/
def memOf (i : Instr) (s : State) : Option (Acc × Word × Nat) :=
  match i with
  | .ldB _ _ a _ o => some (.read, s.rdS a + o.signExtend 64, 1)
  | .ldBz _ _ a _ o => some (.read, s.rdS a + o.signExtend 64, 1)
  | .ldH _ _ a _ o => some (.read, s.rdS a + 2 * o.signExtend 64, 2)
  | .ldHz _ _ a _ o => some (.read, s.rdS a + 2 * o.signExtend 64, 2)
  | .ldW _ _ a _ o => some (.read, s.rdS a + 4 * o.signExtend 64, 4)
  | .ldWz _ _ a _ o => some (.read, s.rdS a + 4 * o.signExtend 64, 4)
  | .ldD _ _ a _ o => some (.read, s.rdS a + 8 * o.signExtend 64, 8)
  | .ldh _ _ a _ o => some (.read, s.rdS a + 32 * o.signExtend 64, 32)
  | .stB _ _ a _ o => some (.write, s.rdS a + o.signExtend 64, 1)
  | .stH _ _ a _ o => some (.write, s.rdS a + 2 * o.signExtend 64, 2)
  | .stW _ _ a _ o => some (.write, s.rdS a + 4 * o.signExtend 64, 4)
  | .stD _ _ a _ o => some (.write, s.rdS a + 8 * o.signExtend 64, 8)
  | .sth _ _ a _ o => some (.write, s.rdS a + 32 * o.signExtend 64, 32)
  | .amoAdd _ _ a _ _ => some (.atomic, s.rdS a, 8)
  | .amoAnd _ _ a _ _ => some (.atomic, s.rdS a, 8)
  | .amoOr _ _ a _ _ => some (.atomic, s.rdS a, 8)
  | .amoXor _ _ a _ _ => some (.atomic, s.rdS a, 8)
  | .amoMax _ _ a _ _ => some (.atomic, s.rdS a, 8)
  | .amoMin _ _ a _ _ => some (.atomic, s.rdS a, 8)
  | .amoXchg _ _ a _ _ => some (.atomic, s.rdS a, 8)
  | .amoCas _ _ a _ _ => some (.atomic, s.rdS a, 8)
  | .amob _ _ a _ _ => some (.atomic, s.rdS a, 8)
  | .amoAddR _ _ a _ _ => some (.atomic, s.rdS a, 8)
  | .amoAndR _ _ a _ _ => some (.atomic, s.rdS a, 8)
  | .amoOrR _ _ a _ _ => some (.atomic, s.rdS a, 8)
  | .amoXorR _ _ a _ _ => some (.atomic, s.rdS a, 8)
  | .amoMaxR _ _ a _ _ => some (.atomic, s.rdS a, 8)
  | .amoMinR _ _ a _ _ => some (.atomic, s.rdS a, 8)
  | .amoXchgR _ _ a _ _ => some (.atomic, s.rdS a, 8)
  | .amoCasR _ _ a _ _ => some (.atomic, s.rdS a, 8)
  | .amobR _ _ a _ _ => some (.atomic, s.rdS a, 8)
  | _ => none

/-- The number whose low bytes a store writes: a scalar register, or a handle (R106, R107). -/
def storedNat (i : Instr) (s : State) : Nat :=
  match i with
  | .stB _ d _ _ _ => (s.rdS d).toNat
  | .stH _ d _ _ _ => (s.rdS d).toNat
  | .stW _ d _ _ _ => (s.rdS d).toNat
  | .stD _ d _ _ _ => (s.rdS d).toNat
  | .sth _ h _ _ _ => (s.rdH h).toNat
  | _ => 0

/-- Does a store go to memory at once: not held by a speculation, not joined to a transaction (R97, R188)? -/
def storesNow (s : State) (ea : Word) : Bool := s.c.spec.isNone && !(s.c.txn.act && inDescTable s ea)

/-- One element of a row operation's sum: the products of a column of the plane in runs of 32, from an element on (R125). -/
def columnSum (p : Plane) (anchor : Int) (xs : List (Num × Num)) (j : Nat) (e : FaElem) : FaElem :=
  let terms := (xs.zip (p.w.zip p.sc)).map fun x =>
    prod4 x.1.1 ((x.2.1[j]?).getD Num.zero) x.1.2 ((x.2.2[j]?).getD Num.one)
  (chunks 32 (terms.length / 32 + 1) terms).foldl (fun e run => faRun anchor run none e) e

/-- The activations that a row operation takes: the values of row o of x with the scale of each one's run (R44, R125). -/
def rowActivations (s : State) (x : Tens) (l o : Nat) : Res (List (Num × Num)) :=
  mapRead (fun i => do
    let code ← codeAt s x i
    let k ← scaleAt s x.d x.scale false (coords x i)
    .ok (valOfCode x code, k)) (pushIdxs x l o s)

/-- Destination and handle sources of a ve word. -/
def vecHandles : Instr → Option (BitVec 5 × List (BitVec 5))
  | .vadd _ d a b => some (d, [a, b])
  | .vsub _ d a b => some (d, [a, b])
  | .vmul _ d a b => some (d, [a, b])
  | .vfma _ d a b c => some (d, [a, b, c])
  | .vfms _ d a b c => some (d, [a, b, c])
  | .vmax _ d a b => some (d, [a, b])
  | .vmin _ d a b => some (d, [a, b])
  | .vabs _ d a => some (d, [a])
  | .vneg _ d a => some (d, [a])
  | .vclamp _ d a b c => some (d, [a, b, c])
  | .vexp _ d a => some (d, [a])
  | .vexp2 _ d a => some (d, [a])
  | .vlog2 _ d a => some (d, [a])
  | .vrcp _ d a => some (d, [a])
  | .vrsq _ d a => some (d, [a])
  | .vsqrt _ d a => some (d, [a])
  | .vtanh _ d a => some (d, [a])
  | .vsigm _ d a => some (d, [a])
  | .vcmp _ d a b _ => some (d, [a, b])
  | .vsel _ d a b c => some (d, [a, b, c])
  | .vand _ d a b => some (d, [a, b])
  | .vor _ d a b => some (d, [a, b])
  | .vxor _ d a b => some (d, [a, b])
  | .vshl _ d a b => some (d, [a, b])
  | .vshr _ d a b => some (d, [a, b])
  | .vcvt _ d a _ => some (d, [a])
  | .vqnt _ d a _ => some (d, [a])
  | .vdqnt _ d a => some (d, [a])
  | .vcbk _ d a => some (d, [a])
  | .vsum _ d a => some (d, [a])
  | .vmaxr _ d a => some (d, [a])
  | .vminr _ d a => some (d, [a])
  | .vscan _ d a => some (d, [a])
  | .vperm _ d a b => some (d, [a, b])
  | .vbcast _ d _ => some (d, [])
  | .viota _ d _ => some (d, [])
  | .vpopc _ d a => some (d, [a])
  | .vcmpr _ d a b => some (d, [a, b])
  | .vexpd _ d a b => some (d, [a, b])
  | .vmov _ d a => some (d, [a])
  | .vrng _ d _ _ => some (d, [])
  | _ => none

/-- The exact result of an arithmetic ve word on one element of each source, with the flag of a NaN it makes (Table 7-6, R57). -/
def elemExact (i : Instr) (v : List Num) : Option (Num × Flags) :=
  match i, v with
  | .vadd _ _ _ _, [x, y] => some (Num.add x y, nvOf (x.isNan || y.isNan) (Num.add x y))
  | .vsub _ _ _ _, [x, y] => some (Num.add x y.neg, nvOf (x.isNan || y.isNan) (Num.add x y.neg))
  | .vmul _ _ _ _, [x, y] => some (Num.mul x y, nvOf (x.isNan || y.isNan) (Num.mul x y))
  | .vfma _ _ _ _ _, [x, y, z] =>
    some (Num.add (Num.mul x y) z, nvOf (x.isNan || y.isNan || z.isNan) (Num.add (Num.mul x y) z))
  | .vfms _ _ _ _ _, [x, y, z] =>
    some (Num.add (Num.mul x y) z.neg, nvOf (x.isNan || y.isNan || z.isNan) (Num.add (Num.mul x y) z.neg))
  | .vmax _ _ _ _, [x, y] => some (Num.maxN x y, 0)
  | .vmin _ _ _ _, [x, y] => some (Num.minN x y, 0)
  | .vabs _ _ _, [x] => some (x.abs, 0)
  | .vneg _ _ _, [x] => some (x.neg, 0)
  | .vclamp _ _ _ _ _, [x, y, z] => some (Num.minN (Num.maxN x y) z, 0)
  | .vsel _ _ _ _ _, [x, y, z] => some (if x.isZero then z else y, 0)
  | _, _ => none

/-- The ve word writes these codes at these indexes of d, in memory, with their flags and those of its sources' values into
srec3, and does nothing else, where the bytes they make can be written whole (R44, R133, R134, R211). -/
def writesElems (i : Instr) (s : State) (d : Tens) (ts : List Tens) (idxs : List (List Nat)) (outs : List (Nat × Flags)) : Prop :=
  ∀ nv cells, sourceNv s ts = .ok nv → regionCells s d (idxs.zip (outs.map (·.1))) = .ok cells → partialPoison s cells = false →
    s.c.spec = none → exec i s = .next (raiseFlags .ve (outs.foldl (fun f o => f ||| o.2) nv) (s.write cells))

/-- The operands of a ve word pass the handle check with the scales that they use, and the shape check of R133 (R45, R135). -/
def vecReady (i : Instr) (s : State) (td : Tens) (ts : List Tens) : Prop :=
  ∃ d xs, vecHandles i = some (d, xs) ∧ ready .ve i.guard i s = true ∧ vecTens s d xs = .ok (td, ts)
    ∧ vecShape td ts = .ok () ∧ vecReach s td ts = .ok ()

/-- The state once command q has entered its queue at the tail (R163): its tiles count as empty (R200), and it is the latest
writer of its tensors (R187). -/
def queued (q : Cmd) (s : State) : State :=
  s.onC fun c => setQueue q.slot (queueOf q.slot c ++ [q])
    { c with
      cmdNo := c.cmdNo + 1, counts := countUp q.cnt c.counts
      writers := q.wids.foldl (fun m t => SMap.put m t (q.no, false)) c.writers }

/-- The queue of an engine has an entry free (R8, R163). -/
def hasEntry (k : Slot) (s : State) : Prop := (queueOf k.idx s.c).length < 16

/-- Command q completes: its bytes land, its flags enter the record of its slot, and it leaves its queue. -/
def landed (q : Cmd) (cells : List Host.Cell) (fl : Flags) (s : State) : State := popCmd q (engFlags q fl (s.write cells))

/-- A command of engine k at the head of its queue that nothing stops: no earlier failure awaits delivery, no speculation
holds stores back, and no earlier operation in a slip lane and no earlier command's write of the same pool bytes keeps it (Table
11-4). -/
def headOf (k : Slot) (q : Cmd) (s : State) : Prop :=
  q.slot = k.idx ∧ s.c.failing = none ∧ s.c.spec = none ∧ laneHolds s q = false ∧ writesBehind s q = false
    ∧ (if k = .cp then s.c.cpq.find? (fun x => x.chan == q.chan) = some q ∧ q.chan < 16 else (queueOf k.idx s.c).head? = some q)

/-- A mailbox of the die serves a new command: link, power and monitor are up, no recovery, and GO is not set (R323, R367). -/
def mailReady (m : Mb) (s : State) : Prop :=
  s.links.linkUp = true ∧ s.health.power ≠ 3 ∧ s.mon.flash.running = true ∧ s.mon.flash.recovery = false
    ∧ mailBusy m.die s = false

/-- The command's event answers: t with the mailbox of m at opcode op, a STATUS, a DETAIL and a response. -/
def answers (i : Instr) (s : State) (m : Mb) (op status detail : Nat) (resp : List Byte) (t : State) : Prop :=
  exec i s = .next (mailDone m.die m.tag op status detail resp t)

/-- The context with one change. -/
def withCtx (ctx : BitVec 12) (c : Context) (s : State) : State :=
  { s with mon := { s.mon with ctxs := SMap.put s.mon.ctxs ctx.toNat c } }

/-- Rows of a region through a function of each row (R140, R141). -/
def perIndex {α : Type} (rows : List (List Nat)) (f : List Nat → Except TransFault α) : Except TransFault (List α) := rows.mapM f

/-- The sc words that raise flags (R110, R111). -/
def flagWord : Instr → Bool
  | .faddS _ _ _ _ => true
  | .fmulS _ _ _ _ => true
  | .ffmaS _ _ _ _ => true
  | .cvt _ _ _ _ _ _ => true
  | _ => false

/-- The sc words that touch registers alone and raise no fault of their own. -/
def regOnly : Instr → Bool
  | .hmk _ _ _ => false
  | i => i.slot == some .sc && match dstOf i with
    | some (_, some _) => true
    | _ => false

end Sys2Proof.Machine
end

