-- ==== Sys2Proof/Certificates/Slice0/Obligations.lean ====
section
/-! DEFINITION. The statements of this slice: what the spec's rules say the instructions and the machine do. -/

open Sys2Proof Sys2Proof.Machine

/-- Words written out by the spec's chapters, one or more for each slot, and what they are; and three words that are none. -/
def Obligations.WordsOfTheSpecDecode : Prop :=
  decodeWord .br 0x00D02100 = .ok (.pnot ⟨0, 0⟩ 0 2 1)
  ∧ decodeWord .br 0x00516000 = .ok (.loopRot ⟨0, 0⟩ 5 0)
  ∧ decodeWord .br 0x01300000 = .ok (.dcpl ⟨0, 0⟩ 0)
  ∧ decodeWord .sc 0x03540C00 = .ok (.stg ⟨0, 0⟩ 1 0 6)
  ∧ decodeWord .sc 0x829C0100 = .ok (.ldW ⟨8, 0⟩ 48 1 0 0)
  ∧ decodeWord .sc 0x029102C2 = .ok (.ldW ⟨0, 0⟩ 4 2 3 2)
  ∧ decodeWord .ar 0x0080045B = .ok (.acfgImm ⟨0, 0⟩ 0 91)
  ∧ decodeWord .ar 0x0020000F = .ok (.ashf ⟨0, 0⟩ 15)
  ∧ decodeWord .ve 0x01B29000 = .ok (.vqnt ⟨0, 0⟩ 5 4 0)
  ∧ decodeWord .mx 0x00123000 = .ok (.mld ⟨0, 0⟩ 2 6)
  ∧ decodeWord .cp 0x281520C0 = .ok (.cpy ⟨2, 1⟩ 5 4 3)
  ∧ decodeWord .cp 0x00746340 = .ok (.cpk ⟨0, 0⟩ 4 12 13)
  ∧ decodeWord .sp 0x0060CA00 = .ok (.cnt ⟨0, 0⟩ 3 5)
  ∧ decodeWord .sy 0x0020C000 = .ok (.bara ⟨0, 0⟩ 3)
  ∧ decodeWord .sy 0x00A00700 = .ok (.collAr ⟨0, 0⟩ 7)
  ∧ decodeWord .sy 0x0120C0A0 = .ok (.statr ⟨0, 0⟩ 3 40)
  ∧ decodeWord .sy 0x01409000 = .ok (.evs ⟨0, 0⟩ 9)
  ∧ decodeWord .br 0x00600001 = .error .reserved
  ∧ decodeWord .mx 0x00F00000 = .error .undefined
  ∧ decodeWord .sc 0x08000000 = .error .undefined

/-- Decode and encode agree, over all 229 slot words: no bit of an encoding is dropped. -/
def Obligations.DecodeOfEncode : Prop :=
  ∀ (i : Instr) (k : Slot), i.slot = some k → i.wf = true → decodeWord k (encode i) = .ok i

/-- The other direction: every bit of an accepted word is an operand bit, an opcode bit or zero. -/
def Obligations.EncodeOfDecode : Prop :=
  ∀ (k : Slot) (w : BitVec 32) (i : Instr), decodeWord k w = .ok i → i.slot = some k ∧ i.wf = true ∧ encode i = w

/-- The input list and the world list are the model's own way to hand in what comes from outside the core (log 4, log 84). -/
def Obligations.StepTakesTheInput : Prop :=
  (∀ (s : State) (i : Instr) (l : List Instr), s.inputs = i :: l → cutShort s.c = false →
    (i.slot = none → step s = exec i { s with inputs := l }) ∧ (i.slot.isSome = true → step s = .fault .notAnEvent))
  ∧ (∀ (s : State), s.inputs = [] → ∃ t, step s = .next t)
  ∧ (∀ (s : State), s.inputs = [] → serveMail s = none → s.world = [] → cutShort s.c = false → firstEnabled s (coreEvents s) = none →
    mayIssue s = false → firstEnabled s (engineEvents s) = none → step s = .next s)
  ∧ (∀ (s t : State), cutShort s.c = false → s.inputs = [] → serveMail s = some t → step s = .next t)
  ∧ (∀ (s : State) (o : Outside) (l : List Outside), cutShort s.c = false → s.inputs = [] → serveMail s = none → s.world = o :: l →
    step s = worldStep o { s with world := l })
  ∧ ∀ (s : State), cutShort s.c = true →
    ∃ u, step s = .next u ∧ cutShort u.c = false ∧ u.inputs = s.inputs ∧ u.world = s.world ∧ u.fe = s.fe

/-- How exec of one word reaches a run: the bundle at pc is fetched, decoded, issued and completed in one step of the model
(log 4 and log 84 for what may come before it). -/
def Obligations.StepRunsTheBundle : Prop :=
  (∀ (i : Instr) (s : State), i.slot.isSome = true → runWord i s = exec i s)
  ∧ ∀ (s entry t : State) (k : Slot) (w : BitVec 32) (i : Instr),
    s.inputs = [] → serveMail s = none → s.world = [] → firstEnabled s (coreEvents s) = none → mayIssue s = true →
    laneFull s.c = false → s.c.bun.blind = none → s.c.view = none → s.c.resume = none → s.c.info.patch.slots = [] → s.c.trap.tstat.getLsbD 31 = false →
    bundleWords s = Slot.all.map (fun j => (j, if j = k then w else 0)) →
    decodeWord k w = .ok i → masked (fmaskOf s) k w = false → hiddenCode s i = false → launchLimits s i = true →
    mustWait s.c (guardName i.guard) = false → guardHolds k i.guard s = true →
    entry = s.onC (fun c => { c with bun := freshBundle c, trap := freshTrap c }) →
    exec i entry = .next t →
    t.c.bun.stall = false → t.c.bun.stopped = false → t.c.emu = none → t.c.halted = s.c.halted →
    step s = .next (completeBundle (stallCount (.br, if k = .br then w else 0) entry) t)

/-- R102, Table 6-6 in exact integers: what each register-register integer instruction leaves. -/
def Obligations.IntegerResults : Prop :=
  (∀ (g : Guard) (d a b : BitVec 6),
    [encode (.add g d a b), encode (.sub g d a b), encode (.mul g d a b), encode (.mulh g d a b), encode (.mulhz g d a b), encode (.div g d a b), encode (.divz g d a b), encode (.rem g d a b), encode (.remz g d a b), encode (.and g d a b), encode (.or g d a b), encode (.xor g d a b), encode (.andn g d a b), encode (.shl g d a b), encode (.shr g d a b), encode (.sar g d a b), encode (.rol g d a b), encode (.min g d a b), encode (.max g d a b), encode (.minz g d a b), encode (.maxz g d a b)] =
      (List.range 21).map (fun n => word g (n + 1) (at_ d 14 + at_ a 8 + at_ b 2))
    ∧ [encode (.clz g d a), encode (.ctz g d a), encode (.popc g d a)] =
      [word g 22 (at_ d 14 + at_ a 8), word g 23 (at_ d 14 + at_ a 8), word g 24 (at_ d 14 + at_ a 8)])
  ∧ (∀ (g : Guard) (d a b : BitVec 6) (s : State) (x y : Word), x = s.rdS a → y = s.rdS b →
    (ready .sc g (.add g d a b) s = true → exec (.add g d a b) s = .next (writeS .sc d (BitVec.ofInt 64 (x.toInt + y.toInt)) 1 s))
    ∧ (ready .sc g (.sub g d a b) s = true → exec (.sub g d a b) s = .next (writeS .sc d (BitVec.ofInt 64 (x.toInt - y.toInt)) 1 s))
    ∧ (ready .sc g (.mul g d a b) s = true → exec (.mul g d a b) s = .next (writeS .sc d (BitVec.ofInt 64 (x.toInt * y.toInt)) 3 s))
    ∧ (ready .sc g (.mulh g d a b) s = true → exec (.mulh g d a b) s = .next (writeS .sc d (BitVec.ofInt 64 (x.toInt * y.toInt / 2 ^ 64)) 3 s))
    ∧ (ready .sc g (.mulhz g d a b) s = true → exec (.mulhz g d a b) s = .next (writeS .sc d (BitVec.ofNat 64 (x.toNat * y.toNat / 2 ^ 64)) 3 s))
    ∧ (ready .sc g (.div g d a b) s = true → exec (.div g d a b) s = .next (writeS .sc d (BitVec.ofInt 64 (if y = 0 then -1 else x.toInt.tdiv y.toInt)) 12 s))
    ∧ (ready .sc g (.divz g d a b) s = true → exec (.divz g d a b) s = .next (writeS .sc d (BitVec.ofNat 64 (if y = 0 then 2 ^ 64 - 1 else x.toNat / y.toNat)) 12 s))
    ∧ (ready .sc g (.rem g d a b) s = true → exec (.rem g d a b) s = .next (writeS .sc d (BitVec.ofInt 64 (if y = 0 then x.toInt else x.toInt - x.toInt.tdiv y.toInt * y.toInt)) 12 s))
    ∧ (ready .sc g (.remz g d a b) s = true → exec (.remz g d a b) s = .next (writeS .sc d (BitVec.ofNat 64 (if y = 0 then x.toNat else x.toNat - x.toNat / y.toNat * y.toNat)) 12 s))
    ∧ (ready .sc g (.and g d a b) s = true → exec (.and g d a b) s = .next (writeS .sc d (x &&& y) 1 s))
    ∧ (ready .sc g (.or g d a b) s = true → exec (.or g d a b) s = .next (writeS .sc d (x ||| y) 1 s))
    ∧ (ready .sc g (.xor g d a b) s = true → exec (.xor g d a b) s = .next (writeS .sc d (x ^^^ y) 1 s))
    ∧ (ready .sc g (.andn g d a b) s = true → exec (.andn g d a b) s = .next (writeS .sc d (x &&& ~~~y) 1 s))
    ∧ (ready .sc g (.shl g d a b) s = true → exec (.shl g d a b) s = .next (writeS .sc d (BitVec.ofNat 64 (x.toNat * 2 ^ (y.toNat % 64))) 1 s))
    ∧ (ready .sc g (.shr g d a b) s = true → exec (.shr g d a b) s = .next (writeS .sc d (BitVec.ofNat 64 (x.toNat / 2 ^ (y.toNat % 64))) 1 s))
    ∧ (ready .sc g (.sar g d a b) s = true → exec (.sar g d a b) s = .next (writeS .sc d (BitVec.ofInt 64 (x.toInt / 2 ^ (y.toNat % 64))) 1 s))
    ∧ (ready .sc g (.rol g d a b) s = true → exec (.rol g d a b) s = .next (writeS .sc d (x.rotateLeft (y.toNat % 64)) 1 s))
    ∧ (ready .sc g (.min g d a b) s = true → exec (.min g d a b) s = .next (writeS .sc d (if x.toInt ≤ y.toInt then x else y) 1 s))
    ∧ (ready .sc g (.max g d a b) s = true → exec (.max g d a b) s = .next (writeS .sc d (if x.toInt ≤ y.toInt then y else x) 1 s))
    ∧ (ready .sc g (.minz g d a b) s = true → exec (.minz g d a b) s = .next (writeS .sc d (if x.toNat ≤ y.toNat then x else y) 1 s))
    ∧ (ready .sc g (.maxz g d a b) s = true → exec (.maxz g d a b) s = .next (writeS .sc d (if x.toNat ≤ y.toNat then y else x) 1 s)))
  ∧ (∀ (g : Guard) (d a : BitVec 6) (s : State) (x : Word), x = s.rdS a →
    (∀ n, leadingZeros x n → ready .sc g (.clz g d a) s = true →
      exec (.clz g d a) s = .next (writeS .sc d (BitVec.ofNat 64 n) 1 s))
    ∧ (∀ n, trailingZeros x n → ready .sc g (.ctz g d a) s = true →
      exec (.ctz g d a) s = .next (writeS .sc d (BitVec.ofNat 64 n) 1 s))
    ∧ (∀ n, n = ((List.range 64).filter fun i => x.getLsbD i).length → ready .sc g (.popc g d a) s = true →
      exec (.popc g d a) s = .next (writeS .sc d (BitVec.ofNat 64 n) 1 s)))
  ∧ ∀ (g : Guard) (p : BitVec 4) (d a b : BitVec 5) (s : State), ready .sc g (.sel g p d a b) s = true →
    exec (.sel g p d a b) s = .next
      (writeS .sc (d.setWidth 6) (if s.rdP p then s.rdS (a.setWidth 6) else s.rdS (b.setWidth 6)) 1 s)

/-- R103, R104 and R118: the immediate forms and the generator. -/
def Obligations.ImmediateResults : Prop :=
  (∀ (g : Guard) (d a : BitVec 6) (im : BitVec 8) (s : State) (x : Word), x = s.rdS a →
    (ready .sc g (.addi g d a im) s = true → exec (.addi g d a im) s = .next (writeS .sc d (BitVec.ofInt 64 (x.toInt + im.toInt)) 1 s))
    ∧ (ready .sc g (.andi g d a im) s = true → exec (.andi g d a im) s = .next (writeS .sc d (x &&& BitVec.ofInt 64 im.toInt) 1 s))
    ∧ (ready .sc g (.ori g d a im) s = true → exec (.ori g d a im) s = .next (writeS .sc d (x ||| BitVec.ofInt 64 im.toInt) 1 s))
    ∧ (ready .sc g (.xori g d a im) s = true → exec (.xori g d a im) s = .next (writeS .sc d (x ^^^ BitVec.ofInt 64 im.toInt) 1 s)))
  ∧ (∀ (g : Guard) (d a im : BitVec 6) (s : State) (x : Word), x = s.rdS a →
    (ready .sc g (.shli g d a im) s = true → exec (.shli g d a im) s = .next (writeS .sc d (BitVec.ofNat 64 (x.toNat * 2 ^ im.toNat)) 1 s))
    ∧ (ready .sc g (.shri g d a im) s = true → exec (.shri g d a im) s = .next (writeS .sc d (BitVec.ofNat 64 (x.toNat / 2 ^ im.toNat)) 1 s))
    ∧ (ready .sc g (.sari g d a im) s = true → exec (.sari g d a im) s = .next (writeS .sc d (BitVec.ofInt 64 (x.toInt / 2 ^ im.toNat)) 1 s)))
  ∧ (∀ (g : Guard) (d : BitVec 6) (im : BitVec 14) (s : State),
    (ready .sc g (.li g d im) s = true → exec (.li g d im) s = .next (writeS .sc d (BitVec.ofInt 64 im.toInt) 1 s))
    ∧ (ready .sc g (.lih g d im) s = true →
      exec (.lih g d im) s = .next (writeS .sc d (BitVec.ofNat 64 ((s.rdS d).toNat * 2 ^ 14 + im.toNat)) 1 s)))
  ∧ ∀ (g : Guard) (d a b : BitVec 6) (s : State), ready .sc g (.rng g d a b) s = true →
    exec (.rng g d a b) s = .next (writeS .sc d (rngF (s.rdS a) (s.rdS b)) 2 s)

/-- R105, R110 and Table 5-4; a compare that meets a pending ranked atomic is pending itself (R95). -/
def Obligations.CompareResults : Prop :=
  (∀ (g : Guard) (p c : BitVec 4) (a b : BitVec 6) (s : State), c.toNat < 10 → ready .sc g (.cmp g p c a b) s = true →
    (rankedOn s.c (.s a) = none → rankedOn s.c (.s b) = none →
      exec (.cmp g p c a b) s = .next (writeP .sc p (condTable c.toNat (s.rdS a) (s.rdS b)) 1 s))
    ∧ ∀ x y, (x = match rankedOn s.c (.s a) with | some r => Sum.inr r.cell | none => .inl (s.rdS a)) →
      (y = match rankedOn s.c (.s b) with | some r => Sum.inr r.cell | none => .inl (s.rdS b)) → x.isRight || y.isRight → s.c.emu = none →
      exec (.cmp g p c a b) s = .next (if p = 0 then s else s.onC fun k => { k with
        cmps := k.cmps ++ [⟨p.toNat, c.toNat, x, y, k.bundles⟩] }))
  ∧ (∀ (g : Guard) (p : BitVec 4) (c : BitVec 3) (a : BitVec 6) (im : BitVec 7) (s : State), ready .sc g (.cmpi g p c a im) s = true →
    (rankedOn s.c (.s a) = none →
      exec (.cmpi g p c a im) s = .next (writeP .sc p (condTable c.toNat (s.rdS a) (BitVec.ofInt 64 im.toInt)) 1 s))
    ∧ ∀ r, rankedOn s.c (.s a) = some r → s.c.emu = none →
      exec (.cmpi g p c a im) s = .next (if p = 0 then s else s.onC fun k => { k with
        cmps := k.cmps ++ [⟨p.toNat, c.toNat, .inr r.cell, .inl (BitVec.ofInt 64 im.toInt), k.bundles⟩] }))
  ∧ ∀ (g : Guard) (p c : BitVec 4) (a b : BitVec 6) (s : State), c.toNat < 8 → ready .sc g (.fcmp g p c a b) s = true →
    exec (.fcmp g p c a b) s = .next (writeP .sc p (condNum c.toNat (fp32 (s.rdS a)) (fp32 (s.rdS b))) 2 s)

/-- R110 and R111: one rounding of the exact value, and the flags of it. -/
def Obligations.FloatResults : Prop :=
  (∀ (g : Guard) (d a b : BitVec 6) (s : State) (x y z : Machine.Num),
    x = fp32 (s.rdS a) → y = fp32 (s.rdS b) → z = fp32 (s.rdS d) →
    (ready .sc g (.faddS g d a b) s = true →
    exec (.faddS g d a b) s = .next
      (writeS .sc d (BitVec.ofNat 64 (rndNum 0 [] 0 (Machine.Num.add x y)).1) 4
        (raiseFlags .sc ((rndNum 0 [] 0 (Machine.Num.add x y)).2 ||| nvOf (x.isNan || y.isNan) (Machine.Num.add x y)) s)))
  ∧ (ready .sc g (.fmulS g d a b) s = true →
    exec (.fmulS g d a b) s = .next
      (writeS .sc d (BitVec.ofNat 64 (rndNum 0 [] 0 (Machine.Num.mul x y)).1) 4
        (raiseFlags .sc ((rndNum 0 [] 0 (Machine.Num.mul x y)).2 ||| nvOf (x.isNan || y.isNan) (Machine.Num.mul x y)) s)))
  ∧ (ready .sc g (.ffmaS g d a b) s = true →
    exec (.ffmaS g d a b) s = .next
      (writeS .sc d (BitVec.ofNat 64 (rndNum 0 [] 0 (Machine.Num.add (Machine.Num.mul x y) z)).1) 4
        (raiseFlags .sc ((rndNum 0 [] 0 (Machine.Num.add (Machine.Num.mul x y) z)).2 ||| nvOf (x.isNan || y.isNan || z.isNan) (Machine.Num.add (Machine.Num.mul x y) z)) s))))
  ∧ ∀ (g : Guard) (d a : BitVec 6) (f : BitVec 5) (m : BitVec 2) (x : BitVec 1) (s : State) (src : Machine.Num) (c : Nat) (fl : BitVec 6),
    ready .sc g (.cvt g d a f m x) s = true →
    src = (if x = 1 then Machine.Num.ofInt (s.rdS a).toInt else fp32 (s.rdS a)) → rndNum f.toNat [] m.toNat src = (c, fl) →
    (f.toNat ≤ 6 ∨ 22 ≤ f.toNat →
      exec (.cvt g d a f m x) s = .next (writeS .sc d (BitVec.ofNat 64 c) 3 (raiseFlags .sc fl s)))
    ∧ (∀ neg k e, 7 ≤ f.toNat → f.toNat ≤ 15 → decodeNum f.toNat [] c = .fin neg k e →
      exec (.cvt g d a f m x) s = .next
        (writeS .sc d (BitVec.ofInt 64 ((if neg then -1 else 1) * (k * 2 ^ e.toNat : Nat))) 3 (raiseFlags .sc fl s)))

/-- R108 and R109, with the fields of R66: bit i of the new handle is the new field's where the field covers it. -/
def Obligations.HandleWords : Prop :=
  (∀ (g : Guard) (h : BitVec 5) (rs : BitVec 6) (s : State) (d : Desc), ready .sc g (.hmk g h rs) s = true →
    rawDesc s ((s.rdS rs).toNat % 4096) = .ok d →
    exec (.hmk g h rs) s = .next (writeH .sc h (handleOf ((s.rdS rs).toNat % 4096) d) 1 s))
  ∧ (∀ (g : Guard) (h : BitVec 5) (rs : BitVec 6) (f : BitVec 4) (s : State) (v : BitVec 256) (lo w : Nat),
    ready .sc g (.hset g h rs f) s = true → handleField f = (lo, w) →
    (∀ i, i < 256 → v.getLsbD i =
      if lo ≤ i ∧ i < lo + w then (s.rdS rs).getLsbD (i - lo) else (s.rdH h).getLsbD i) →
    exec (.hset g h rs f) s = .next (writeH .sc h v 1 s))
  ∧ (∀ (g : Guard) (h : BitVec 5) (rs : BitVec 6) (f : BitVec 4) (s : State) (lo w : Nat),
    ready .sc g (.hget g h rs f) s = true → handleField f = (lo, w) →
    exec (.hget g h rs f) s = .next (writeS .sc rs (BitVec.ofNat 64 ((s.rdH h).toNat / 2 ^ lo % 2 ^ w)) 1 s))
  ∧ ∀ (g : Guard) (e : BitVec 2) (im : BitVec 3) (a : BitVec 6) (s : State) (k : BitVec 5),
    ready .sc g (.stg g e im a) s = true → k.toNat = 8 * e.toNat + im.toNat →
    exec (.stg g e im a) s = .next (writeStg .sc k (s.rdS a) 1 s)

/-- The frame of the register-only sc words: registers themselves change only when a result lands. -/
def Obligations.RegisterWordFrame : Prop :=
  ∀ (i : Instr) (s t : State), regOnly i = true → i.wf = true → ready .sc i.guard i s = true → exec i s = .next t →
    t = { s with c := { s.c with
      inflight := t.c.inflight, bun := { s.c.bun with undo := t.c.bun.undo }, srec := t.c.srec, cmps := t.c.cmps } }
    ∧ (∃ l, t.c.inflight = s.c.inflight ++ l ∧ l.length ≤ 1 ∧ ∀ e ∈ l, ∃ n lat, dstOf i = some (n, some lat)
      ∧ isZeroName n = false ∧ e.dst = dstName s.c n ∧ e.due = s.c.now + lat)
    ∧ (∀ k : Nat, k ≠ 1 → t.c.srec[k]? = s.c.srec[k]?)
    ∧ (flagWord i = false → t.c.srec = s.c.srec)
    ∧ (isCompare i = false → t.c.cmps = s.c.cmps)
    ∧ (s.c.cmps.length ≤ t.c.cmps.length ∧ t.c.cmps.length ≤ s.c.cmps.length + 1)
    ∧ ∀ a, t.readByte a = s.readByte a

/-- R80, for the accessors that every slot, engine and debug read and write goes through. -/
def Obligations.HardwiredRegisters : Prop :=
  ∀ (s : State), s.rdS 0 = 0 ∧ s.rdP 0 = true
    ∧ (∀ k v n, writeS k 0 v n s = s ∧ writeVar k 0 v s = s ∧ undoS 0 s = s)
    ∧ (∀ k b n, writeP k 0 b n s = s)
    ∧ (∀ d v, (landOne s.c d v).r.cell 0 = s.c.r.cell 0 ∧ (landOne s.c d v).r.p.getLsbD 0 = s.c.r.p.getLsbD 0)
    ∧ mustWait s.c (.s 0) = false ∧ mustWait s.c (.p 0) = false
    ∧ writeWaits s.c (.s 0) = false ∧ writeWaits s.c (.p 0) = false
    ∧ rankedOn s.c (.s 0) = none ∧ destCell s 0 = 0

/-- R19 and R22 for a write that no later one follows; n is the architectural cycle that the path of execution has reached. -/
def Obligations.WritesLandAtLatency : Prop :=
  ∀ (k : Slot) (r : BitVec 6) (v : Word) (lat : Nat) (s t : State), r ≠ 0 → s.c.emu = none → t = writeS k r v lat s →
    (∀ q, t.rdS q = s.rdS q) ∧ (∀ q, t.rdP q = s.rdP q)
    ∧ (∀ n, n < s.c.now + lat → (landDue { t.c with now := n }).r = (landDue { s.c with now := n }).r)
    ∧ (∀ n, s.c.now + lat ≤ n → (landDue { t.c with now := n }).r.cell (cellOf s.src.rpos r) = v)
    ∧ t.c.bun.undo = s.c.bun.undo ++ [⟨0, r.setWidth 12, (s.c.r.cell (cellOf s.src.rpos r)).setWidth 256⟩]

/-- R20 and R22: the two landing events, and what stands in the destination. -/
def Obligations.ResultsLand : Prop :=
  (∀ (s : State) (e : InFlight), dueFirst s.c = some e →
    let t := s.onC fun c => { landOne c e.dst e.val with inflight := takeDue (landingCycle c) e.dst c.inflight }
    (e.var = false → exec .resultLanding s = .next t) ∧ (e.var = true → exec .variableLatencyResult s = .next t))
  ∧ ∀ (c : Core) (v : BitVec 256),
    (∀ x : BitVec 6, x ≠ 0 → (landOne c (.s x) v).r.cell x = v.setWidth 64)
    ∧ (∀ i : BitVec 4, i ≠ 0 → (landOne c (.p i.toNat) v).r.rdP i = v.getLsbD 0)
    ∧ (∀ i : BitVec 5, (landOne c (.h i) v).r.rdH i = v)
    ∧ (∀ i : BitVec 5, (landOne c (.stg i) v).r.rdStg i = v.setWidth 64)

/-- R86: designation and rotation of s48 to s63. -/
def Obligations.RotatingNames : Prop :=
  ∀ (rpos : BitVec 4) (r : BitVec 6),
    (r.toNat < 48 → cellOf rpos r = r)
    ∧ (∀ j, j < 16 → r.toNat = 48 + j → ((cellOf rpos r).toNat : Int) = 48 + ((j : Int) - rpos.toNat) % 16)
    ∧ (∀ j, j < 16 → r.toNat = 48 + j → cellOf (rpos + 1) (BitVec.ofNat 6 (48 + (j + 1) % 16)) = cellOf rpos r)
    ∧ cellOf rpos (nameOf rpos r) = r ∧ nameOf rpos (cellOf rpos r) = r

/-- R81, R82 and R84: branches, and the loops that they leave at the completion of their bundle. A is the address of the bundle. -/
def Obligations.BranchesRedirect : Prop :=
  (∀ (g : Guard) (o : BitVec 20) (s : State), ready .br g (.b g o) s = true → s.c.emu = none →
    (standsLast s = false → exec (.b g o) s = .next (onBun (fun b => { b with next := s.c.pc + 32 * o.signExtend 64, taken := true }) s))
    ∧ (standsLast s = true → exec (.b g o) s = .next (raise 0 0x03 none s)))
  ∧ (∀ (g : Guard) (t : BitVec 4) (a : BitVec 6) (s : State), ready .br g (.jmp g t a) s = true →
    (standsLast s = false → exec (.jmp g t a) s = .next (onBun (fun b => { b with next := s.brS a, taken := true }) s))
    ∧ (standsLast s = true → exec (.jmp g t a) s = .next (raise 0 0x03 none s)))
  ∧ (∀ (g : Guard) (t : BitVec 4) (a : BitVec 6) (s : State), ready .br g (.ret g t a) s = true →
    (standsLast s = false → exec (.ret g t a) s = .next (onBun (fun b => { b with next := s.brS a, taken := true }) s))
    ∧ (standsLast s = true → exec (.ret g t a) s = .next (raise 0 0x03 none s)))
  ∧ (∀ (g : Guard) (o : BitVec 20) (s : State), ready .br g (.call g o) s = true →
    (standsLast s = false → exec (.call g o) s = .next (writeS .br 47 (s.c.pc + 32) 1 (onBun (fun b => { b with next := s.c.pc + 32 * o.signExtend 64, taken := false }) s)))
    ∧ (standsLast s = true → exec (.call g o) s = .next (raise 0 0x03 none s)))
  ∧ (∀ (g : Guard) (o : BitVec 20) (s : State) (e : Emu) (n : Nat), ready .br g (.b g o) s = true → s.c.emu = some e →
    (n : Int) = e.pos + o.toInt → n ≤ e.len → exec (.b g o) s = .next (onBun (fun b => { b with next := BitVec.ofNat 64 n, taken := true }) s))
  ∧ (∀ (s : State) (a : BitVec 6), s.c.fused.fused = false → s.brS a = s.rdS a)
  ∧ ∀ (s u : State) (st : Nat) (pre rest : List LoopEntry) (left : LoopEntry → Prop),
    u = completeBundle st s → s.c.bun.rett = false → s.c.bun.lbrk = false → s.c.bun.spec = none → s.c.bun.abort = false →
    s.c.bun.push = none → s.c.trap.handler = false → s.c.loops = pre ++ rest →
    (∀ l, left l ↔ (l.first.toNat ≤ s.c.pc.toNat ∧ s.c.pc.toNat ≤ l.last.toNat
      ∧ ¬(l.first.toNat ≤ s.c.bun.next.toNat ∧ s.c.bun.next.toNat ≤ l.last.toNat))) →
    u.c.pc = s.c.bun.next
    ∧ (s.c.bun.taken = true → (∀ l ∈ pre, left l) → (∀ l, rest.head? = some l → ¬left l) → u.c.loops = rest)
    ∧ (s.c.bun.taken = false → u.c.loops = s.c.loops)

/-- R83, R84, R315 and R371 for one loop word: rot and pre are the word's marks, L the length of the body in bundles. The order in
which one word's causes are looked for is log 78. -/
def Obligations.LoopsOpen : Prop :=
  ∀ (g : Guard) (rs : BitVec 6) (l : BitVec 12) (s : State) (i : Instr) (rot pre : Bool) (n e L : Nat) (last : Word),
    (i, rot, pre) ∈ [(.loop g rs l, false, false), (.loopRot g rs l, true, false), (.loopPre g rs l, false, true),
      (.loopRotPre g rs l, true, true)] →
    ready .br g i s = true → (s.c.trap.handler = true → exec i s = .next (raise 0 0x03 none s)) ∧ (s.c.trap.handler = false →
    n = (s.brS rs).toNat % 2 ^ 32 → e = (if rot then (s.brS rs).toNat / 2 ^ 32 % 16 else 0) → L = l.toNat + 1 →
    last = s.c.pc + BitVec.ofNat 64 (32 * L) →
    (standsLast s = true → exec i s = .next (raise 0 0x03 none s))
    ∧ (standsLast s = false → (∃ x, s.c.loops.head? = some x ∧ x.last.toNat < last.toNat) →
      exec i s = .next (raise 0 0x03 none s))
    ∧ (standsLast s = false → (∀ x, s.c.loops.head? = some x → last.toNat ≤ x.last.toNat) →
      ((∃ b, loopBound s = some b ∧ b < n + e) → exec i s = .next (raise 0 0x04 none s))
      ∧ ((∀ b, loopBound s = some b → n + e ≤ b) →
        (4 ≤ s.c.loops.length → n + e ≠ 0 → exec i s = .next (raise 0 0x02 none s))
        ∧ (n + e = 0 →
          exec i s = .next (onBun (fun b => { b with next := s.c.pc + BitVec.ofNat 64 (32 * (L + 1)) }) s))
        ∧ (s.c.loops.length < 4 → n + e ≠ 0 → ∃ t, exec i s = .next t
          ∧ t.c.bun.push = some ⟨s.c.pc + 32, last, n, e, 0, rot, pre, none⟩
          ∧ t = { s with c := { s.c with
              inflight := t.c.inflight, bun := { s.c.bun with push := t.c.bun.push } } }
          ∧ (rot = false → t.c.inflight = s.c.inflight)
          ∧ (rot = true → s.c.emu = none → t.c.inflight = s.c.inflight ++ (List.range 8).map fun j =>
              ⟨.p (8 + j), if j = 0 ∧ 0 < n then 1 else 0, s.c.now + 1, 0, s.c.pc, false⟩)
          ∧ ∀ st, s.c.bun = { Bundle.idle with next := s.c.pc + 32 } → (completeBundle st t).c.loops =
              ⟨s.c.pc + 32, last, n, e, 0, rot, pre, none⟩ :: s.c.loops))))

/-- R89: the six predicate words. -/
def Obligations.PredicateWords : Prop :=
  (∀ (g : Guard) (t d : BitVec 4) (s : State), ready .br g (.pset g t d) s = true →
    exec (.pset g t d) s = .next (writeP .br d (true) 1 s))
  ∧ (∀ (g : Guard) (t d : BitVec 4) (s : State), ready .br g (.pclr g t d) s = true →
    exec (.pclr g t d) s = .next (writeP .br d (false) 1 s))
  ∧ (∀ (g : Guard) (t d a b : BitVec 4) (s : State), ready .br g (.pand g t d a b) s = true →
    exec (.pand g t d a b) s = .next (writeP .br d (s.rdP a && s.rdP b) 1 s))
  ∧ (∀ (g : Guard) (t d a b : BitVec 4) (s : State), ready .br g (.por g t d a b) s = true →
    exec (.por g t d a b) s = .next (writeP .br d (s.rdP a || s.rdP b) 1 s))
  ∧ (∀ (g : Guard) (t d a b : BitVec 4) (s : State), ready .br g (.pxor g t d a b) s = true →
    exec (.pxor g t d a b) s = .next (writeP .br d (s.rdP a ^^ s.rdP b) 1 s))
  ∧ (∀ (g : Guard) (t d a : BitVec 4) (s : State), ready .br g (.pnot g t d a) s = true →
    exec (.pnot g t d a) s = .next (writeP .br d (!s.rdP a) 1 s))

/-- The br words that act on the bundle's completion, what the completion does with them, and the nops. The order of causes is
log 78; what the row's other cores do is log 16. -/
def Obligations.ControlWords : Prop :=
  (∀ (g : Guard) (t : BitVec 4) (s : State), ready .br g (.nop g t) s = true →
    exec (.nop g t) s = .next s)
  ∧ (∀ (k : Slot) (g : Guard) (s : State), exec (.nopSlot k g) s = .next s)
  ∧ (∀ (g : Guard) (t : BitVec 4) (s : State), ready .br g (.lbrk g t) s = true →
    (s.c.trap.handler = false → s.c.loops ≠ [] → exec (.lbrk g t) s = .next (onBun (fun b => { b with lbrk := true }) s))
    ∧ (s.c.trap.handler = true ∨ s.c.loops = [] → exec (.lbrk g t) s = .next (raise 0 0x03 none s)))
  ∧ (∀ (g : Guard) (t : BitVec 4) (s : State), ready .br g (.pmark g t) s = true →
    exec (.pmark g t) s = .next (if s.c.trap.handler then s else onBun (fun b => { b with safe := true }) s))
  ∧ (∀ (g : Guard) (t : BitVec 4) (s : State), ready .br g (.endTask g t) s = true →
    exec (.endTask g t) s = .next (onBun (fun b => { b with ended := true }) s))
  ∧ (∀ (g : Guard) (p : BitVec 4) (o : BitVec 16) (s : State), ready .br g (.spec g p o) s = true →
    (s.c.trap.handler = true ∨ s.c.spec.isSome → exec (.spec g p o) s = .next (raise 0 0xB0 none s))
    ∧ (s.c.trap.handler = false → s.c.spec = none → s.c.fused.fused = true →
      exec (.spec g p o) s = .next (raise 0 0xB1 none s))
    ∧ (s.c.trap.handler = false → s.c.spec = none → s.c.fused.fused = false →
      (standsLast s = true → exec (.spec g p o) s = .next (raise 0 0x03 none s))
      ∧ (standsLast s = false → exec (.spec g p o) s = .next
        (onBun (fun b => { b with spec := some (p, s.c.pc + 32 * o.signExtend 64) }) s))))
  ∧ (∀ (g : Guard) (t : BitVec 4) (s : State), ready .br g (.specx g t) s = true →
    (standsLast s = false →
      exec (.specx g t) s = .next (if s.c.spec.isSome then onBun (fun b => { b with abort := true }) s else s))
    ∧ (standsLast s = true → exec (.specx g t) s = .next (raise 0 0x03 none s)))
  ∧ (∀ (g : Guard) (t : BitVec 4) (s : State), ready .br g (.dcpl g t) s = true →
    exec (.dcpl g t) s = .next (if s.c.fused.fused then onBun (fun b => { b with dcpl := true }) s else s))
  ∧ (∀ (g : Guard) (t : BitVec 4) (s : State), ready .br g (.rjn g t) s = true →
    (s.c.fused.ever = false ∨ s.c.fused.fused = true → exec (.rjn g t) s = .next s)
    ∧ (s.c.fused.ever = true → s.c.fused.fused = false → s.c.fused.rank = 0 → exec (.rjn g t) s = .next
      (onBun (fun b => { b with rejoin := true }) (s.onC fun c => { c with fresh := c.fresh + 1 })))
    ∧ (s.c.fused.ever = true → s.c.fused.fused = false → s.c.fused.rank ≠ 0 → exec (.rjn g t) s = .next
      (if 0 < rowEnded s (· == 0) ∨ Config.leaderEnded s.c.fresh = true ∨ Config.leaderWord s.c.fresh ≠ s.c.pc + 32 then
        raise 0 0x84 none s
      else onBun (fun b => { b with rejoin := true }) (s.onC fun c => { c with fresh := c.fresh + 1 }))))
  ∧ (∀ (g : Guard) (t : BitVec 4) (k : BitVec 16) (s : State), ready .br g (.bkpt g t k) s = true →
    ((∀ c, s.ctx? = some c → c.bkpts = false) ∨ s.c.bkptSkip = true →
      exec (.bkpt g t k) s = .next (s.onC fun c => { c with bkptSkip := false }))
    ∧ (∀ c, s.ctx? = some c → c.bkpts = true → s.c.bkptSkip = false → s.c.spec = none → waitsInFlight s.c = false →
      ∃ u, exec (.bkpt g t k) s = .next u ∧ u.c.halted = true ∧ u.c.bkptTag = k ∧ u.c.pc = s.c.pc ∧ u.c.inflight = []
        ∧ u.c.bun.stopped = true ∧ u.mem = s.mem))
  ∧ ∀ (s u : State) (st : Nat) (b : Bundle), u = completeBundle st s → b = s.c.bun → b.rett = false → b.abort = false →
    (u.c.now = s.c.now + 1 + st ∧ u.c.bundles = s.c.bundles + 1 ∧ u.c.ended = (s.c.ended || b.ended) ∧ u.mem = s.mem
      ∧ u.c.sinceSafe = (if b.safe then 0 else s.c.sinceSafe + 1 + st) ∧ u.c.bun.safe = (b.safe && s.c.preempt))
    ∧ (b.spec = none → b.lbrk = true → b.taken = false → b.push = none → ∀ l r, s.c.loops = l :: r →
      u.c.loops = r ∧ u.c.pc = l.last + 32)
    ∧ (s.c.fused.fused = true → b.dcpl = true → b.rejoin = false → u.c.fused.fused = false)
    ∧ (s.c.fused.fused = false → b.rejoin = true → u.c.fused.fused = !Config.rowDiffers s.c.fresh)
    ∧ (s.c.fused.fused = false → b.rejoin = false → u.c.fused = s.c.fused)
    ∧ ∀ (p : BitVec 4) (target : Word), b.spec = some (p, target) →
      ((p ≠ 0 ∧ ∃ w ∈ s.c.cmps, w.pd = p.toNat) →
        u.c.spec = some ⟨p.toNat, none, 0, s.c.cmps, target, s.c.r, u.c.loops, [], s.c.inflight, s.c.bundles⟩
        ∧ (b.lbrk = false → u.c.pc = b.next))
      ∧ ((p = 0 ∨ ∀ w ∈ s.c.cmps, w.pd ≠ p.toNat) → u.c.spec = s.c.spec
        ∧ (b.lbrk = false → u.c.pc = if s.rdP p then b.next else target))

/-- R101 with R131, R173, R317 and R376: the four forms of sread; that a counted read is one of R317 is log 71, that srec1 to srec3 wait for their lane log 39. -/
def Obligations.SpecialReads : Prop :=
  (∀ (g : Guard) (t : BitVec 4) (d : BitVec 6) (c : BitVec 10) (s : State), ready .br g (.sread g t d c) s = true →
    exec (.sread g t d c) s = .next (if countedCode (fmaskOf s) c.toNat then countMasked (writeS .br d (spRead c.toNat s) 2 s)
      else writeS .br d (spRead c.toNat s) 2 s))
  ∧ (∀ (g : Guard) (t : BitVec 4) (d : BitVec 6) (w : BitVec 3) (s : State), ready .br g (.sreadWm g t d w) s = true →
    (laneOf s 1 = [] → exec (.sreadWm g t d w) s = .next (writeS .br d (s.c.wm[w.toNat]'w.isLt) 2 s))
    ∧ (laneOf s 1 ≠ [] → exec (.sreadWm g t d w) s = .next (stalled s)))
  ∧ (∀ (g : Guard) (t : BitVec 4) (d : BitVec 6) (r : BitVec 3) (s : State), ready .br g (.sreadSrec g t d r) s = true →
    let clear := (r.toNat = 0) ∨ (1 ≤ r.toNat ∧ r.toNat ≤ 3 ∧ laneOf s (r.toNat - 1) = []) ∨ (r.toNat = 4 ∧ s.c.mxq = [])
      ∨ (r.toNat = 5 ∧ s.c.cpq = []) ∨ (r.toNat = 6 ∧ s.c.spq = []) ∨ (r.toNat = 7 ∧ s.c.syq = [])
    (clear → exec (.sreadSrec g t d r) s = .next (writeS .br d (s.c.srec[r.toNat]'r.isLt) 2 s))
    ∧ (¬ clear → exec (.sreadSrec g t d r) s = .next (stalled s)))
  ∧ (∀ (g : Guard) (t : BitVec 4) (d : BitVec 6) (x : BitVec 1) (s : State), ready .br g (.sreadSat g t d x) s = true →
    ((∀ q ∈ s.c.cpq, q.chan ≠ 14 + x.toNat) →
      exec (.sreadSat g t d x) s = .next (writeS .br d (s.c.sat[x.toNat]'x.isLt) 2 s))
    ∧ ((∃ q ∈ s.c.cpq, q.chan = 14 + x.toNat) → exec (.sreadSat g t d x) s = .next (stalled s)))
  ∧ ∀ (s : State), spRead 0 s = s.c.trap.tstat ∧ spRead 1 s = s.c.trap.tpc ∧ spRead 2 s = s.c.trap.tval
    ∧ spRead 3 s = s.c.trap.isav ∧ spRead 4 s = s.c.trap.psnap.setWidth 64 ∧ spRead 0x58 s = s.c.r.mtol
    ∧ (∀ k, (hk : k < 8) → spRead (0x40 + k) s = BitVec.ofNat 64 (s.c.info.ranks.getD k 0)
      ∧ spRead (0x48 + k) s = BitVec.ofNat 64 (s.c.info.extents.getD k 1)
      ∧ spRead (0x30 + k) s = s.c.srec[k] ∧ spRead (0x50 + k) s = s.c.wm[k])
    ∧ ∀ k, (hk : k < 2) → spRead (0x68 + k) s = s.c.sat[k]

/-- The rows of swrite but tpc and isav; the order of the causes of tstat is log 36, the wait of a watermark log 98; undoSp is the undo entry of a special register (Table 3-5). -/
def Obligations.SpecialWrites : Prop :=
  (∀ (g : Guard) (t : BitVec 4) (rs : BitVec 6) (c : BitVec 10) (s : State), ready .br g (.swrite g t rs c) s = true →
    exec (.swrite g t rs c) s = .next s)
  ∧ (∀ (g : Guard) (t : BitVec 4) (rs : BitVec 6) (s : State) (v : Word), v = s.rdS rs →
    ready .br g (.swriteTstat g t rs) s = true →
    (v &&& 0xFFFFFFFF10F0F800 ≠ 0 ∨ 8 < v.toNat / 2 ^ 16 % 16 →
      exec (.swriteTstat g t rs) s = .next (raise 0 0x11 (some (execTval .br s)) s))
    ∧ (v &&& 0xFFFFFFFF10F0F800 = 0 → v.toNat / 2 ^ 16 % 16 ≤ 8 →
      (s.c.trap.handler = false → v.toNat / 2 ^ 16 % 16 ≠ s.c.trap.tstat.toNat / 2 ^ 16 % 16 →
        exec (.swriteTstat g t rs) s = .next (raise 0 0xC0 none s))
      ∧ (s.c.trap.handler = true ∨ v.toNat / 2 ^ 16 % 16 = s.c.trap.tstat.toNat / 2 ^ 16 % 16 →
        exec (.swriteTstat g t rs) s = .next ((undoSp 0 s.c.trap.tstat s).onC fun c =>
          { c with trap := { c.trap with tstat := (s.c.trap.tstat &&& ~~~0x800F0000) ||| (v &&& 0x800F0000) } }))))
  ∧ (∀ (g : Guard) (t : BitVec 4) (rs : BitVec 6) (r : BitVec 3) (s : State) (v : Word), v = s.rdS rs →
    ready .br g (.swriteSrec g t rs r) s = true →
    (v &&& 0x7FE0000000000000 ≠ 0 → exec (.swriteSrec g t rs r) s = .next (raise 0 0x11 (some (execTval .br s)) s))
    ∧ (v &&& 0x7FE0000000000000 = 0 → exec (.swriteSrec g t rs r) s = .next
      ((undoSp (0x30 + r.toNat) (s.c.srec[r.toNat]'r.isLt) s).onC fun c => { c with srec := c.srec.set r.toNat v r.isLt })))
  ∧ (∀ (g : Guard) (t : BitVec 4) (rs : BitVec 6) (x : BitVec 1) (s : State) (v : Word), v = s.rdS rs →
    ready .br g (.swriteSat g t rs x) s = true →
    (v &&& 0xFFFF000000000000 ≠ 0 → exec (.swriteSat g t rs x) s = .next (raise 0 0x11 (some (execTval .br s)) s))
    ∧ (v &&& 0xFFFF000000000000 = 0 → exec (.swriteSat g t rs x) s = .next
      ((undoSp (0x68 + x.toNat) (s.c.sat[x.toNat]'x.isLt) s).onC fun c => { c with sat := c.sat.set x.toNat v x.isLt })))
  ∧ (∀ (g : Guard) (t : BitVec 4) (rs : BitVec 6) (w : BitVec 3) (s : State) (v : Word), v = s.rdS rs →
    ready .br g (.swriteWm g t rs w) s = true →
    (v &&& 0x7F80FFFFFFFFFF00 ≠ 0 → exec (.swriteWm g t rs w) s = .next (raise 0 0x11 (some (execTval .br s)) s))
    ∧ (v &&& 0x7F80FFFFFFFFFF00 = 0 → laneOf s 1 ≠ [] → exec (.swriteWm g t rs w) s = .next (stalled s))
    ∧ (v &&& 0x7F80FFFFFFFFFF00 = 0 → laneOf s 1 = [] → exec (.swriteWm g t rs w) s = .next
      (post .br (.sp (0x50 + w.toNat)) (v.setWidth 256) 1 (undoSp (0x50 + w.toNat) (s.c.wm[w.toNat]'w.isLt) s)))
    ∧ ∀ (c : Core) (old : Word), old = (c.wm[w.toNat]'w.isLt) →
      landOne c (.sp (0x50 + w.toNat)) (v.setWidth 256) = { c with wm := c.wm.set w.toNat (wmAfter old v) w.isLt })
  ∧ (∀ (g : Guard) (t : BitVec 4) (rs : BitVec 6) (s : State) (v : Word), v = s.rdS rs →
    ready .br g (.swriteMtol g t rs) s = true →
    (v &&& 0xFFFFFFFF00000000 ≠ 0 ∨ fp32 v = .nan ∨ (∃ b, fp32 v = .inf b) ∨ (∃ m e, fp32 v = .fin true m e ∧ m ≠ 0) →
      exec (.swriteMtol g t rs) s = .next (raise 0 0x11 (some (execTval .br s)) s))
    ∧ (∀ b m e, v &&& 0xFFFFFFFF00000000 = 0 → fp32 v = .fin b m e → b = false ∨ m = 0 →
      exec (.swriteMtol g t rs) s = .next (post .br (.sp 0x58) (v.setWidth 256) 1 (undoSp 0x58 s.c.r.mtol s))))
  ∧ (∀ (s : State) (w : BitVec 32), s.c.emu = none → s.c.info.patch.slots = [] → (Slot.br, w) ∈ bundleWords s →
    execTval .br s = w.setWidth 64)
  ∧ (∀ (g : Guard) (t : BitVec 4) (rs : BitVec 6) (s : State) (v : Word), v = s.rdS rs →
    ready .br g (.swriteLstat g t rs) s = true →
    (v &&& 0xFFFFFF0000000000 ≠ 0 → exec (.swriteLstat g t rs) s = .next (raise 0 0x11 (some (execTval .br s)) s))
    ∧ (v &&& 0xFFFFFF0000000000 = 0 →
      (s.c.loops ≠ [] → v.toNat / 2 ^ 36 % 16 ≠ s.c.r.rpos.toNat → exec (.swriteLstat g t rs) s = .next (raise 0 0x03 none s))
      ∧ (s.c.loops = [] ∨ v.toNat / 2 ^ 36 % 16 = s.c.r.rpos.toNat → exec (.swriteLstat g t rs) s = .next
        (post .br (.sp 0x5A) (BitVec.ofNat 256 (v.toNat / 2 ^ 36 % 16)) 1 (undoSp 0x5A (lstatOf s.c) s)))))

/-- R92 and R101: what only a handler may do; which cause comes first is log 78. -/
def Obligations.HandlerOnlyWords : Prop :=
  (∀ (g : Guard) (t : BitVec 4) (s : State), ready .br g (.rett g t) s = true →
    (s.c.trap.handler = true → exec (.rett g t) s = .next (onBun (fun b => { b with rett := true }) s))
    ∧ (s.c.trap.handler = false → standsLast s = false → exec (.rett g t) s = .next (raise 0 0xC0 none s))
    ∧ (standsLast s = true → exec (.rett g t) s = .next (raise 0 0x03 none s)))
  ∧ (∀ (g : Guard) (t : BitVec 4) (rs : BitVec 6) (s : State) (v : Word), v = s.rdS rs →
    ready .br g (.swriteTpc g t rs) s = true →
    (s.c.trap.handler = true → exec (.swriteTpc g t rs) s = .next
      ((undoSp 1 s.c.trap.tpc s).onC fun c => { c with trap := { c.trap with tpc := v } }))
    ∧ (s.c.trap.handler = false → exec (.swriteTpc g t rs) s = .next (raise 0 0xC0 none s)))
  ∧ (∀ (g : Guard) (t : BitVec 4) (rs : BitVec 6) (s : State) (v : Word), v = s.rdS rs →
    ready .br g (.swriteIsav g t rs) s = true →
    (s.c.trap.handler = true → exec (.swriteIsav g t rs) s = .next
      ((undoSp 3 s.c.trap.isav s).onC fun c => { c with trap := { c.trap with isav := v } }))
    ∧ (s.c.trap.handler = false → exec (.swriteIsav g t rs) s = .next (raise 0 0xC0 none s)))

/-- R30 (with R28, R29 and R371): taking a precise exception. -/
def Obligations.TrapEntryState : Prop :=
  ∀ (k cause : Nat) (tv e : Word) (s t : State), k < 8 → cause < 256 → trapReady s = true →
    s.c.trap.entry = some e → s.c.trap.handler = false → toHandler cause = true → t = raise k cause (some tv) s →
    t.c.pc = e ∧ t.c.trap.handler = true ∧ t.c.trap.tpc = s.c.pc ∧ t.c.trap.tval = tv ∧ t.c.trap.isav = s.c.bun.next
    ∧ t.c.trap.psnap = s.c.bun.psnap ∧ t.c.trap.undo = s.c.bun.undo
    ∧ t.c.trap.tstat.toNat % 2 ^ 8 = cause ∧ t.c.trap.tstat.toNat / 2 ^ 8 % 8 = k
    ∧ t.c.trap.tstat.toNat / 2 ^ 16 % 16 = k ∧ t.c.trap.tstat.toNat / 2 ^ 24 % 16 = s.c.bun.undo.length % 16
    ∧ t.c.trap.tstat.getLsbD 29 = decide (0 < k) ∧ t.c.trap.tstat.getLsbD 30 = false
    ∧ t.c.trap.tstat.getLsbD 31 = s.c.trap.tstat.getLsbD 31 ∧ t.c.trap.tstat &&& 0xFFFFFFFF10F0F800 = 0
    ∧ t.c.r = (landAll s.c).r ∧ t.c.inflight = [] ∧ t.mem = s.mem ∧ t.c.loops = s.c.loops

/-- R91: the software trap. -/
def Obligations.TrapWordTaken : Prop :=
  ∀ (g : Guard) (t : BitVec 4) (c : BitVec 8) (s : State), ready .br g (.trap g t c) s = true → trapReady s = true →
    (∀ e, s.c.trap.entry = some e → s.c.trap.handler = false →
      exec (.trap g t c) s = .next (takeTrap 0x00 0 0 (BitVec.ofNat 64 c.toNat) e s)
      ∧ (takeTrap 0x00 0 0 (BitVec.ofNat 64 c.toNat) e s).c.trap.tstat.toNat % 2 ^ 20 = 0)
    ∧ (s.c.trap.entry = none ∨ s.c.trap.handler = true →
      ∃ u, exec (.trap g t c) s = .next u ∧ u.c.info.running = false ∧ u.c.ended = true)

/-- R371 and R372: faults that the task cannot handle. -/
def Obligations.HandlerFaultsEndTheTask : Prop :=
  ∀ (k cause : Nat) (tv : Word) (s t : State), trapReady s = true → cause ≠ 0xF3 →
    s.c.trap.handler = true ∨ s.c.trap.entry = none ∨ toHandler cause = false → t = raise k cause (some tv) s →
    t.c.info.running = false ∧ t.c.ended = true ∧ (s.c.trap.handler = true → t.c.trap = { s.c.trap with due := none })
    ∧ t.mem = s.mem ∧ t.mon = s.mon ∧ t.fe.launches.length = s.fe.launches.length
    ∧ ∀ (n : Nat) (l : Launch), s.fe.launches[n]? = some l → isRow s.c.info.die s.c.info.queue s.c.info.seq l = true →
      l.failed = none → (t.fe.launches[n]?).map (·.failed) = some (some cause)

/-- R33 and R92: the return from a trap and the view of the re-entered bundle. A decode fault of the slots from j on, and its
suppression, are the model's readings (logs 33 and 75). -/
def Obligations.ReturnFromTrap : Prop :=
  (∀ (st : Nat) (s : State), s.c.bun.rett = true →
    let t := completeBundle st s
    t.c.trap.handler = false ∧ t.c.pc = s.c.trap.tpc ∧ t.c.now = s.c.now + 1
    ∧ t.c.resume = some (s.c.trap.tstat.toNat / 2 ^ 16 % 16) ∧ t.c.loops = s.c.loops ∧ t.c.r = s.c.r ∧ t.mem = s.mem)
  ∧ (∀ (c : Core) (j : Nat), c.view = none → c.resume = some j →
    (enterBundle c).1 = j ∧ (enterBundle c).2.view = some (undoView c.r c.trap.psnap c.trap.undo)
    ∧ (enterBundle c).2.bun.next = c.trap.isav ∧ (enterBundle c).2.r = c.r)
  ∧ (∀ (x : Regs) (psnap : BitVec 16) (us : List UndoEntry),
    (undoView x psnap us).p = psnap
    ∧ (∀ i, (undoView x psnap us).rdH i =
      ((us.filter fun u => u.cls = 1 ∧ u.idx.setWidth 5 = i).getLast?.map (·.val)).getD (x.rdH i))
    ∧ (∀ i, (undoView x psnap us).rdStg i =
      ((us.filter fun u => u.cls = 2 ∧ u.idx.setWidth 5 = i).getLast?.map (·.val.setWidth 64)).getD (x.rdStg i))
    ∧ ((∀ u ∈ us, u.cls.toNat < 3 ∨ u.cls = 4) → ∀ q, (undoView x psnap us).cell q =
      ((us.filter fun u => u.cls = 0 ∧ cellOf x.rpos (u.idx.setWidth 6) = q).getLast?.map
        (·.val.setWidth 64)).getD (x.cell q)))
  ∧ (∀ (s : State) (n j : Nat) (shadow : Bool), 8 ≤ j → issueFrom n j shadow s = s)
  ∧ ∀ (s t : State) (n j cause : Nat) (tv : Word) (offer shadow : Bool) (ws : List (Slot × BitVec 32)),
    ws = (bundleWords s).filter (fun x => decide (j ≤ x.1.idx)) → guardsWait s ws = false →
    firstBad (ws.map fun x => (x, fateOf s x)) = some (cause, tv, offer) →
    t = raiseWith false offer j cause (some tv) (countMaskedWords (ws.map fun x => (x, fateOf s x)) s) →
    issueFrom (n + 1) j shadow s = if t.c.bun.stall || t.c.bun.stopped then t else issueFrom n (j + 1) shadow t

/-- R85 and R88: LOOP_END_OF_TRIP. The re-arming of a drain whose request has gone is log 79. -/
def Obligations.EndOfTripSteps : Prop :=
  (∀ (s : State) (a : Word) (l : LoopEntry) (ls : List LoopEntry), s.c.tripAt = some a → s.c.loops = l :: ls → l.last = a →
    s.c.trap.handler = false → s.c.preempt = false → l.stop = none →
    ∃ t, exec .loopEndOfTrip s = .next t
      ∧ (l.trip + 1 < l.n + l.e →
        t.c.pc = l.first ∧ t.c.loops = { l with trip := l.trip + 1 } :: ls ∧ t.c.tripAt = none)
      ∧ (l.n + l.e ≤ l.trip + 1 → t.c.pc = a + 32 ∧ t.c.loops = ls
        ∧ (t.c.tripAt = some a ↔ ∃ x, ls.head? = some x ∧ x.last = a))
      ∧ (l.rot = true → t.c.r.rpos.toNat = (s.c.r.rpos.toNat + 1) % 16
        ∧ (∀ i, 9 ≤ i → i ≤ 15 → t.c.r.p.getLsbD i = s.c.r.p.getLsbD (i - 1))
        ∧ t.c.r.p.getLsbD 8 = decide (l.trip + 1 < l.n) ∧ ∀ i, i < 8 → t.c.r.p.getLsbD i = s.c.r.p.getLsbD i)
      ∧ (l.rot = false → t.c.r = s.c.r ∧ t.c.inflight = s.c.inflight)
      ∧ t.c.r.s = s.c.r.s ∧ t.c.r.h = s.c.r.h ∧ t.c.r.stg = s.c.r.stg ∧ t.mem = s.mem)
  ∧ ∀ (s : State) (a : Word) (l : LoopEntry) (ls : List LoopEntry) (k : Nat), s.c.tripAt = some a → s.c.loops = l :: ls →
    l.last = a → s.c.trap.handler = false →
    l.stop = some k ∨ (l.stop = none ∧ k = l.trip + 1 ∧ s.c.preempt = true ∧ s.c.spec = none ∧ l.pre = true ∧ l.trip < l.n
      ∧ (l.rot = true ∨ l.trip + 1 < l.n + l.e)) →
    ∃ t, exec .loopEndOfTrip s = .next t
      ∧ (l.trip + 1 < k + l.e → t.c.pc = l.first ∧ t.c.loops = { l with trip := l.trip + 1, stop := some k } :: ls
        ∧ t.c.bun.safe = s.c.bun.safe)
      ∧ (k + l.e ≤ l.trip + 1 → l.n ≤ k → t.c.pc = a + 32 ∧ t.c.loops = ls ∧ t.c.bun.safe = true)
      ∧ (k + l.e ≤ l.trip + 1 → k < l.n → s.c.preempt = true →
        t.c.pc = l.first ∧ t.c.loops = { l with trip := l.trip + 1, stop := some k } :: ls ∧ t.c.bun.safe = true)
      ∧ (k + l.e ≤ l.trip + 1 → k < l.n → s.c.preempt = false → t.c.pc = l.first
        ∧ t.c.loops = { l with n := l.n - k, trip := 0, stop := none } :: ls ∧ t.c.bun.safe = s.c.bun.safe
        ∧ (l.rot = true → ∀ i, 8 ≤ i → i ≤ 15 → t.c.r.p.getLsbD i = decide (i = 8)))
      ∧ (l.rot = true → t.c.r.rpos.toNat = (s.c.r.rpos.toNat + 1) % 16
        ∧ (∀ i, i < 8 → t.c.r.p.getLsbD i = s.c.r.p.getLsbD i)
        ∧ (l.trip + 1 < k + l.e ∨ l.n ≤ k ∨ s.c.preempt = true → t.c.r.p.getLsbD 8 = false
          ∧ ∀ i, 9 ≤ i → i ≤ 15 → t.c.r.p.getLsbD i = s.c.r.p.getLsbD (i - 1)))
      ∧ (l.rot = false → t.c.r = s.c.r ∧ t.c.inflight = s.c.inflight)
      ∧ t.c.r.s = s.c.r.s ∧ t.c.r.h = s.c.r.h ∧ t.c.r.stg = s.c.r.stg ∧ t.mem = s.mem

/-- R106 and R107: loads; a stream load is R202's. -/
def Obligations.LoadsReturnMemory : Prop :=
  (∀ (g : Guard) (d a o : BitVec 6) (k : BitVec 2) (s : State) (h : Nat), poisoned s h = false →
    (ready .sc g (.ldB g d a k o) s = true → reaches s .read (s.rdS a + 1 * o.signExtend 64) 1 h →
      exec (.ldB g d a k o) s = .next (writeVar .sc d ((BitVec.ofNat 8 (leNat (s.readBytes h 1))).signExtend 64) s))
    ∧ (ready .sc g (.ldBz g d a k o) s = true → reaches s .read (s.rdS a + 1 * o.signExtend 64) 1 h →
      exec (.ldBz g d a k o) s = .next (writeVar .sc d (BitVec.ofNat 64 (leNat (s.readBytes h 1))) s))
    ∧ (ready .sc g (.ldH g d a k o) s = true → reaches s .read (s.rdS a + 2 * o.signExtend 64) 2 h →
      exec (.ldH g d a k o) s = .next (writeVar .sc d ((BitVec.ofNat 16 (leNat (s.readBytes h 2))).signExtend 64) s))
    ∧ (ready .sc g (.ldHz g d a k o) s = true → reaches s .read (s.rdS a + 2 * o.signExtend 64) 2 h →
      exec (.ldHz g d a k o) s = .next (writeVar .sc d (BitVec.ofNat 64 (leNat (s.readBytes h 2))) s))
    ∧ (ready .sc g (.ldW g d a k o) s = true → reaches s .read (s.rdS a + 4 * o.signExtend 64) 4 h →
      exec (.ldW g d a k o) s = .next (writeVar .sc d ((BitVec.ofNat 32 (leNat (s.readBytes h 4))).signExtend 64) s))
    ∧ (ready .sc g (.ldWz g d a k o) s = true → reaches s .read (s.rdS a + 4 * o.signExtend 64) 4 h →
      exec (.ldWz g d a k o) s = .next (writeVar .sc d (BitVec.ofNat 64 (leNat (s.readBytes h 4))) s))
    ∧ (ready .sc g (.ldD g d a k o) s = true → reaches s .read (s.rdS a + 8 * o.signExtend 64) 8 h →
      exec (.ldD g d a k o) s = .next (writeVar .sc d (BitVec.ofNat 64 (leNat (s.readBytes h 8))) s)))
  ∧ (∀ (g : Guard) (x : BitVec 5) (a : BitVec 6) (k : BitVec 2) (o : BitVec 7) (s : State) (h : Nat), poisoned s h = false →
    ready .sc g (.ldh g x a k o) s = true → reaches s .read (s.rdS a + 32 * o.signExtend 64) 32 h →
    exec (.ldh g x a k o) s = .next (postVar .sc (.h x) (BitVec.ofNat 256 (leNat (s.readBytes h 32)))
      (pushUndo 1 (x.setWidth 12) (s.c.r.rdH x) s)))
  ∧ ∀ (g : Guard) (d a o : BitVec 6) (k : BitVec 2) (s : State) (z : BitVec 3) (v : Word) (rest : List Word),
    ready .sc g (.ldD g d a k o) s = true → (s.rdS a + 8 * o.signExtend 64).toNat = 0xFFD * 2 ^ 40 + 8 * z.toNat →
    s.c.spec = none → (s.c.z[z.toNat]'z.isLt).bound = true → (s.c.z[z.toNat]'z.isLt).waits = [] →
    (s.c.z[z.toNat]'z.isLt).buf = v :: rest →
    exec (.ldD g d a k o) s = .next
      (writeVar .sc d v (onZ z.toNat (fun x => { x with buf := rest, taken := x.taken + 1 }) s))

/-- R106 and R107: stores with their frame; memOf computes the address as the meaning does. A byte reached under another key than its
block stands under reads differently when its block changes (R318). The store of a code that is no format is log 83. -/
def Obligations.StoresChangeTheirBytes : Prop :=
  ∀ (i : Instr) (s : State) (ea : Word) (n a : Nat), memOf i s = some (.write, ea, n) → ready .sc i.guard i s = true →
    reaches s .write ea n a → (n < 8 → poisoned s a = false) →
    (badFmtStore s ea (natLe n (storedNat i s)) = true → exec i s = .next (raise 1 0x13 (some (execTval .sc s)) s)) ∧
    (badFmtStore s ea (natLe n (storedNat i s)) = false →
    (s.MemOk → storesNow s ea = true → ∃ t, exec i s = .next t
      ∧ (∀ j, j < n → t.readByte (a + j) = BitVec.ofNat 8 (storedNat i s / 256 ^ j))
      ∧ (∀ b, b < a ∨ a + n ≤ b →
        (sameKeys s (cellsAt a (natLe n (storedNat i s))) ∧ sameKey s.keyed b = true) ∨ (∀ j, j < n → homeBlock b ≠ homeBlock (a + j)) →
        t.readByte b = s.readByte b)
      ∧ t.c = s.c ∧ t.mon = s.mon ∧ t.fe = s.fe ∧ t.links = s.links ∧ t.health = s.health ∧ t.bind = s.bind
      ∧ t.inputs = s.inputs ∧ t.world = s.world ∧ t.me = s.me)
    ∧ (∀ sp, s.c.spec = some sp → sp.held.length < 32 → exec i s = .next (s.onC fun c => { c with
        spec := some { sp with held := sp.held ++ [⟨cellsAt a (natLe n (storedNat i s)), inDescTable s ea⟩] } }))
    ∧ (s.c.spec = none → s.c.txn.act = true → inDescTable s ea = true →
      exec i s = .next (joinTxn (.store (cellsAt a (natLe n (storedNat i s)))) s)))

/-- R106: the faults of a scalar access, for all 31 scalar memory words. -/
def Obligations.MisalignedAccessFaults : Prop :=
  (∀ (i : Instr) (s : State) (k : Acc) (ea : Word) (n : Nat), memOf i s = some (k, ea, n) → ready .sc i.guard i s = true →
    (ea.toNat % n ≠ 0 → exec i s = .next (raise 1 0x32 (some (tvalVa k 3 ea.toNat)) s))
    ∧ (∀ f, ea.toNat % n = 0 → ea.toNat / 2 ^ 40 ≠ 0xFFD → translate s s.c.info.ctx k false ea.toNat = .error f →
      exec i s = .next (raise 1 (if f.perm then 0x34 else 0x33) (some f.tval) s)))
  ∧ ∀ (s : State) (ctx : Nat) (k : Acc) (dev : Bool) (va : Nat), 2 ^ 52 ≤ va →
    translate s ctx k dev va = .error ⟨false, tvalVa k 3 va⟩

/-- R112 and R113: the unranked atomics, y being sb and old the word at home. The word of a code that is no format is log 83. -/
def Obligations.AtomicsActAtHome : Prop :=
  ∀ (g : Guard) (d a b : BitVec 6) (k : BitVec 2) (s : State) (h : Nat) (old y new : Word) (i : Instr),
    (i, new) ∈ [(.amoAdd g d a b k, old + y),
      (.amoAnd g d a b k, old &&& y),
      (.amoOr g d a b k, old ||| y),
      (.amoXor g d a b k, old ^^^ y),
      (.amoMax g d a b k, if old.toInt < y.toInt then y else old),
      (.amoMin g d a b k, if y.toInt < old.toInt then y else old),
      (.amoXchg g d a b k, y),
      (.amoCas g d a b k, if old = s.rdS d then y else old),
      (.amob g d a b k, if old.toNat < y.toNat then old + 1 else old)] →
    ready .sc g i s = true → reaches s .atomic (s.rdS a) 8 h → homePoisoned s h = false → s.c.txn.act = false → s.c.txn.acts = [] →
    old = homeWord s h → y = s.rdS b →
    (badFmtStore s (s.rdS a) (natLe 8 new.toNat) = false →
      exec i s = .next ((writeVar .sc d old s).write (cellsAt h (natLe 8 new.toNat))))
    ∧ (badFmtStore s (s.rdS a) (natLe 8 new.toNat) = true → exec i s = .next (raise 1 0x13 (some (execTval .sc s)) s))

/-- R114 and R115: the ranked forms; their effect is PHASE_BOUNDARY_COMPLETE's. -/
def Obligations.RankedAtomicsWait : Prop :=
  ∀ (g : Guard) (d a b : BitVec 6) (k : BitVec 2) (s : State) (h op : Nat) (i : Instr),
    (i, op) ∈ [(.amoAddR g d a b k, 0), (.amoAndR g d a b k, 1), (.amoOrR g d a b k, 2), (.amoXorR g d a b k, 3), (.amoMaxR g d a b k, 4), (.amoMinR g d a b k, 5), (.amoXchgR g d a b k, 6), (.amoCasR g d a b k, 7), (.amobR g d a b k, 8)] →
    ready .sc g i s = true → reaches s .atomic (s.rdS a) 8 h → homePoisoned s h = false →
    (s.c.txn.act = true → exec i s = .next (raise 1 0xA2 none s))
    ∧ (s.c.txn.act = false → 64 ≤ s.c.ranked.length → exec i s = .next (raise 1 0x83 none s))
    ∧ (s.c.txn.act = false → s.c.ranked.length < 64 → exec i s = .next ((undoS d s).onC fun c =>
      { c with ranked := c.ranked ++ [⟨op, h, s.rdS b, s.rdS d, destCell s d, nextPhase s.c⟩] }))

/-- Read after write over memory; that unlisted memory reads as zero is the model's choice (log 2). -/
def Obligations.MemoryReadsBack : Prop :=
  ∀ (s : State) (a : Nat) (bs : List Byte), s.MemOk → homePhys a + bs.length ≤ 2 ^ 80 →
    (∀ j (h : j < bs.length), (s.write (cellsAt a bs)).memByte (a + j) = bs[j])
    ∧ (∀ b, b < a ∨ a + bs.length ≤ b →
      (sameKeys s (cellsAt a bs) ∧ sameKey s.keyed b = true) ∨ (∀ j, j < bs.length → homeBlock b ≠ homeBlock (a + j)) →
      (s.write (cellsAt a bs)).memByte b = s.memByte b)
    ∧ (s.write (cellsAt a bs)).MemOk ∧ memGet [] a = 0

/-- What reset leaves; the zeros of registers without a Reset column are the model's choice (log 1). -/
def Obligations.ResetState : Prop :=
  let s := State.reset
  s.inputs = [] ∧ s.c.info.running = false ∧ s.mon.ctxs = [] ∧ s.fe.launches = [] ∧ s.fe.queues = [] ∧ s.links.conns = []
  ∧ (∀ i : Fin 64, s.c.r.s[i] = 0) ∧ (∀ i : Fin 32, s.c.r.h[i] = 0) ∧ (∀ i : Fin 32, s.c.r.stg[i] = 0)
  ∧ (∀ i : Fin 8, s.c.srec[i] = 0) ∧ s.c.r.p = 1 ∧ s.c.r.rpos = 0 ∧ s.c.r.mtol = 0 ∧ s.c.r.lsel = 0
  ∧ s.c.trap.tstat = 0 ∧ s.c.trap.tpc = 0 ∧ s.c.trap.tval = 0 ∧ s.c.trap.isav = 0 ∧ s.c.trap.handler = false
  ∧ s.c.trap.undo = [] ∧ s.c.loops = [] ∧ (∀ i : Fin 16, s.c.m[i] = ⟨false, [], [], [], [], false⟩)
  ∧ (∀ i : Fin 8, s.c.arr.planes[i] = Plane.empty) ∧ (∀ i : Fin 8, (s.c.z[i]).bound = false) ∧ s.mem = [] ∧ s.MemOk

/-- The canonical form is an invariant of every step, from any state that has it. -/
def Obligations.StepKeepsMemoryCanonical : Prop :=
  ∀ (s t : State), s.MemOk → step s = .next t → t.MemOk

/-- R371's last sentence but one, over all instructions: rett leaves handler mode, no other instruction leaves it. -/
def Obligations.WordsKeepHandlerMode : Prop :=
  (∀ (i : Instr) (s t : State), i.slot.isSome = true → exec i s = .next t → s.c.trap.handler = true →
    t.c.trap.handler = true)
  ∧ ∀ (st : Nat) (s : State), s.c.trap.handler = true → s.c.bun.rett = false → (completeBundle st s).c.trap.handler = true

/-- R125: one row operation over the active plane P. -/
def Obligations.RowOperationSums : Prop :=
  ∀ (g : Guard) (h : BitVec 5) (rs : BitVec 6) (l : BitVec 2) (t : BitVec 3) (s : State) (i : Instr) (clear : Bool)
    (fx x : Tens) (o r : Nat) (p : Plane) (xs : List (Machine.Num × Machine.Num)),
    (i, clear) ∈ [(.apush g h rs l t, true), (.aacc g h rs l t, false)] → ready .ar g i s = true →
    useTens s h none = .ok fx → o = (s.rdS rs).toNat → r = o % 128 → pushCheck fx (latchOf s l) o s = .ok () →
    useTens s h (some false) = .ok x → twoDim x = .ok () → pipeReads s x false (pushIdxs x (latchOf s l) o s) = .ok () →
    rowActivations s x (latchOf s l) o = .ok xs → p = activePlane s.c.arr (latchOf s l) → p.n ≤ 128 →
    SMap.risesFrom 0 s.c.arr.acc = true →
    ∃ u, exec i s = .next u
      ∧ (∀ j, j < p.n → accGet u.c.arr t.toNat r j =
        columnSum p (anchorOf s.c.arr t.toNat) xs j (if clear then 0 else accGet s.c.arr t.toNat r j))
      ∧ (∀ j, p.n ≤ j → j < 128 → accGet u.c.arr t.toNat r j = if clear then 0 else accGet s.c.arr t.toNat r j)
      ∧ (∀ t' r' j, r' < 128 → j < 128 → t' ≠ t.toNat ∨ r' ≠ r → accGet u.c.arr t' r' j = accGet s.c.arr t' r' j)
      ∧ u = { s with c := { s.c with arr := { s.c.arr with
          acc := u.c.arr.acc, upset := u.c.arr.upset, last := some ⟨if clear then 1 else 3, s.rdH h, l, t, o⟩ } } }
      ∧ (clear = false → u.c.arr.upset = s.c.arr.upset)

/-- R120 to R132 but for the pushes. How a residue comes not to match is the model's input (log 80); that a watermark is tested at
its level of the bundle's entry is log 98. -/
def Obligations.ArrayWords : Prop :=
  (∀ (g : Guard) (h : BitVec 5) (rs : BitVec 6) (t : BitVec 3) (s : State) (x : Tens) (o : Nat) (outs : List (Nat × Flags))
    (cells : List Host.Cell), ready .ar g (.adrn g h rs t) s = true → useTens s h none = .ok x → o = (s.rdS rs).toNat →
    drainCheck x o s = .ok () → pipeWrites s x (drainIdxs x o) = .ok () →
    outs = (List.range (drainIdxs x o).length).map (fun j =>
      let e := accGet s.c.arr t.toNat (o % 128) j
      match (fscaleOf s.c.arr t.toNat).bind fun l => l[j]? with
      | some k => faDrainScaled (anchorOf s.c.arr t.toNat) e (decodeNum 0 [] k.toNat) x.d.fmt
      | none => faDrain (anchorOf s.c.arr t.toNat) e x.d.fmt) →
    regionCells s x ((drainIdxs x o).zip (outs.map (·.1))) = .ok cells → partialPoison s cells = false →
    (∀ j, j < (drainIdxs x o).length → s.c.arr.upset.contains (accKey t.toNat (o % 128) j) = false) → s.c.spec = none →
    ∀ old level hit, old = s.c.wm[t.toNat]'t.isLt → level = wmAtEntry t.toNat s →
    hit = (List.range (drainIdxs x o).length).any (fun j => (accGet s.c.arr t.toNat (o % 128) j).fV
      || decide (2 ^ (level.toNat % 128) ≤ (accGet s.c.arr t.toNat (o % 128) j).fI.natAbs)) →
    exec (.adrn g h rs t) s = .next (raiseFlags .ar (outs.foldl (fun f o => f ||| o.2) 0) ((s.write cells).onC fun c => { c with
      arr := { s.c.arr with last := some ⟨4, s.rdH h, 0, t, o⟩ }
      wm := s.c.wm.set t.toNat (if level.getLsbD 7 && hit && !old.getLsbD 63 then
        (old &&& 0xFF) ||| 0x8000000000000000 ||| (BitVec.ofNat 64 (o % 128) <<< 48) else old) t.isLt })))
  ∧ (∀ (g : Guard) (h : BitVec 5) (rs : BitVec 6) (t : BitVec 3) (s : State) (x : Tens) (o j : Nat) (outs : List (Nat × Flags))
    (cells : List Host.Cell), ready .ar g (.adrn g h rs t) s = true → useTens s h none = .ok x → o = (s.rdS rs).toNat →
    drainCheck x o s = .ok () → pipeWrites s x (drainIdxs x o) = .ok () →
    outs = (List.range (drainIdxs x o).length).map (fun j =>
      let e := accGet s.c.arr t.toNat (o % 128) j
      match (fscaleOf s.c.arr t.toNat).bind fun l => l[j]? with
      | some k => faDrainScaled (anchorOf s.c.arr t.toNat) e (decodeNum 0 [] k.toNat) x.d.fmt
      | none => faDrain (anchorOf s.c.arr t.toNat) e x.d.fmt) →
    regionCells s x ((drainIdxs x o).zip (outs.map (·.1))) = .ok cells → partialPoison s cells = false →
    (List.range (drainIdxs x o).length).find? (fun k => s.c.arr.upset.contains (accKey t.toNat (o % 128) k)) = some j →
    s.c.mismatch = none → ∃ u, exec (.adrn g h rs t) s = .next u
      ∧ u.c.mismatch = some ⟨2, 0xF3, BitVec.ofNat 64 (2 * 2 ^ 17 + t.toNat * 2 ^ 14 + o % 128 * 2 ^ 7 + j)⟩
      ∧ (∀ b, memGet u.mem b ≠ memGet s.mem b → ∃ c ∈ cells, homeBlock c.1 = homeBlock b)
      ∧ u = { s with mem := u.mem, outer := u.outer, keyed := u.keyed, poison := u.poison, cleaned := u.cleaned
                     health := { s.health with resid := u.health.resid }
                     c := { s.c with mismatch := u.c.mismatch, fresh := u.c.fresh, srec := u.c.srec, wm := u.c.wm
                                     arr := { s.c.arr with last := some ⟨4, s.rdH h, 0, t, o⟩ } } })
  ∧ (∀ (g : Guard) (b : BitVec 4) (s t : State) (r : LastRow) (x : Tens) (f : Nat → Res Unit),
    ready .ar g (.ashf g b) s = true → s.c.arr.last = some r → resolve s r.hv none = .ok x →
    f = (fun k => if r.op = 4 then drainCheck x (r.off + 1 + k) s else pushCheck x (latchOf s r.l) (r.off + 1 + k) s) →
    together ((List.range (b.toNat + 1)).map f) = .ok () →
    ∀ y, resolve s r.hv (if r.op = 4 then none else some false) = .ok y → twoDim y = .ok () →
    together ((List.range (b.toNat + 1)).map fun k => if r.op = 4 then pipeWrites s y (drainIdxs y (r.off + 1 + k))
      else pipeReads s y false (pushIdxs y (latchOf s r.l) (r.off + 1 + k) s)) = .ok () →
    repeatRows y r (latchOf s r.l) (b.toNat + 1) (r.off + 1) s = .ok t →
    exec (.ashf g b) s = .next (onArr (fun a => { a with last := some { r with off := r.off + (b.toNat + 1) } }) t))
  ∧ (∀ (g : Guard) (b : BitVec 4) (s : State), ready .ar g (.ashf g b) s = true → s.c.arr.last = none →
    exec (.ashf g b) s = .next (raise 2 0x07 (some (BitVec.ofNat 64 (5 * 2 ^ 32))) s))
  ∧ (∀ (g : Guard) (h : BitVec 5) (rs : BitVec 6) (l : BitVec 2) (s : State) (fx x : Tens) (o k n : Nat)
    (ws : List (List (Machine.Num × Machine.Num))), ready .ar g (.alds g h rs l) s = true → useTens s h none = .ok fx →
    o = (s.rdS rs).toNat → rowIn fx o = .ok () → k = min (fmtDepth fx.d.fmt) ((fx.ext[0]?).getD 0 - o) →
    n = min 128 ((fx.ext[1]?).getD 0) →
    rowsReach s .read true fx ((List.range k).flatMap fun i => sliceRows fx (o + i) n) = .ok () →
    useTens s h (some true) = .ok x → twoDim x = .ok () →
    pipeReads s x true ((List.range k).flatMap fun i => (List.range n).map fun j => [o + i, j]) = .ok () →
    (List.range k).mapM (fun i => mapRead (fun c => do
      let code ← codeAt s x c
      let v ← scaleAt s x.d x.scale true (coords x c)
      .ok (valOfCode x code, v)) ((List.range n).map fun j => [o + i, j])) = .ok ws →
    ∃ p, exec (.alds g h rs l) s = .next (onArr (setPlane (2 * latchOf s l + 1) p) s)
      ∧ p.kp = 32 * ((k + 31) / 32) ∧ p.n = n ∧ p.fmt = x.d.fmt ∧ p.w.length = p.kp ∧ p.sc.length = p.kp
      ∧ (∀ i j, i < k → j < n → (p.w.getD i []).getD j .nan = ((ws.getD i []).getD j (.nan, .nan)).1
        ∧ (p.sc.getD i []).getD j .nan = ((ws.getD i []).getD j (.nan, .nan)).2)
      ∧ ∀ i j, k ≤ i → i < p.kp → j < n → (p.w.getD i []).getD j .nan = Machine.Num.zero)
  ∧ (∀ (g : Guard) (l : BitVec 2) (s : State), ready .ar g (.aswp g l) s = true →
    ∃ u, exec (.aswp g l) s = .next u
      ∧ (∀ i, i < 8 → u.c.arr.planes[i]? = s.c.arr.planes[if i / 2 = latchOf s l then (if i % 2 = 0 then i + 1 else i - 1) else i]?)
      ∧ u = { s with c := { s.c with arr := { s.c.arr with planes := u.c.arr.planes } } })
  ∧ (∀ (g : Guard) (l : BitVec 2) (s : State), ready .ar g (.asel g l) s = true →
    exec (.asel g l) s = .next (post .ar .lsel (l.setWidth 256) 1 (pushUndo 4 0 (s.c.r.lsel.setWidth 256) s)))
  ∧ (∀ (g : Guard) (t : BitVec 3) (rs : BitVec 6) (im : BitVec 10) (s : State) (v : BitVec 10) (i : Instr),
    (i, v) ∈ [(.acfg g t rs, (s.rdS rs).setWidth 10), (.acfgImm g t im, im)] → ready .ar g i s = true →
    exec i s = .next (onArr (fun a => { a with
      anchor := a.anchor.set t.toNat v t.isLt, fscale := a.fscale.set t.toNat none t.isLt }) s))
  ∧ (∀ (g : Guard) (t : BitVec 3) (s : State), ready .ar g (.azr g t) s = true →
    ∃ u, exec (.azr g t) s = .next u
      ∧ (∀ r j, r < 128 → j < 128 → accGet u.c.arr t.toNat r j = 0)
      ∧ (∀ t' r j, r < 128 → j < 128 → t' ≠ t.toNat → accGet u.c.arr t' r j = accGet s.c.arr t' r j)
      ∧ u = { s with c := { s.c with arr := { s.c.arr with
          acc := u.c.arr.acc, upset := u.c.arr.upset, fscale := s.c.arr.fscale.set t.toNat none t.isLt } } })
  ∧ (∀ (g : Guard) (m : BitVec 4) (l : BitVec 2) (t : BitVec 3) (p : BitVec 1) (s : State) (x : MReg),
    ready .ar g (.afac g m l t p) s = true → x = s.c.m[m.toNat]'m.isLt →
    ((s.c.mxq.any fun q => mxDst q.i == some m && decide (q.no < s.c.cmdNo)) = true →
      exec (.afac g m l t p) s = .next (stalled s))
    ∧ ((s.c.mxq.any fun q => mxDst q.i == some m && decide (q.no < s.c.cmdNo)) = false →
      (x.poison = true → exec (.afac g m l t p) s = .next (raise 2 0x41 none s))
      ∧ (x.poison = false → x.dense = true →
        exec (.afac g m l t p) s = .next (raise 2 0x07 (some (BitVec.ofNat 64 (8 * 2 ^ 32))) s))
      ∧ (x.poison = false → x.dense = false → ∃ pl,
        exec (.afac g m l t p) s = .next (onArr (fun a => { setPlane (2 * latchOf s l + 1) pl a with
          fscale := a.fscale.set t.toNat (if p = 0 then some x.s else none) t.isLt }) s)
        ∧ (x.s = [] → pl = Plane.empty)
        ∧ (x.s ≠ [] → p = 0 → pl.kp = 128 ∧ pl.n = x.s.length
          ∧ ∀ r c, r < 128 → (pl.w.getD r []).getD c .nan =
            ((x.u[c]?).map fun col => decodeNum 1 [] ((col[r]?).getD 0).toNat).getD .nan)
        ∧ (x.s ≠ [] → p = 1 → pl.kp = 32 * ((x.s.length + 31) / 32) ∧ pl.n = 128
          ∧ ∀ k c, k < x.v.length → (pl.w.getD k []).getD c .nan =
            (((x.v.getD k [])[c]?).map fun b => decodeNum 1 [] b.toNat).getD .nan))))
  ∧ ∀ (g : Guard) (t : BitVec 3) (rs : BitVec 6) (s : State) (v : Word), ready .ar g (.awm g t rs) s = true →
    v = BitVec.ofNat 64 ((s.rdS rs).toNat % 128 + if (s.rdS rs).toNat % 128 ≤ 123 then 128 else 0) →
    exec (.awm g t rs) s = .next ((pushUndo 3 (BitVec.ofNat 12 (0x50 + t.toNat)) ((s.c.wm[t.toNat]'t.isLt).setWidth 256) s).onC
      fun c => { c with wm := c.wm.set t.toNat v t.isLt, inflight := c.inflight.filter fun e => e.dst != .sp (0x50 + t.toNat) })

/-- R133 to R135 and Table 7-6 for the arithmetic of values. Reason 2 before reason 1 is log 24, the NV of a source's code times its
scale log 81: the model's readings. -/
def Obligations.VectorArithmetic : Prop :=
  (∀ (i : Instr) (s : State) (td : Tens) (ts : List Tens) (outs : List (Nat × Flags)), vecReady i s td ts →
    perIndex (allIdx td.ext) (fun idx => do
      let vs ← ts.mapM fun x => srcVal s td x idx
      match elemExact i vs with
      | some (x, f1) => do
        let (c, f2) ← outCode s td 0 idx x
        .ok (c, f1 ||| f2)
      | none => .error ⟨false, 0⟩) = .ok outs →
    (∃ vs, (elemExact i vs).isSome = true) → writesElems i s td ts (allIdx td.ext) outs)
  ∧ ∀ (i : Instr) (s : State) (d : BitVec 5) (xs : List (BitVec 5)) (fd : Tens) (fs : List Tens),
    vecHandles i = some (d, xs) → (∃ vs, (elemExact i vs).isSome = true) → ready .ve i.guard i s = true →
    vecTens s d xs = .ok (fd, fs) →
    (16384 < count fd.ext →
      exec i s = .next (raise 3 0x07 (some (BitVec.ofNat 64 (2 * 2 ^ 32 + count fd.ext % 2 ^ 32))) s))
    ∧ (count fd.ext ≤ 16384 → (fs.any fun x => x.ext != fd.ext && count x.ext != 1) = true →
      exec i s = .next (raise 3 0x07 (some (BitVec.ofNat 64 (1 * 2 ^ 32))) s))

/-- R136 to R139: the other elementwise words. The flags of a source's code times its scale are log 81, the model's reading. -/
def Obligations.VectorElementWords : Prop :=
  (∀ (g : Guard) (d a : BitVec 5) (s : State) (i : Instr) (f : TransFn) (td ta : Tens) (outs : List (Nat × Flags)),
    (i, f) ∈ [(.vexp g d a, .exp), (.vexp2 g d a, .exp2), (.vlog2 g d a, .log2), (.vrcp g d a, .rcp), (.vrsq g d a, .rsq), (.vsqrt g d a, .sqrt), (.vtanh g d a, .tanh), (.vsigm g d a, .sigm)] →
    ready .ve g i s = true → wholeTensor s .write true d = .ok td → wholeTensor s .read true a (some false) = .ok ta →
    vecShape td [ta] = .ok () → td.d.fmt ≤ 1 → vecReach s td [ta] = .ok () →
    perIndex (allIdx td.ext) (fun idx => do
      let v ← srcVal s td ta idx
      .ok (trans f td.d.fmt v)) = .ok outs → writesElems i s td [ta] (allIdx td.ext) outs)
  ∧ (∀ (g : Guard) (d a b : BitVec 5) (c : BitVec 4) (s : State) (fa td ta tb : Tens) (raw : Bool)
    (outs : List (Nat × Flags)), ready .ve g (.vcmp g d a b c) s = true → wholeTensor s .write true d (some false) = .ok td →
    wholeTensor s .read true a = .ok fa → raw = (decide (6 < fa.d.fmt) && [4, 5, 8, 9].contains c.toNat) →
    useTens s a (if raw then none else some false) = .ok ta →
    wholeTensor s .read true b (if raw then none else some false) = .ok tb →
    vecShape td [ta, tb] = .ok () → (fa.d.fmt ≤ 6 → c.toNat < 8) → vecReach s td [ta, tb] = .ok () →
    perIndex (allIdx td.ext) (fun idx => do
      let x ← srcVal s td ta idx
      let y ← srcVal s td tb idx
      let p ← srcCode s td ta idx
      let q ← srcCode s td tb idx
      outCode s td 0 idx (if (if fa.d.fmt ≤ 6 then condNum c.toNat x y else condElem c.toNat x y p q) then Machine.Num.one
        else Machine.Num.zero)) = .ok outs → writesElems (.vcmp g d a b c) s td [ta, tb] (allIdx td.ext) outs)
  ∧ (∀ (g : Guard) (d a b : BitVec 5) (s : State) (i : Instr) (f : Nat → Nat → Nat) (td ta tb : Tens)
    (outs : List (Nat × Flags)), (i, f) ∈ [(.vand g d a b, Nat.land), (.vor g d a b, Nat.lor), (.vxor g d a b, Nat.xor)] →
    ready .ve g i s = true → wholeTensor s .write true d = .ok td → wholeTensor s .read true a = .ok ta →
    wholeTensor s .read true b = .ok tb → vecShape td [ta, tb] = .ok () →
    (ta.d.fmt ≠ tb.d.fmt ∨ ta.d.fmt ≠ td.d.fmt →
      exec i s = .next (raise 3 0x07 (some (BitVec.ofNat 64 (7 * 2 ^ 32))) s))
    ∧ (ta.d.fmt = tb.d.fmt → ta.d.fmt = td.d.fmt → vecReach s td [ta, tb] = .ok () →
      perIndex (allIdx td.ext) (fun idx => do
        let x ← srcCode s td ta idx
        let y ← srcCode s td tb idx
        .ok (f x y, 0)) = .ok outs → writesElems i s td [ta, tb] (allIdx td.ext) outs))
  ∧ (∀ (g : Guard) (d a b : BitVec 5) (s : State) (i : Instr) (left : Bool) (td ta tb : Tens) (outs : List (Nat × Flags)),
    (i, left) ∈ [(.vshl g d a b, true), (.vshr g d a b, false)] → ready .ve g i s = true →
    wholeTensor s .write true d = .ok td → wholeTensor s .read true a = .ok ta → wholeTensor s .read true b = .ok tb →
    vecShape td [ta, tb] = .ok () → 7 ≤ tb.d.fmt → tb.d.fmt ≤ 13 → ta.d.fmt = td.d.fmt → vecReach s td [ta, tb] = .ok () →
    perIndex (allIdx td.ext) (fun idx => do
      let x ← srcCode s td ta idx
      let y ← srcCode s td tb idx
      let n := (intOfCode tb.d.fmt y % (fmtWidth ta.d.fmt : Int)).toNat
      .ok (if left then x * 2 ^ n % 2 ^ fmtWidth ta.d.fmt else shrCode ta.d.fmt x n, 0)) = .ok outs →
    writesElems i s td [ta, tb] (allIdx td.ext) outs)
  ∧ (∀ (g : Guard) (d a : BitVec 5) (m : BitVec 2) (s : State) (td ta : Tens) (outs : List (Nat × Flags)) (i : Instr)
    (mode : Nat), ready .ve g i s = true →
    (i = .vcvt g d a m ∧ mode = m.toNat ∧ wholeTensor s .write true d (some false) = .ok td
        ∧ wholeTensor s .read true a (some false) = .ok ta)
      ∨ (i = .vdqnt g d a ∧ mode = 0 ∧ td.d.fmt ≤ 2 ∧ wholeTensor s .write true d = .ok td
        ∧ wholeTensor s .read true a (some false) = .ok ta)
      ∨ (i = .vcbk g d a ∧ mode = 0 ∧ td.d.fmt ≤ 2 ∧ 16 ≤ ta.d.fmt ∧ ta.d.fmt ≤ 21 ∧ wholeTensor s .write true d = .ok td
        ∧ wholeTensor s .read true a = .ok ta)
      ∨ (i = .vmov g d a ∧ mode = 0 ∧ ∃ fd fa, wholeTensor s .write true d = .ok fd ∧ wholeTensor s .read true a = .ok fa
        ∧ fd.d.fmt ≠ fa.d.fmt ∧ useTens s d (some false) = .ok td ∧ useTens s a (some false) = .ok ta) →
    vecShape td [ta] = .ok () → vecReach s td [ta] = .ok () →
    perIndex (allIdx td.ext) (fun idx => do
      let v ← srcVal s td ta idx
      outCode s td mode idx v) = .ok outs → writesElems i s td [ta] (allIdx td.ext) outs)
  ∧ (∀ (g : Guard) (d a : BitVec 5) (s : State) (fd fa : Tens) (codes : List Nat), ready .ve g (.vmov g d a) s = true →
    wholeTensor s .write true d = .ok fd → wholeTensor s .read true a = .ok fa → vecShape fd [fa] = .ok () → fd.d.fmt = fa.d.fmt → vecReach s fd [fa] = .ok () →
    perIndex (allIdx fd.ext) (fun idx => srcCode s fd fa idx) = .ok codes →
    writesElems (.vmov g d a) s fd [fa] (allIdx fd.ext) (codes.map fun c => (c, 0)))
  ∧ ∀ (g : Guard) (d a : BitVec 5) (s : State) (fd fa : Tens), ready .ve g (.vdqnt g d a) s = true →
    wholeTensor s .write true d = .ok fd → wholeTensor s .read true a (some false) = .ok fa → vecShape fd [fa] = .ok () → 2 < fd.d.fmt →
    exec (.vdqnt g d a) s = .next (raise 3 0x13 (some (execTval .ve s)) s)

/-- R139 to R142. The one-element source of vexpd (log 27), the flags of the sources' scaled values (log 81), viota without a wrap (log
82) and the element at a negative index of vperm (log 6) are the model's. -/
def Obligations.VectorRowWords : Prop :=
  (∀ (g : Guard) (d a : BitVec 5) (s : State) (i : Instr) (use : Option Bool) (td ta : Tens) (outs : List (Nat × Flags))
    (f : List Nat → List Machine.Num → Except TransFault (Nat × Flags)),
    (i, use, f) ∈ [(.vsum g d a, none, fun _ vs => .ok (faDrain td.d.anchor.toInt (vs.foldl (faAdd td.d.anchor.toInt) 0) td.d.fmt)),
      (.vmaxr g d a, some false, fun r vs => outCode s td 0 (r ++ [0]) (match vs with | [] => .inf true | v :: l => l.foldl Machine.Num.maxN v)),
      (.vminr g d a, some false, fun r vs => outCode s td 0 (r ++ [0]) (match vs with | [] => .inf false | v :: l => l.foldl Machine.Num.minN v)),
      (.vpopc g d a, some false, fun r vs => outCode s td 0 (r ++ [0]) (.ofInt (vs.filter fun v => !v.isZero).length))] →
    ready .ve g i s = true → wholeTensor s .write true d use = .ok td → wholeTensor s .read true a (some false) = .ok ta →
    count td.ext ≤ 16384 → count ta.ext ≤ 16384 → td.ext = ta.ext.dropLast ++ [1] →
    (i = .vsum g d a → td.d.fmt ≤ 2 ∧ s.c.upsets.contains 3 = false) → vecReach s td [ta] = .ok () →
    perIndex (rowsOf ta.ext) (fun r => do
      let vs ← (List.range (rowLen ta.ext)).mapM fun j => valAt s ta false (r ++ [j])
      f r vs) = .ok outs → writesElems i s td [ta] ((rowsOf ta.ext).map (· ++ [0])) outs)
  ∧ (∀ (g : Guard) (d a : BitVec 5) (s : State) (fd ta : Tens) (rows : List (List (Nat × Flags))),
    ready .ve g (.vscan g d a) s = true → wholeTensor s .write true d = .ok fd →
    wholeTensor s .read true a (some false) = .ok ta → count fd.ext ≤ 16384 → fd.ext = ta.ext → fd.d.fmt ≤ 2 →
    s.c.upsets.contains 3 = false → vecReach s fd [ta] = .ok () →
    perIndex (rowsOf ta.ext) (fun r => do
      let vs ← (List.range (rowLen ta.ext)).mapM fun j => valAt s ta false (r ++ [j])
      .ok ((List.range vs.length).map fun n =>
        faDrain fd.d.anchor.toInt ((vs.take (n + 1)).foldl (faAdd fd.d.anchor.toInt) 0) fd.d.fmt)) = .ok rows →
    writesElems (.vscan g d a) s fd [ta] (allIdx fd.ext) rows.flatten)
  ∧ (∀ (g : Guard) (d a b : BitVec 5) (s : State) (td ta tb : Tens) (i : Instr)
    (f : List Nat → Except TransFault (List Machine.Num)) (rows : List (List (Nat × Flags))), ready .ve g i s = true →
    wholeTensor s .write true d (some false) = .ok td → wholeTensor s .read true a (some false) = .ok ta →
    wholeTensor s .read true b (some false) = .ok tb →
    (i = .vcmpr g d a b ∧ vecShape td [ta, tb] = .ok () ∧ f = (fun r => do
        let xs ← rowVals s td ta r
        let ks ← rowVals s td tb r
        let kept := ((xs.zip ks).filter fun x => !x.2.isZero).map (·.1)
        .ok (kept ++ List.replicate (rowLen td.ext - kept.length) Machine.Num.zero)))
      ∨ (i = .vexpd g d a b ∧ vecShape td [tb] = .ok ()
        ∧ (count ta.ext = 1 ∨ ta.ext.length = td.ext.length ∧ ta.ext.dropLast = td.ext.dropLast) ∧ f = (fun r => do
        let xs ← if count ta.ext = 1 then rowVals s td ta r
          else (List.range (rowLen ta.ext)).mapM fun j => valAt s ta false (r ++ [j])
        let ks ← rowVals s td tb r
        .ok (spread (ks.map fun k => !k.isZero) xs))) →
    vecReach s td [ta, tb] = .ok () →
    perIndex (rowsOf td.ext) (fun r => do
      let vs ← f r
      (vs.zipIdx).mapM fun x => outCode s td 0 (r ++ [x.2]) x.1) = .ok rows →
    writesElems i s td [ta, tb] (allIdx td.ext) rows.flatten)
  ∧ (∀ (g : Guard) (d a b : BitVec 5) (s : State) (tb td ta : Tens) (rows : List (List (Nat × Flags)))
    (cells : List Host.Cell) (nv : Flags), ready .ve g (.vperm g d a b) s = true →
    wholeTensor s .write true d (some false) = .ok td → wholeTensor s .read true a (some false) = .ok ta →
    wholeTensor s .read true b = .ok tb → vecShape td [ta, tb] = .ok () →
    7 ≤ tb.d.fmt → tb.d.fmt ≤ 13 → sourceNv s [ta, tb] = .ok nv → vecReach s td [ta, tb] = .ok () →
    perIndex (rowsOf td.ext) (fun r => do
      let row ← rowVals s td ta r
      let vs ← (List.range (rowLen td.ext)).mapM fun j => do
        let k ← srcCode s td tb (r ++ [j])
        let n := intOfCode tb.d.fmt k
        .ok (if n < 0 then decodeNum 0 [] ((Config.freeWord (s.c.fresh + (r ++ [j]).foldl (fun n i => n * 65536 + i) 0)).toNat % 2 ^ 32)
          else if n.toNat < row.length then row.getD n.toNat .nan else Machine.Num.zero)
      (vs.zipIdx).mapM fun x => outCode s td 0 (r ++ [x.2]) x.1) = .ok rows →
    regionCells s td ((allIdx td.ext).zip (rows.flatten.map (·.1))) = .ok cells → partialPoison s cells = false →
    s.c.spec = none → ∃ n, exec (.vperm g d a b) s = .next
      ((raiseFlags .ve (rows.flatten.foldl (fun f o => f ||| o.2) nv) (s.write cells)).onC fun c => { c with fresh := n }))
  ∧ (∀ (g : Guard) (d : BitVec 5) (a b : BitVec 6) (s : State) (td : Tens) (i : Instr) (outs : List (Nat × Flags)),
    ready .ve g i s = true → vecShape td [] = .ok () → vecReach s td [] = .ok () →
    (i = .vbcast g d a ∧ wholeTensor s .write true d (some false) = .ok td
        ∧ perIndex (allIdx td.ext) (fun idx => outCode s td 0 idx (fp32 (s.rdS a))) = .ok outs)
      ∨ (i = .viota g d a ∧ wholeTensor s .write true d (some false) = .ok td
        ∧ (allIdx td.ext).zipIdx.mapM (fun x => outCode s td 0 x.1 (.ofInt ((s.rdS a).toInt + x.2))) = .ok outs)
      ∨ (i = .vrng g d a b ∧ wholeTensor s .write true d = .ok td ∧ outs = (List.range (allIdx td.ext).length).map fun n =>
        ((rngF (s.rdS a) (s.rdS b + BitVec.ofNat 64 n)).toNat % 2 ^ fmtWidth td.d.fmt, 0)) →
    writesElems i s td [] (allIdx td.ext) outs)
  ∧ ∀ (g : Guard) (d a : BitVec 5) (m : BitVec 2) (s : State) (td ta : Tens) (sc : TBase) (xs : List Machine.Num)
    (homes : List Nat) (scales : List (List Nat × Nat)) (outs : List (Nat × Flags)) (c1 c2 : List Host.Cell) (nv : Flags),
    ready .ve g (.vqnt g d a m) s = true → wholeTensor s .write true d (some false) = .ok td →
    wholeTensor s .read true a (some false) = .ok ta → vecShape td [ta] = .ok () → 3 ≤ td.d.fmt → td.scale = some sc →
    homesOf (elemHomes s .write sc) ((allIdx td.ext).map fun i => scaleCoords td.d false (coords td i)).eraseDups = .ok homes →
    homes.any (emptyAt s) = false → vecReach s { td with scale := none } [ta] = .ok () → sourceNv s [ta] = .ok nv →
    perIndex (allIdx td.ext) (srcVal s td ta) = .ok xs →
    scales = runScales td false ((allIdx td.ext).zip xs) →
    outs = quantCodes td false m.toNat scales ((allIdx td.ext).zip xs) →
    regionCells s td ((allIdx td.ext).zip (outs.map (·.1))) = .ok c1 → codeCells s sc scales = .ok c2 →
    partialPoison s (c1 ++ c2) = false → s.c.spec = none →
    exec (.vqnt g d a m) s = .next (raiseFlags .ve (outs.foldl (fun f o => f ||| o.2) nv) (s.write (c1 ++ c2)))

/-- The frame of the ve slot: what a word that completes leaves unchanged. -/
def Obligations.VectorFrame : Prop :=
  ∀ (i : Instr) (d : BitVec 5) (xs : List (BitVec 5)) (s t : State) (td : Tens), vecHandles i = some (d, xs) →
    (∀ g a m, i ≠ .vqnt g d a m) → ready .ve i.guard i s = true → s.MemOk →
    s.c.spec = none → s.c.info.patch.slots = [] → s.c.emu = none → exec i s = .next t → t.c.bun.stall = false →
    t.c.bun.stopped = false → t.c.lanes = s.c.lanes → useTens s d none = .ok td →
    (∀ idx ∈ allIdx td.ext, ∀ hs, wordHomes s .write (elemAt td.d (coords td idx)).1 = .ok hs → ∀ a ∈ hs, sameKey s.keyed a = true) →
    t = { s with mem := t.mem, outer := t.outer, poison := t.poison, cleaned := t.cleaned, c := { s.c with
        srec := t.c.srec, fresh := t.c.fresh, mismatch := t.c.mismatch, upsets := t.c.upsets } }
    ∧ (∀ k : Nat, k ≠ 3 → t.c.srec[k]? = s.c.srec[k]?)
    ∧ ∀ a, memGet t.mem a ≠ memGet s.mem a → ∃ idx ∈ allIdx td.ext, ∃ hs,
      wordHomes s .write (elemAt td.d (coords td idx)).1 = .ok hs ∧ a ∈ hs

/-- R148, R149: the checks at issue. A source counts with the form, rank and mark that earlier commands will leave it. -/
def Obligations.MatrixIssue : Prop :=
  ∀ (g : Guard) (d a b : BitVec 4) (rs : BitVec 6) (cap : BitVec 7) (s : State) (i : Instr) (md : BitVec 4)
    (srcs : List (BitVec 4)) (x : Word) (want : Option Bool) (result : List (Bool × Nat) → Bool × Nat)
    (r : List (Bool × Nat × Bool)) (dense : Bool) (k need avail : Nat) (tv : Word),
    (i, md, srcs, x, want, result) ∈
      [(.mzr g d, d, [], 0, none, fun _ => (false, 0)), (.mcpy g d a, d, [a], 0, none, fun r => r.headD (false, 0)),
       (.mtrn g d a, d, [a], 0, none, fun r => r.headD (false, 0)),
       (.mscl g d rs, d, [d], s.rdS rs, none, fun r => r.headD (false, 0)), (.mdns g d a, d, [a], 0, none, fun _ => (true, 0)),
       (.madd g d a b, d, [a, b], 0, none, fun r => if r.any (·.1) then (true, 0) else (false, (r.map (·.2)).sum)),
       (.mmul g d a b, d, [a, b], s.src.mtol, none, fun r => if r.any (·.1) then (true, 0)
         else (false, (r.map (·.2)).foldl min 64)),
       (.mrcmp g d a, d, [a], s.src.mtol, some false, fun r => (false, (r.map (·.2)).headD 0)),
       (.mfac g d a cap, d, [a], s.src.mtol, some true, fun _ => (false, cap.toNat))] →
    ready .mx g i s = true → r = srcs.map (predReg s.c) → (dense, k) = result (r.map fun y => (y.1, y.2.1)) →
    need = (if dense then 8 else (k + 7) / 8) → avail = freeGranules s + occOf (predReg s.c md).1 (predReg s.c md).2.1 →
    tv = BitVec.ofNat 64 (avail * 2 ^ 44 + need * 2 ^ 32 + md.toNat * 2 ^ 24 + (if dense then 255 else k) * 2 ^ 16
      + ((r[0]?).map fun y => if y.1 then 255 else y.2.1).getD 0 * 2 ^ 8
      + ((r[1]?).map fun y => if y.1 then 255 else y.2.1).getD 0) →
    exec i s = .next (
      if s.c.mxq.any decides then stalled s
      else if r.any (·.2.2) then raise 4 0x41 none s
      else if want = some false ∧ r.any (·.1) = true then raise 4 0x07 (some (BitVec.ofNat 64 (9 * 2 ^ 32))) s
      else if want = some true ∧ r.any (fun y => !y.1) = true then raise 4 0x07 (some (BitVec.ofNat 64 (10 * 2 ^ 32))) s
      else if dense = false ∧ 64 < k then raise 4 0x60 (some tv) s
      else if avail < need then raise 4 0x61 (some tv) s
      else if s.c.mxq.length < 16 then queued { newCmd .mx i s with x := x, mres := some (md.toNat, dense, k) } s
      else stalled s)

/-- R149, R160, R161: the words that meet memory or a scalar destination. -/
def Obligations.MatrixMemoryIssue : Prop :=
  (∀ (g : Guard) (m : BitVec 4) (h : BitVec 5) (s : State) (t : Tens) (hh rest : List Nat) (hdr : List Nat) (dense : Bool)
    (k : Nat), ready .mx g (.mld g m h) s = true → hasEntry .mx s → s.c.mxq.any decides = false →
    imageTens .read h s = .ok t → 64 ≤ ext0 t → engReads s t false (span 0 64) = .ok hh → engHold s hh = .ok () →
    mapRead (codeAt s t) (span 0 64) = .ok hdr → (dense, k) = ((hdr[0]?).getD 0 == 1, (hdr[1]?).getD 0) →
    (hh.any (emptyAt s) = true ∨ headerWaits s hh = true → exec (.mld g m h) s = .next (stalled s))
    ∧ (hh.any (emptyAt s) = false → headerWaits s hh = false → hh.any (poisoned s) = true → exec (.mld g m h) s = .next (raise 4 0x41 none s))
    ∧ (hh.any (emptyAt s) = false → headerWaits s hh = false → hh.any (poisoned s) = false → badHeader hdr = true →
      exec (.mld g m h) s = .next (raise 4 0x07 (some (BitVec.ofNat 64 (11 * 2 ^ 32))) s))
    ∧ (hh.any (emptyAt s) = false → headerWaits s hh = false → hh.any (poisoned s) = false → badHeader hdr = false → ext0 t < imageSize dense k →
      exec (.mld g m h) s = .next (raise 4 0x07 (some (BitVec.ofNat 64 (12 * 2 ^ 32))) s))
    ∧ (hh.any (emptyAt s) = false → headerWaits s hh = false → hh.any (poisoned s) = false → badHeader hdr = false → imageSize dense k ≤ ext0 t →
      engReads s t false (span 64 (imageSize dense k)) = .ok rest → engHold s rest = .ok () →
      occOf dense k ≤ freeGranules s + occOf (predReg s.c m).1 (predReg s.c m).2.1 →
      exec (.mld g m h) s = .next (queued { newCmd .mx (.mld g m h) s with
        mres := some (m.toNat, dense, k), ts := [t], image := some (dense, k), hd := s.rdH h } s)))
  ∧ (∀ (g : Guard) (m : BitVec 4) (h : BitVec 5) (s : State) (t : Tens) (ws : List Nat) (r : Bool × Nat × Bool),
    ready .mx g (.mst g m h) s = true → hasEntry .mx s → s.c.mxq.any decides = false → imageTens .write h s = .ok t →
    r = predReg s.c m →
    (ext0 t < imageSize r.1 r.2.1 → exec (.mst g m h) s = .next (raise 4 0x07 (some (BitVec.ofNat 64 (12 * 2 ^ 32))) s))
    ∧ (imageSize r.1 r.2.1 ≤ ext0 t → engWrites s t (span 0 (imageSize r.1 r.2.1)) = .ok ws → engHold s ws = .ok () →
      exec (.mst g m h) s = .next (if r.2.2 then raise 4 0x41 none s
        else queued { newCmd .mx (.mst g m h) s with
          ts := [t], image := some (r.1, r.2.1), hd := s.rdH h, cnt := tilesOf ws, wids := [t.d.id] } s)))
  ∧ (∀ (g : Guard) (d a : BitVec 5) (m : BitVec 4) (s : State) (td ta : Tens) (ws rs : List Nat) (r : Bool × Nat × Bool),
    ready .mx g (.mapl g d a m) s = true → hasEntry .mx s → useTens s a (some false) = .ok ta →
    useTens s d none = .ok td → r = predReg s.c m →
    (ta.ext.length ≠ 2 ∨ ta.ext[1]? ≠ some 128 ∨ td.ext ≠ ta.ext ∨ 2 < td.d.fmt →
      exec (.mapl g d a m) s = .next (raise 4 0x07 (some (BitVec.ofNat 64 (12 * 2 ^ 32))) s))
    ∧ (ta.ext.length = 2 → ta.ext[1]? = some 128 → td.ext = ta.ext → td.d.fmt ≤ 2 →
      rowsReach s .read false ta (wholeRows ta) = .ok () → rowsReach s .write false td (wholeRows td) = .ok () →
      engWrites s td (allIdx td.ext) = .ok ws → engReads s ta false (allIdx ta.ext) = .ok rs → engHold s (ws ++ rs) = .ok () →
      exec (.mapl g d a m) s = .next (if r.2.2 then raise 4 0x41 none s
        else if r.1 then raise 4 0x07 (some (BitVec.ofNat 64 (9 * 2 ^ 32))) s
        else queued { newCmd .mx (.mapl g d a m) s with
          ts := [td, ta], hd := s.rdH d, cnt := tilesOf ws, wids := [td.d.id] } s)))
  ∧ (∀ (h : BitVec 5) (s : State) (t : Tens) (k : Acc) (va : Nat), useTens s h none = .ok t →
    va = (elemAt t.d (t.org.map Int.toNat)).1 + ((t.org.head?).getD 0).toNat % 4 →
    imageTens k h s = if !layoutOk t then .error (.fault 0x37 none) else if t.d.fmt ≠ 12 ∨ t.ext.length ≠ 1 ∨ t.d.layout ≠ 0 then .error (opFault 12)
      else if va % 64 ≠ 0 then .error (.fault 0x32 (some (tvalVa k 3 va))) else .ok t)
  ∧ ∀ (g : Guard) (m : BitVec 4) (rs : BitVec 6) (s : State) (i : Instr), i ∈ [.mrnk g m rs, .mocc g m rs] →
    ready .mx g i s = true → hasEntry .mx s →
    exec i s = .next (queued { newCmd .mx i s with cell := destCell s rs } (undoS rs s))

/-- R152 to R162. What a poisoned register's stores poison, and how the marks count, is log 51. -/
def Obligations.MatrixExecute : Prop :=
  (∀ (g : Guard) (d a b : BitVec 4) (rs : BitVec 6) (cap : BitVec 7) (h : BitVec 5) (s : State) (env : EngineEnv) (q : Cmd)
    (md : BitVec 4) (srcs : List (BitVec 4)) (x : BitVec 4 → MReg) (r : MReg × Flags),
    x = (fun m => s.c.m[m.toNat]'m.isLt) → headOf .mx q s → env.error = false →
    (q.i = .mzr g d ∧ md = d ∧ srcs = [] ∧ r = (MReg.zero, 0))
      ∨ (q.i = .mcpy g d a ∧ md = d ∧ srcs = [a] ∧ r = (x a, 0))
      ∨ (q.i = .mtrn g d a ∧ md = d ∧ srcs = [a] ∧ r = (mtrnOf (x a), 0))
      ∨ (q.i = .mscl g d rs ∧ md = d ∧ srcs = [d] ∧ r = msclOf (fp32 q.x) (x d))
      ∨ (q.i = .mdns g d a ∧ md = d ∧ srcs = [a]
        ∧ r = if (x a).dense then (x a, 0) else denseFrom fun i j => ((x a).elem i j, 0))
      ∨ (q.i = .madd g d a b ∧ md = d ∧ srcs = [a, b] ∧ r = maddOf (x a) (x b))
      ∨ (q.i = .mmul g d a b ∧ md = d ∧ srcs = [a, b] ∧ r = mmulOf (tolOf q.x) (x a) (x b))
      ∨ (q.i = .mrcmp g d a ∧ md = d ∧ srcs = [a] ∧ r = mrcmpOf (tolOf q.x) (x a))
      ∨ (q.i = .mfac g d a cap ∧ md = d ∧ srcs = [a] ∧ r = mfacOf (tolOf q.x) cap.toNat (x a))
      ∨ (∃ t dense k bs, q.i = .mld g d h ∧ md = d ∧ srcs = [] ∧ q.ts = [t] ∧ q.image = some (dense, k)
        ∧ engReady q s t false (span 64 (imageSize dense k)) = .ok ()
        ∧ (span 64 (imageSize dense k)).mapM (codeAt s t) = .ok bs ∧ r = (imageReg dense k bs, 0)) →
    ((∀ m ∈ srcs, (x m).poison = false) →
      exec (.mxCommandExecute env) s = .next (popCmd q (orFlags 4 q.addr r.2 (setM md.toNat r.1 s))))
    ∧ ∀ dense k, (∃ m ∈ srcs, (x m).poison = true) → q.mres = some (md.toNat, dense, k) →
      exec (.mxCommandExecute env) s = .next (popCmd q (setM md.toNat (poisonedReg dense k) (countPoison (0, s.me / 64 % 4) s))))
  ∧ (∀ (q : Cmd) (m : BitVec 4) (x : MReg) (fl : Flags) (s : State), q.slot = 4 → s.c.cpFlags = [] →
    ∃ u, popCmd q (orFlags 4 q.addr fl (setM m.toNat x s)) = u ∧ u.c.m = s.c.m.set m.toNat x m.isLt
      ∧ u.c.mxq = s.c.mxq.filter (fun y => y.no != q.no) ∧ (∀ k : Nat, k ≠ 4 → u.c.srec[k]? = s.c.srec[k]?)
      ∧ (fl = 0 → u.c.srec = s.c.srec) ∧ u.c.counts = countDown q.cnt s.c.counts
      ∧ u = { s with c := { s.c with m := u.c.m, mxq := u.c.mxq, srec := u.c.srec, counts := u.c.counts } })
  ∧ (∀ (g : Guard) (m : BitVec 4) (rs : BitVec 6) (s : State) (env : EngineEnv) (q : Cmd) (v : Nat) (x : MReg),
    headOf .mx q s → x = s.c.m[m.toNat]'m.isLt →
    (q.i = .mrnk g m rs ∧ v = (if x.dense then 128 else x.s.length))
      ∨ (q.i = .mocc g m rs ∧ v = (if x.dense then 8 else (x.s.length + 7) / 8)) →
    exec (.mxCommandExecute env) s = .next (popCmd q (landCell q (BitVec.ofNat 64 v) s)))
  ∧ (∀ (g : Guard) (m : BitVec 4) (h : BitVec 5) (s : State) (env : EngineEnv) (q : Cmd) (t : Tens) (x : MReg)
    (hs : List Nat) (l : List (List Nat × Nat)) (cells : List Host.Cell), headOf .mx q s → q.i = .mst g m h → q.ts = [t] →
    x = s.c.m[m.toNat]'m.isLt → l = (if x.poison then List.replicate (imageSize x.dense x.s.length) 0 else imageBytes x).zipIdx.map (fun b => ([b.2], b.1)) →
    homesOf (fun i => elemHomes s .write t.d (coords t i)) (l.map (·.1)) = .ok hs →
    (x.poison = true ∨ env.error = true → exec (.mxCommandExecute env) s = .next (popCmd q (poisonHomes hs s)))
    ∧ (x.poison = false → env.error = false → regionCells s t l = .ok cells → partialPoison s cells = false →
      exec (.mxCommandExecute env) s = .next (landed q cells 0 s)))
  ∧ (∀ (g : Guard) (d a : BitVec 5) (m : BitVec 4) (s : State) (q : Cmd) (td ta : Tens) (x : MReg) (a1 a2 : Int)
    (rows : List (List (Machine.Num × Machine.Num))) (outs : List (Nat × Flags)) (hs : List Nat) (cells : List Host.Cell),
    headOf .mx q s → q.i = .mapl g d a m → q.ts = [td, ta] → x = s.c.m[m.toNat]'m.isLt →
    engReady q s ta false (allIdx ta.ext) = .ok () →
    a1 = ((q.stgAt 0).setWidth 10).toInt → a2 = ((q.stgAt 0 >>> 16).setWidth 10).toInt →
    (List.range (ext0 ta)).mapM (fun r => (List.range 128).mapM fun k => do
      let code ← codeAt s ta [r, k]
      let sc ← scaleAt s ta.d ta.scale false (coords ta [r, k])
      .ok (valOfCode ta code, sc)) = .ok rows →
    outs = rows.flatMap (maplRow a1 a2 td.d.fmt x) → regionCells s td ((allIdx td.ext).zip (outs.map (·.1))) = .ok cells →
    homesOf (fun i => elemHomes s .write td.d (coords td i)) (((allIdx td.ext).zip (outs.map (·.1))).map (·.1)) = .ok hs →
    (x.poison = true → exec (.mxCommandExecute .quiet) s = .next (popCmd q (poisonHomes hs s)))
    ∧ (x.poison = false → partialPoison s cells = false →
      exec (.mxCommandExecute .quiet) s = .next (landed q cells (outs.foldl (fun f o => f ||| o.2) 0) s)))
  ∧ (∀ (f : Nat → Nat → Machine.Num × Flags) (i j : Nat), i < 128 → j < 128 →
    (denseFrom f).1.dense = true ∧ (denseFrom f).1.elem i j = decodeNum 1 [] ((rndNum 1 [] 0 (f i j).1).1 % 2 ^ 16))
  ∧ (∀ (a : MReg) (i j : Nat), a.dense = true → a.arr.length = 128 → (∀ r ∈ a.arr, r.length = 128) → i < 128 → j < 128 →
    (mtrnOf a).elem i j = a.elem j i)
  ∧ ∀ (x : MReg), x.poison = false → (x.dense = true → x.s = [] ∧ x.u = [] ∧ x.v = [] ∧ x.arr.length = 128) →
    (x.dense = false → x.arr = [] ∧ x.s.length ≤ 64 ∧ x.u.length = x.s.length ∧ x.v.length = x.s.length) →
    (∀ c ∈ x.arr ++ x.u ++ x.v, c.length = 128) →
    (imageBytes x).length = imageSize x.dense x.s.length
      ∧ imageReg x.dense x.s.length ((imageBytes x).drop 64) = x

/-- R163 to R178, R402: the cp slot at issue. Word j of the staging registers of the slot is cp:j. That cpbs binds at issue is log
50. -/
def Obligations.CopyIssue : Prop :=
  (∀ (k : Slot) (i : Instr) (s : State) (j : Nat), 4 ≤ k.idx → j < 8 →
    (newCmd k i s).stgAt j = s.rdStg (BitVec.ofNat 5 (8 * (k.idx - 4) + j)) ∧ (newCmd k i s).addr = s.c.pc
      ∧ (newCmd k i s).word = encode i ∧ (newCmd k i s).i = i ∧ (newCmd k i s).no = s.c.cmdNo)
  ∧ (∀ (g : Guard) (c : BitVec 4) (d r : BitVec 5) (s : State) (os od : Nat) (t0 td ts : Tens)
    (ps : List (List Nat × List Nat)) (ws rr sw : List Nat), ready .cp g (.cpy g c d r) s = true → hasEntry .cp s →
    os = (s.rdStg 8).toNat % 65536 → od = (s.rdStg 9).toNat % 65536 → offsetDst s d od (some false) = .ok td →
    offsetSrc s r td os (ext0 td - od) (some false) = .ok t0 →
    engScaleWrites s td.scale (scaleKeys td false ((rowPairs td.ext od 0).map (·.1))) = .ok sw →
    (td.d.fmt ≠ t0.d.fmt → exec (.cpy g c d r) s = .next (raise 5 0x07 (some (BitVec.ofNat 64 (13 * 2 ^ 32))) s))
    ∧ (sameCodes td t0 = .ok () →
      ts = (if td.scale = none then { t0 with scale := none } else t0) → ps = rowPairs td.ext od os →
      engWrites s td (ps.map (·.1)) = .ok ws → engReads s ts false (ps.map (·.2)) = .ok rr → engHold s (ws ++ rr ++ sw) = .ok () →
      exec (.cpy g c d r) s = .next (queued { newCmd .cp (.cpy g c d r) s with
        chan := c.toNat, ts := [td, ts], hd := s.rdH d, cnt := tilesOf (ws ++ sw)
        wids := td.d.id :: (td.scale.map fun x => x.id).toList } s)))
  ∧ (∀ (g : Guard) (c : BitVec 4) (d r : BitVec 5) (s : State) (os oc e0 e1 f0 f1 : Nat) (td ts : Tens) (ws rr : List Nat),
    ready .cp g (.cpt g c d r) s = true → hasEntry .cp s → os = (s.rdStg 8).toNat % 65536 →
    oc = (s.rdStg 9).toNat % 65536 → wholeTensor s .write false d = .ok td → useTens s r none = .ok ts → td.ext = [e0, e1] →
    ts.ext = [f0, f1] →
    (e0 ≠ 0 → e1 ≠ 0 → f1 < oc + e0 ∨ f0 < os + e1 → exec (.cpt g c d r) s = .next (raise 5 0x36 none s))
    ∧ (rowsReach s .read false ts (if e0 ≠ 0 ∧ e1 ≠ 0 then (List.range e1).map fun j => ([j + os], oc, e0) else []) = .ok () →
      (e0 ≠ 0 → e1 ≠ 0 → oc + e0 ≤ f1 ∧ os + e1 ≤ f0) → sameCodes td ts = .ok () →
      (td.d.fmt ∉ [0, 1, 2, 7, 8, 11, 12] → exec (.cpt g c d r) s = .next (raise 5 0x13 (some (execTval .cp s)) s))
      ∧ (td.d.fmt ∈ [0, 1, 2, 7, 8, 11, 12] → engWrites s td (allIdx td.ext) = .ok ws →
        engReads s ts false ((allIdx td.ext).map fun i => [(i[1]?).getD 0 + os, (i[0]?).getD 0 + oc]) = .ok rr →
        engHold s (ws ++ rr) = .ok () → exec (.cpt g c d r) s = .next (queued { newCmd .cp (.cpt g c d r) s with
          chan := c.toNat, ts := [td, ts], hd := s.rdH d, cnt := tilesOf ws, wids := [td.d.id] } s))))
  ∧ (∀ (g : Guard) (c : BitVec 4) (d r : BitVec 5) (m : BitVec 2) (s : State) (os : Nat) (ts t1 t2 : Tens)
    (sc1 sc2 : TBase) (idxs : List (List Nat)) (w1 w2 rr k1 k2 : List Nat), ready .cp g (.cpq g c d r m) s = true →
    hasEntry .cp s → os = (s.rdStg 8).toNat % 65536 → wholeTensor s .write false d (some false) = .ok t1 →
    engScaleWrites s t1.scale (scaleKeys t1 false (allIdx t1.ext)) = .ok k1 →
    wholeTensor s .write false (d + 1) (some true) = .ok t2 →
    engScaleWrites s t2.scale (scaleKeys t2 true (allIdx t2.ext)) = .ok k2 →
    offsetSrc s r t1 os (ext0 t1) = .ok ts → t1.ext = t2.ext →
    t1.ext.length = 2 → ts.d.fmt ≤ 2 → 3 ≤ t1.d.fmt → t1.d.fmt = t2.d.fmt → t1.scale = some sc1 → t2.scale = some sc2 →
    idxs = (rowPairs t1.ext 0 os).map (·.1) → engWrites s t1 idxs = .ok w1 → engWrites s t2 idxs = .ok w2 →
    engReads s ts false ((rowPairs t1.ext 0 os).map (·.2)) = .ok rr →
    engHold s (w1 ++ w2 ++ k1 ++ k2 ++ rr) = .ok () →
    exec (.cpq g c d r m) s = .next (queued { newCmd .cp (.cpq g c d r m) s with
      chan := c.toNat, ts := [t1, t2, ts], hd := s.rdH d, cnt := tilesOf (w1 ++ w2 ++ k1 ++ k2)
      wids := [t1.d.id, sc1.id, t2.d.id, sc2.id] } s))
  ∧ (∀ (g : Guard) (c : BitVec 4) (d r : BitVec 5) (m : BitVec 2) (s : State) (os : Nat) (td ts : Tens) (sc : TBase)
    (ps : List (List Nat × List Nat)) (ws rr kr : List Nat), ready .cp g (.cpqs g c d r m) s = true → hasEntry .cp s →
    os = (s.rdStg 8).toNat % 65536 → wholeTensor s .write false d (some false) = .ok td →
    (td.scale = none → offsetSrc s r td os (ext0 td) (some false) = .ok ts → exec (.cpqs g c d r m) s = .next (raise 5 0x07 (some (BitVec.ofNat 64 (3 * 2 ^ 32))) s))
    ∧ (td.scale = some sc → pipeFault .read (homesOf (elemHomes s .read sc) (scaleKeys td false (allIdx td.ext))) = .ok kr →
      offsetSrc s r td os (ext0 td) (some false) = .ok ts →
      ps = rowPairs td.ext 0 os → engWrites s td (ps.map (·.1)) = .ok ws → engReads s ts false (ps.map (·.2)) = .ok rr →
      engHold s (ws ++ rr ++ kr) = .ok () → exec (.cpqs g c d r m) s = .next (queued { newCmd .cp (.cpqs g c d r m) s with
        chan := c.toNat, ts := [td, ts], hd := s.rdH d, cnt := tilesOf ws, wids := [td.d.id] } s)))
  ∧ (∀ (g : Guard) (c : BitVec 4) (d r : BitVec 5) (s : State) (os : Nat) (td ts : Tens) (idxs : List (List Nat))
    (ws rr : List Nat), ready .cp g (.cpz g c d r) s = true → hasEntry .cp s → os = (s.rdStg 8).toNat % 65536 →
    (useTens s d none = .ok td → td.d.layout ≠ 2 → rowsReach s .write false td (wholeRows td) = .ok () →
      exec (.cpz g c d r) s = .next (raise 5 0x37 none s))
    ∧ (blockTensor s .write d = .ok td → regionTensor s .read r os = .ok ts → idxs = (rowPairs ts.ext os 0).map (·.1) →
      sameCodes td ts = .ok () → td.ext.length = ts.ext.length → count td.ext = idxs.length → idxs.length ≤ 65535 →
      blockReach s .write td = .ok ws → engReads s ts false idxs = .ok rr → engHold s (ws ++ rr) = .ok () →
      exec (.cpz g c d r) s = .next (queued { newCmd .cp (.cpz g c d r) s with
        chan := c.toNat, ts := [td, ts], hd := s.rdH d, cnt := tilesOf ws, wids := [td.d.id] } s)))
  ∧ (∀ (g : Guard) (c : BitVec 4) (d r : BitVec 5) (s : State) (od : Nat) (td ts : Tens) (idxs : List (List Nat))
    (ws rr : List Nat), ready .cp g (.cpx g c d r) s = true → hasEntry .cp s → od = (s.rdStg 9).toNat % 65536 →
    (useTens s r none = .ok ts → ts.d.layout ≠ 2 → rowsReach s .read false ts (wholeRows ts) = .ok () →
      exec (.cpx g c d r) s = .next (raise 5 0x37 none s))
    ∧ (blockTensor s .read r = .ok ts → regionTensor s .write d od = .ok td → idxs = (rowPairs td.ext od 0).map (·.1) →
      td.ext.length = ts.ext.length → count ts.ext = idxs.length → engWrites s td idxs = .ok ws → blockReach s .read ts = .ok rr →
      engHold s (ws ++ rr) = .ok () → exec (.cpx g c d r) s = .next (queued { newCmd .cp (.cpx g c d r) s with
        chan := c.toNat, ts := [td, ts], hd := s.rdH d, cnt := tilesOf ws, wids := [td.d.id] } s)))
  ∧ (∀ (g : Guard) (c : BitVec 4) (d r : BitVec 5) (s : State) (os od : Nat) (w : Word) (td ts : Tens)
    (ps : List (List Nat × List Nat)) (ws rr : List Nat) (cur : Nat) (q : Cmd), ready .cp g (.cpk g c d r) s = true → hasEntry .cp s →
    os = (s.rdStg 8).toNat % 65536 → od = (s.rdStg 9).toNat % 65536 → w = s.rdStg 11 → offsetDst s d od = .ok td →
    offsetSrc s r td os (ext0 td - od) = .ok ts → curHome s td.d.id = .ok cur →
    (td.view ≠ 1 → exec (.cpk g c d r) s = .next (raise 5 0x07 (some (BitVec.ofNat 64 (14 * 2 ^ 32))) s))
    ∧ (td.view = 1 → sameCodes td ts = .ok () → s.c.info.nlev ≤ w.toNat % 8 →
      exec (.cpk g c d r) s = .next (raise 5 0x07 (some (BitVec.ofNat 64 (15 * 2 ^ 32))) s))
    ∧ (td.view = 1 → sameCodes td ts = .ok () → w.toNat % 8 < s.c.info.nlev → ps = rowPairs td.ext od os →
      engWrites s td (ps.map (·.1)) = .ok ws → engReads s ts false (ps.map (·.2)) = .ok rr →
      engHold s (ws ++ rr ++ [cur]) = .ok () →
      q = { newCmd .cp (.cpk g c d r) s with
        chan := c.toNat, ts := [td, ts], hd := s.rdH d, cnt := tilesOf ws, wids := [td.d.id], joined := s.c.txn.act } →
      (s.c.txn.act = false → exec (.cpk g c d r) s = .next (queued q s))
      ∧ (s.c.txn.act = true → s.c.txn.acts.length < 15 → exec (.cpk g c d r) s = .next ((queued q s).onC fun c => { c with
        txn := { c.txn with
          acts := c.txn.acts ++ .pub td.d.id (s.c.cmdNo + 1)
            :: (if w.getLsbD 8 then [.bara (w.toNat / 2 ^ 16 % 64) (w.toNat % 8) (s.c.cmdNo + 1)] else [])
          count := c.txn.count + (if w.getLsbD 8 then 2 else 1) } }))))
  ∧ (∀ (g : Guard) (c : BitVec 4) (z : BitVec 3) (r : BitVec 5) (s : State) (ts : Tens) (pos : Nat) (rr : List Nat),
    ready .cp g (.cpbs g c z r) s = true → hasEntry .cp s → pos = (s.rdStg 8).toNat % 2 ^ 32 →
    useTens s r none = .ok ts → engReads s ts false ((allIdx ts.ext).drop pos) = .ok rr → engHold s rr = .ok () →
    ∃ u, exec (.cpbs g c z r) s = .next u
      ∧ u.c.z[z.toNat]'z.isLt = ⟨true, c, some ts, pos, false, 0, [], (s.c.z[z.toNat]'z.isLt).waits, none⟩
      ∧ (∀ z' : BitVec 3, z' ≠ z → u.c.z[z'.toNat]'z'.isLt =
        (let x := s.c.z[z'.toNat]'z'.isLt
         if x.bound = true ∧ x.chan = c then { x with bound := false, buf := [] } else x))
      ∧ u.mem = s.mem ∧ u.c.r = s.c.r)
  ∧ (∀ (g : Guard) (c : BitVec 4) (s : State), ready .cp g (.cpw g c) s = true → exec (.cpw g c) s =
    .next (if s.c.cpq.any fun q => q.chan == c.toNat then stalled s else s))
  ∧ (∀ (g : Guard) (c : BitVec 4) (s : State), ready .cp g (.cpab g c) s = true → (∀ q ∈ s.c.cpq, q.slot = 5) →
    ∃ u, exec (.cpab g c) s = .next u ∧ (∀ q ∈ u.c.cpq, q ∈ s.c.cpq ∧ q.chan ≠ c.toNat)
    ∧ (∀ q ∈ s.c.cpq, (∀ x ∈ s.c.cpq, x.chan = c.toNat → x.no ≠ q.no) → q ∈ u.c.cpq)
    ∧ u.c.r = s.c.r ∧ (∀ z : BitVec 3, (u.c.z[z.toNat]'z.isLt).bound = true → (u.c.z[z.toNat]'z.isLt).chan ≠ c)
    ∧ ∀ f, u.c.failing = some f → s.c.failing = some f ∧ ¬(f.cmd.slot = 5 ∧ f.cmd.chan = c.toNat))
  ∧ (∀ (g : Guard) (c : BitVec 4) (d : BitVec 5) (s : State) (td : Tens) (ws : List Nat),
    ready .cp g (.cpf g c d) s = true → hasEntry .cp s → wholeTensor s .write false d = .ok td →
    engWrites s td (allIdx td.ext) = .ok ws → engHold s ws = .ok () →
    exec (.cpf g c d) s = .next (queued { newCmd .cp (.cpf g c d) s with
      chan := c.toNat, ts := [td], hd := s.rdH d, cnt := tilesOf ws, wids := [td.d.id] } s))
  ∧ ∀ (g : Guard) (c : BitVec 4) (d r : BitVec 5) (s : State) (t : Tens) (hs : List Nat),
    ready .cp g (.cpr g c d r) s = true → hasEntry .cp s → engHold s (2 ^ 64 :: hs) = .ok () →
    ((s.rdStg 9).getLsbD 63 = true → useTens s r none = .ok t → engReads s t false (allIdx t.ext) = .ok hs →
      exec (.cpr g c d r) s = .next (queued { newCmd .cp (.cpr g c d r) s with chan := c.toNat, ts := [t] } s))
    ∧ ((s.rdStg 9).getLsbD 63 = false → useTens s d none = .ok t → engWrites s t (allIdx t.ext) = .ok hs →
      exec (.cpr g c d r) s = .next (queued { newCmd .cp (.cpr g c d r) s with
        chan := c.toNat, ts := [t], hd := s.rdH d, cnt := tilesOf hs, wids := [t.d.id] } s))

/-- R163 to R178, R402: the copy engine. -/
def Obligations.CopyExecute : Prop :=
  (∀ (g : Guard) (c : BitVec 4) (d r : BitVec 5) (s : State) (env : EngineEnv) (q : Cmd) (td ts : Tens)
    (ps : List (List Nat × List Nat)) (codes : List Nat) (ks : List (List Nat × Nat)) (c1 c2 : List Host.Cell),
    headOf .cp q s → q.i = .cpy g c d r → q.ts = [td, ts] →
    ps = rowPairs td.ext ((q.stgAt 1).toNat % 65536) ((q.stgAt 0).toNat % 65536) →
    engReady q s ts false (ps.map (·.2)) = .ok () → ps.mapM (fun p => codeAt s ts p.2) = .ok codes →
    regionCells s td ((ps.map (·.1)).zip codes) = .ok c1 → copyScales s td ts ps = .ok ks →
    (match td.scale with | none => c2 = [] | some x => codeCells s x ks = .ok c2) → partialPoison s (c1 ++ c2) = false →
    exec (.cpCommandExecute (BitVec.ofNat 4 q.chan) env) s = .next (landed q (c1 ++ c2) 0 s))
  ∧ (∀ (g : Guard) (c : BitVec 4) (d r : BitVec 5) (s : State) (env : EngineEnv) (q : Cmd) (td ts : Tens)
    (src : List Nat → List Nat) (codes : List Nat) (cells : List Host.Cell), headOf .cp q s → q.i = .cpt g c d r →
    q.ts = [td, ts] → src = (fun i => [(i[1]?).getD 0 + (q.stgAt 0).toNat % 65536, (i[0]?).getD 0 + (q.stgAt 1).toNat % 65536]) →
    engReady q s ts false ((allIdx td.ext).map src) = .ok () → (allIdx td.ext).mapM (fun i => codeAt s ts (src i)) = .ok codes →
    regionCells s td ((allIdx td.ext).zip codes) = .ok cells → partialPoison s cells = false →
    exec (.cpCommandExecute (BitVec.ofNat 4 q.chan) env) s = .next (landed q cells 0 s))
  ∧ (∀ (g : Guard) (c : BitVec 4) (d r : BitVec 5) (m : BitVec 2) (s : State) (env : EngineEnv) (q : Cmd) (t1 t2 ts : Tens)
    (x1 x2 : TBase) (ps : List (List Nat × List Nat)) (idxs : List (List Nat)) (vals : List (List Nat × Machine.Num)) (vs : List Machine.Num)
    (s1 s2 : List (List Nat × Nat)) (o1 o2 : List (Nat × Flags)) (a1 a2 b1 b2 : List Host.Cell), headOf .cp q s →
    q.i = .cpq g c d r m → q.ts = [t1, t2, ts] → ps = rowPairs t1.ext 0 ((q.stgAt 0).toNat % 65536) → idxs = ps.map (·.1) →
    engReady q s ts false (ps.map (·.2)) = .ok () → ps.mapM (fun p => valAt s ts false p.2) = .ok vs → vals = idxs.zip vs →
    t1.scale = some x1 → t2.scale = some x2 → s1 = runScales t1 false vals → s2 = runScales t2 true vals →
    o1 = quantCodes t1 false m.toNat s1 vals → o2 = quantCodes t2 true m.toNat s2 vals →
    regionCells s t1 (idxs.zip (o1.map (·.1))) = .ok a1 → codeCells s x1 s1 = .ok a2 →
    regionCells s t2 (idxs.zip (o2.map (·.1))) = .ok b1 → codeCells s x2 s2 = .ok b2 →
    partialPoison s (a1 ++ a2 ++ (b1 ++ b2)) = false →
    exec (.cpCommandExecute (BitVec.ofNat 4 q.chan) env) s = .next (landed q (a1 ++ a2 ++ (b1 ++ b2))
      (o1.foldl (fun f o => f ||| o.2) 0 ||| o2.foldl (fun f o => f ||| o.2) 0) s))
  ∧ (∀ (g : Guard) (c : BitVec 4) (d r : BitVec 5) (m : BitVec 2) (s : State) (env : EngineEnv) (q : Cmd) (td ts : Tens)
    (ps : List (List Nat × List Nat)) (outs : List (Nat × Flags)) (cells : List Host.Cell), headOf .cp q s →
    q.i = .cpqs g c d r m → q.ts = [td, ts] → ps = rowPairs td.ext 0 ((q.stgAt 0).toNat % 65536) →
    engReady q s ts false (ps.map (·.2)) = .ok () → scaleReady q s td (ps.map (·.1)) = .ok () →
    ps.mapM (fun p => do
      let v ← valAt s ts false p.2
      let k ← scaleAt s td.d td.scale false (coords td p.1)
      let y := divScale v k
      let z := rndEx td.d.fmt td.d.cb m.toNat y.1
      .ok (z.1, y.2 ||| z.2)) = .ok outs → regionCells s td ((ps.map (·.1)).zip (outs.map (·.1))) = .ok cells →
    partialPoison s cells = false → exec (.cpCommandExecute (BitVec.ofNat 4 q.chan) env) s =
      .next (addSat c.toNat (outs.filter fun o => o.2 &&& flagSAT != 0).length
        (landed q cells (outs.foldl (fun f o => f ||| o.2) 0) s)))
  ∧ (∀ (g : Guard) (c : BitVec 4) (d r : BitVec 5) (s : State) (env : EngineEnv) (q : Cmd) (td ts : Tens)
    (idxs : List (List Nat)) (codes hs : List Nat) (blk : List Byte), headOf .cp q s → q.i = .cpz g c d r →
    q.ts = [td, ts] → idxs = (rowPairs ts.ext ((q.stgAt 0).toNat % 65536) 0).map (·.1) → idxs ≠ [] →
    engReady q s ts false idxs = .ok () → idxs.mapM (fun i => codeAt s ts i) = .ok codes → blk = blockOf ts.d.fmt codes →
    byteHomes s .write (blockVa td) td.res = .ok hs →
    (td.res < blk.length → ∃ u, exec (.cpCommandExecute (BitVec.ofNat 4 q.chan) env) s = .next u
      ∧ u.c.failing = some ⟨q, 0x72, 1, BitVec.ofNat 64 (blockVa td + td.res)⟩ ∧ u.c.cpq = s.c.cpq)
    ∧ (blk.length ≤ td.res → partialPoison s (hs.zip (blk ++ List.replicate (td.res - blk.length) 0)) = false →
      exec (.cpCommandExecute (BitVec.ofNat 4 q.chan) env) s =
        .next (landed q (hs.zip (blk ++ List.replicate (td.res - blk.length) 0)) 0 s)))
  ∧ (∀ (g : Guard) (c : BitVec 4) (d r : BitVec 5) (s : State) (env : EngineEnv) (q : Cmd) (td ts : Tens)
    (idxs : List (List Nat)) (hs : List Nat) (blk : Option (List Nat)), headOf .cp q s → q.i = .cpx g c d r →
    q.ts = [td, ts] → idxs = (rowPairs td.ext ((q.stgAt 1).toNat % 65536) 0).map (·.1) → idxs ≠ [] →
    byteHomes s .read (blockVa ts) ts.res = .ok hs → hs.any (emptyBut q s) = false → hs.any (poisoned s) = false →
    blk = expandBlock td.d.fmt idxs.length ts.res (hs.map s.readByte) →
    (blk = none → exec (.cpCommandExecute (BitVec.ofNat 4 q.chan) env) s =
      .next ((applyFree [] s).onC fun k => { k with failing := some ⟨q, 0x73, 1, 0⟩ }))
    ∧ ∀ codes cells, blk = some codes → regionCells s td (idxs.zip codes) = .ok cells → partialPoison s cells = false →
      exec (.cpCommandExecute (BitVec.ofNat 4 q.chan) env) s = .next (landed q cells 0 s))
  ∧ (∀ (g : Guard) (c : BitVec 4) (d : BitVec 5) (s : State) (env : EngineEnv) (q : Cmd) (td : Tens) (cells : List Host.Cell),
    headOf .cp q s → q.i = .cpf g c d → q.ts = [td] →
    regionCells s td ((allIdx td.ext).map fun i => (i, (q.stgAt 0).toNat % 2 ^ fmtWidth td.d.fmt)) = .ok cells →
    partialPoison s cells = false →
    exec (.cpCommandExecute (BitVec.ofNat 4 q.chan) env) s = .next (landed q cells 0 s))
  ∧ (∀ (g : Guard) (c : BitVec 4) (d r : BitVec 5) (s : State) (env : EngineEnv) (q : Cmd) (td ts : Tens)
    (ps : List (List Nat × List Nat)) (codes : List Nat) (cells : List Host.Cell) (crc want : BitVec 32), headOf .cp q s →
    q.i = .cpk g c d r → q.ts = [td, ts] → q.image = none → q.joined = false →
    ps = rowPairs td.ext ((q.stgAt 1).toNat % 65536) ((q.stgAt 0).toNat % 65536) →
    engReady q s ts false (ps.map (·.2)) = .ok () → ps.mapM (fun p => codeAt s ts p.2) = .ok codes →
    regionCells s td ((ps.map (·.1)).zip codes) = .ok cells →
    crc = crc32c ((rowsBy (rowLen td.ext) codes).flatMap (packRow ts.d.fmt)) → want = (q.stgAt 2).setWidth 32 →
    (∀ h, crc = want → env.corrupt < 4 → partialPoison s cells = false → curHome (s.write cells) td.d.id = .ok h →
      homePoisoned (s.write cells) h = false →
      ((q.stgAt 3).getLsbD 8 = false → exec (.cpCommandExecute (BitVec.ofNat 4 q.chan) env) s =
        .next (popCmd q (publish td.d.id (s.write cells))))
      ∧ ((q.stgAt 3).getLsbD 8 = true → (barOf s.c ((q.stgAt 3).toNat / 2 ^ 16 % 64)).arrived = false →
        levelClash s.c ((q.stgAt 3).toNat / 2 ^ 16 % 64) ((q.stgAt 3).toNat % 8) = false →
        exec (.cpCommandExecute (BitVec.ofNat 4 q.chan) env) s = .next (popCmd q
          (arrive ((q.stgAt 3).toNat / 2 ^ 16 % 64) ((q.stgAt 3).toNat % 8) (publish td.d.id (s.write cells)))))
      ∧ ((q.stgAt 3).getLsbD 8 = true →
        levelClash s.c ((q.stgAt 3).toNat / 2 ^ 16 % 64) ((q.stgAt 3).toNat % 8) = true
          ∨ (barOf s.c ((q.stgAt 3).toNat / 2 ^ 16 % 64)).arrived = true →
        ∃ u, exec (.cpCommandExecute (BitVec.ofNat 4 q.chan) env) s = .next u
          ∧ u.mem = (publish td.d.id (s.write cells)).mem
          ∧ u.c.counts = countDown q.cnt s.c.counts
          ∧ u.c.cpq = s.c.cpq.map fun x => if x.no = q.no then { q with image := some (true, 0), cnt := [] } else x))
    ∧ (crc ≠ want → env.corrupt = 0 → ∃ u, exec (.cpCommandExecute (BitVec.ofNat 4 q.chan) env) s = .next u
      ∧ u.c.failing = some ⟨q, 0x74, 4, crc.append want⟩ ∧ u.c.cpq = s.c.cpq))
  ∧ (∀ (g : Guard) (c : BitVec 4) (d r : BitVec 5) (s : State) (env : EngineEnv) (q : Cmd) (td ts : Tens) (y : Bool × Nat),
    headOf .cp q s → q.i = .cpk g c d r → q.ts = [td, ts] → q.image = some y → (q.stgAt 3).getLsbD 8 = true →
    levelClash s.c ((q.stgAt 3).toNat / 2 ^ 16 % 64) ((q.stgAt 3).toNat % 8) = true →
    ∃ u, exec (.cpCommandExecute (BitVec.ofNat 4 q.chan) env) s = .next u ∧ u.c.failing = some ⟨q, 0x80, 1, 0⟩ ∧ u.mem = s.mem)
  ∧ (∀ (g : Guard) (c : BitVec 4) (d r : BitVec 5) (s : State) (env : EngineEnv) (q : Cmd) (t : Tens) (w : Word) (a n : Nat),
    headOf .cp q s → q.i = .cpr g c d r → q.ts = [t] → w = q.stgAt 1 → a = (q.stgAt 0).toNat % 2 ^ 52 →
    n = (rowsOf t.ext).length * packLen t.d.fmt (rowLen t.ext) → remoteOk s w a n = true →
    (∀ codes, w.getLsbD 63 = true → engReady q s t false (allIdx t.ext) = .ok () →
      (allIdx t.ext).mapM (fun i => codeAt s t i) = .ok codes →
      (∀ hs cells, w.toNat % 65536 = 0xFFFF ∨ selfTarget s w = true → remoteHomes s .write w a n = some hs →
        cells = hs.zip ((rowsBy (rowLen t.ext) codes).flatMap (packRow t.d.fmt)) → partialPoison s cells = false →
        exec (.cpCommandExecute (BitVec.ofNat 4 q.chan) env) s = .next (landed q cells 0 s))
      ∧ (w.toNat % 65536 ≠ 0xFFFF → selfTarget s w = false → env.remote.isSome = true →
        exec (.cpCommandExecute (BitVec.ofNat 4 q.chan) env) s = .next (popCmd q s)))
    ∧ ∀ bs codes cells, w.getLsbD 63 = false →
      (if selfTarget s w = true ∨ w.toNat % 65536 = 0xFFFF then (remoteHomes s .read w a n).map (fun hs => hs.map s.readByte)
        else env.remote) = some bs → bs.length = n →
      codes = (chunks (packLen t.d.fmt (rowLen t.ext)) (rowsOf t.ext).length bs).flatMap (unpackRow t.d.fmt (rowLen t.ext)) →
      regionCells s t ((allIdx t.ext).zip codes) = .ok cells → partialPoison s cells = false →
      exec (.cpCommandExecute (BitVec.ofNat 4 q.chan) env) s = .next (landed q cells 0 s))
  ∧ ∀ (g : Guard) (c : BitVec 4) (z : BitVec 3) (r : BitVec 5) (s : State) (q : Cmd) (x : Stream) (t : Tens) (code : Nat) (u : State),
    x = s.c.z[z.toNat]'z.isLt → u = withPage x.page s → laneHolds s q = false → writesBehind s q = false → chanHead s.c x.chan = some q → q.i = .cpbs g c z r → s.c.failing = none → s.c.spec = none →
    x.src = some t → x.bound = true → x.ended = false → x.pos + 1 < count t.ext → x.buf.length < 64 →
    engReady q u t false [((allIdx t.ext)[x.pos]?).getD []] = .ok () → codeAt u t (((allIdx t.ext)[x.pos]?).getD []) = .ok code →
    (x.waits = [] → exec (.streamElementDelivery z) s =
      .next (onZ z.toNat (fun y => { y with pos := x.pos + 1, buf := x.buf ++ [BitVec.ofNat 64 code], page := pageHold u t (((allIdx t.ext)[x.pos]?).getD []) }) s))
    ∧ ∀ cell addr ws, x.waits = (cell, addr) :: ws → cell ≠ 0 → exec (.streamElementDelivery z) s =
      .next (landLate ⟨cellDst cell, (BitVec.ofNat 64 code : Word).setWidth 256, s.c.now, 1, addr, true⟩
        (onZ z.toNat (fun y => { y with
          pos := x.pos + 1, waits := ws, taken := x.taken + 1, page := pageHold u t (((allIdx t.ext)[x.pos]?).getD []) }) s))

/-- R164, R179 to R182: the sp slot at issue. -/
def Obligations.SparseIssue : Prop :=
  (∀ (g : Guard) (d a b : BitVec 5) (s : State) (i : Instr) (k : Nat) (td tb ta : Tens) (ws ra rb rd : List Nat),
    (i, k) ∈ [(.gth g d a b, 0), (.sct g d a b, 1), (.scta g d a b, 2), (.flt g d a b, 3)] → ready .sp g i s = true →
    hasEntry .sp s → wholeTensor s .write false d = .ok td →
    (if k = 2 then engReads s td false (allIdx td.ext) else .ok []) = .ok rd →
    spSource s a (if k = 2 then some false else none) = .ok (ta, ra) → spSource s b none = .ok (tb, rb) →
    (k ≠ 2 → td.d.fmt ≠ ta.d.fmt → exec i s = .next (raise 6 0x07 (some (BitVec.ofNat 64 (13 * 2 ^ 32))) s))
    ∧ (k = 2 → 2 < td.d.fmt → exec i s = .next (raise 6 0x13 (some (execTval .sp s)) s))
    ∧ ((k = 2 → td.d.fmt ≤ 2) → (k ≠ 2 → sameCodes td ta = .ok ()) → td.ext.length = ta.ext.length →
      td.ext.tail = ta.ext.tail →
      (k = 3 → tb.d.fmt ≠ 12 ∨ tb.ext.length ≠ 1 ∨ ext0 tb < (ext0 ta + 7) / 8 →
        exec i s = .next (raise 6 0x07 (some (BitVec.ofNat 64 (16 * 2 ^ 32))) s))
      ∧ (k ≠ 3 → tb.d.fmt < 7 ∨ 13 < tb.d.fmt → exec i s = .next (raise 6 0x07 (some (BitVec.ofNat 64 (4 * 2 ^ 32))) s))
      ∧ (k ≠ 3 → 7 ≤ tb.d.fmt → tb.d.fmt ≤ 13 → tb.ext.length ≠ 1 ∨ ext0 tb < (if k = 0 then ext0 td else ext0 ta) →
        exec i s = .next (raise 6 0x07 (some (BitVec.ofNat 64 (15 * 2 ^ 32))) s))
      ∧ (tb.ext.length = 1 → (if k = 3 then tb.d.fmt = 12 ∧ (ext0 ta + 7) / 8 ≤ ext0 tb
          else 7 ≤ tb.d.fmt ∧ tb.d.fmt ≤ 13 ∧ (if k = 0 then ext0 td else ext0 ta) ≤ ext0 tb) → engWrites s td (allIdx td.ext) = .ok ws →
        engHold s (ws ++ ra ++ rb ++ rd) = .ok () → exec i s = .next (queued { newCmd .sp i s with
          ts := [td, ta, tb], hd := s.rdH d, cnt := tilesOf ws, wids := [td.d.id] } s))))
  ∧ (∀ (g : Guard) (d a b : BitVec 5) (s : State) (td ta tb : Tens) (ws ra rb : List Nat),
    ready .sp g (.bmk g d a b) s = true → hasEntry .sp s → wholeTensor s .write false d = .ok td →
    spSource s a (some false) = .ok (ta, ra) → spSource s b (some false) = .ok (tb, rb) → tb.ext = ta.ext ∨ count tb.ext = 1 →
    (td.d.fmt ≠ 12 ∨ td.ext.length ≠ 1 ∨ ext0 td < (count ta.ext + 7) / 8 →
      exec (.bmk g d a b) s = .next (raise 6 0x07 (some (BitVec.ofNat 64 (16 * 2 ^ 32))) s))
    ∧ (td.d.fmt = 12 → td.ext.length = 1 → (count ta.ext + 7) / 8 ≤ ext0 td → engWrites s td (span 0 ((count ta.ext + 7) / 8)) = .ok ws →
      engHold s (ws ++ ra ++ rb) = .ok () → exec (.bmk g d a b) s = .next (queued { newCmd .sp (.bmk g d a b) s with
        ts := [td, ta, tb], hd := s.rdH d, cnt := tilesOf ws, wids := [td.d.id] } s)))
  ∧ (∀ (g : Guard) (d : BitVec 6) (a : BitVec 5) (s : State) (ta : Tens) (ra : List Nat),
    ready .sp g (.cnt g d a) s = true → hasEntry .sp s → wholeTensor s .read false a = .ok ta →
    (ta.d.fmt ≠ 12 ∨ ta.ext.length ≠ 1 →
      exec (.cnt g d a) s = .next (raise 6 0x07 (some (BitVec.ofNat 64 (16 * 2 ^ 32))) s))
    ∧ (ta.d.fmt = 12 → ta.ext.length = 1 → engReads s ta false (allIdx ta.ext) = .ok ra → engHold s ra = .ok () →
      exec (.cnt g d a) s = .next (queued { newCmd .sp (.cnt g d a) s with ts := [ta], cell := destCell s d } (undoS d s))))
  ∧ (∀ (g : Guard) (a b : BitVec 5) (s : State) (ta tb : Tens) (w : Nat) (ra rb : List Nat),
    ready .sp g (.dfr g a b) s = true → hasEntry .sp s → wholeTensor s .read false a = .ok ta →
    wholeTensor s .read false b = .ok tb →
    (ta.d.fmt ≠ 0 ∨ tb.d.fmt ≠ 12 → exec (.dfr g a b) s = .next (raise 6 0x13 (some (execTval .sp s)) s))
    ∧ (ta.d.fmt = 0 → tb.d.fmt = 12 → ta.ext.length = 2 → ta.ext[1]? = some w → 1 ≤ w → w ≤ 4 → tb.ext.length = 1 →
      (ext0 ta + 7) / 8 ≤ ext0 tb → engReads s ta false (allIdx ta.ext) = .ok ra →
      engReads s tb false (allIdx tb.ext) = .ok rb → engHold s (ra ++ rb) = .ok () →
      exec (.dfr g a b) s = .next (queued { newCmd .sp (.dfr g a b) s with ts := [ta, tb] } s)))
  ∧ ∀ (g : Guard) (d a : BitVec 5) (s : State) (td ta : Tens) (w : Nat) (w1 w2 : List Nat),
    ready .sp g (.dfd g d a) s = true → hasEntry .sp s → wholeTensor s .write false d = .ok td →
    wholeTensor s .write false a = .ok ta → td.d.fmt = 0 → ta.d.fmt = 11 → td.ext.length = 2 → td.ext[1]? = some w → 1 ≤ w →
    w ≤ 4 → ta.ext.length = 1 → ext0 ta = ext0 td → engWrites s td (allIdx td.ext) = .ok w1 →
    engWrites s ta (allIdx ta.ext) = .ok w2 → engHold s (w1 ++ w2) = .ok () →
    exec (.dfd g d a) s = .next (queued { newCmd .sp (.dfd g d a) s with
      ts := [td, ta], hd := s.rdH d, cnt := tilesOf (w1 ++ w2), wids := [td.d.id, ta.d.id] } s)

/-- R179 to R182: the sparse engine. -/
def Obligations.SparseExecute : Prop :=
  (∀ (g : Guard) (d a b : BitVec 5) (s : State) (env : EngineEnv) (q : Cmd) (td ta tb : Tens) (cs : List Nat) (ix : List Int)
    (rows : List (List Nat)) (cells : List Host.Cell), headOf .sp q s → q.i = .gth g d a b → q.ts = [td, ta, tb] →
    engReady q s tb false (span 0 (ext0 td)) = .ok () → (span 0 (ext0 td)).mapM (codeAt s tb) = .ok cs →
    ix = cs.map (intOfCode tb.d.fmt) →
    (∀ x ∈ ix, 0 ≤ x → x < (ext0 ta : Int) → engReady q s ta false (rowIdx ta.ext x.toNat) = .ok ()) →
    ix.mapM (fun x => if 0 ≤ x ∧ x < (ext0 ta : Int) then (rowIdx ta.ext x.toNat).mapM (codeAt s ta)
      else .ok ((rowIdx td.ext 0).map fun _ => 0)) = .ok rows →
    regionCells s td ((lastRows ((List.range (ext0 td)).zip rows)).flatMap fun r => (rowIdx td.ext r.1).zip r.2) = .ok cells →
    partialPoison s cells = false → exec (.spCommandExecute env) s = .next (landed q cells 0 s))
  ∧ (∀ (g : Guard) (d a b : BitVec 5) (s : State) (env : EngineEnv) (q : Cmd) (td ta tb : Tens) (cs : List Nat)
    (sel : List (Nat × Nat)) (rows : List (Nat × List Nat)) (cells : List Host.Cell), headOf .sp q s → q.i = .sct g d a b →
    q.ts = [td, ta, tb] → engReady q s tb false (span 0 (ext0 ta)) = .ok () →
    (span 0 (ext0 ta)).mapM (codeAt s tb) = .ok cs →
    sel = ((cs.map (intOfCode tb.d.fmt)).zipIdx.filterMap fun x => (inRows td x.1).map fun r => (r, x.2)) →
    (∀ p ∈ sel, engReady q s ta false (rowIdx ta.ext p.2) = .ok ()) →
    sel.mapM (fun p => do
      let l ← (rowIdx ta.ext p.2).mapM (codeAt s ta)
      .ok (p.1, l)) = .ok rows →
    regionCells s td ((lastRows rows).flatMap fun r => (rowIdx td.ext r.1).zip r.2) = .ok cells →
    partialPoison s cells = false → exec (.spCommandExecute env) s = .next (landed q cells 0 s))
  ∧ (∀ (g : Guard) (d a b : BitVec 5) (s : State) (q : Cmd) (td ta tb : Tens) (cs : List Nat)
    (sel : List (Nat × Nat)) (rows : List (Nat × List (Nat × Flags))) (cells : List Host.Cell), headOf .sp q s →
    q.i = .scta g d a b → q.ts = [td, ta, tb] → engReady q s tb false (span 0 (ext0 ta)) = .ok () →
    (span 0 (ext0 ta)).mapM (codeAt s tb) = .ok cs →
    sel = ((cs.map (intOfCode tb.d.fmt)).zipIdx.filterMap fun x => (inRows td x.1).map fun r => (r, x.2)) →
    engReady q s ta false (sel.flatMap fun p => rowIdx ta.ext p.2) = .ok () →
    engReady q s td false ((sel.map (·.1)).eraseDups.flatMap (rowIdx td.ext)) = .ok () →
    ((sel.map (·.1)).eraseDups).mapM (fun (r : Nat) => do
      let o ← (rowIdx td.ext r).mapM fun (idx : List Nat) => do
        let old ← valAt s td false idx
        let e ← (List.map Prod.snd (List.filter (fun (p : Nat × Nat) => p.1 == r) sel)).foldlM (fun (e : FaElem) (i : Nat) => do
          let v ← valAt s ta false (i :: idx.tail)
          .ok (faAdd td.d.anchor.toInt e v)) (faAdd td.d.anchor.toInt 0 old)
        .ok (faDrain td.d.anchor.toInt e td.d.fmt)
      .ok (r, o)) = .ok rows →
    regionCells s td ((lastRows (rows.map fun r => (r.1, r.2.map (·.1)))).flatMap fun r =>
      (rowIdx td.ext r.1).zip r.2) = .ok cells → partialPoison s cells = false →
    exec (.spCommandExecute .quiet) s = .next (landed q cells ((rows.flatMap (·.2)).foldl (fun f o => f ||| o.2) 0) s))
  ∧ (∀ (g : Guard) (d a b : BitVec 5) (s : State) (env : EngineEnv) (q : Cmd) (td ta tb : Tens) (bits : List Bool)
    (kept : List Nat), headOf .sp q s → q.i = .flt g d a b → q.ts = [td, ta, tb] →
    maskBits q s tb (ext0 ta) = .ok bits → kept = (bits.zipIdx.filter fun b => b.1).map (·.2) →
    (ext0 td < kept.length → ∃ u, exec (.spCommandExecute env) s = .next u ∧ u.c.failing = some ⟨q, 0x75, 1, 0⟩
      ∧ u.c.spq = s.c.spq)
    ∧ ∀ rows cells, kept.length ≤ ext0 td → (∀ i ∈ kept, engReady q s ta false (rowIdx ta.ext i) = .ok ()) →
      kept.mapM (fun i => (rowIdx ta.ext i).mapM (codeAt s ta)) = .ok rows →
      regionCells s td ((lastRows ((List.range kept.length).zip rows)).flatMap fun r => (rowIdx td.ext r.1).zip r.2) = .ok cells →
      partialPoison s cells = false → exec (.spCommandExecute env) s = .next (landed q cells 0 s))
  ∧ (∀ (q : Cmd) (s : State) (t : Tens) (n : Nat) (bits : List Bool), maskBits q s t n = .ok bits → bits.length = n
    ∧ ∃ cs, (span 0 ((n + 7) / 8)).mapM (codeAt s t) = .ok cs
      ∧ ∀ i, i < n → bits[i]? = some (((cs[i / 8]?).getD 0).testBit (i % 8)))
  ∧ (∀ (g : Guard) (d a b : BitVec 5) (s : State) (env : EngineEnv) (q : Cmd) (td ta tb : Tens) (bits : List Bool)
    (cells : List Host.Cell), headOf .sp q s → q.i = .bmk g d a b → q.ts = [td, ta, tb] →
    engReady q s ta false (allIdx ta.ext) = .ok () → engReady q s tb false (allIdx tb.ext) = .ok () →
    (allIdx ta.ext).mapM (fun i => do
      let x ← valAt s ta false i
      let y ← valAt s tb false (pick ta tb i)
      .ok (!x.isNan && !y.isNan && Machine.Num.cmp x.abs y.abs == Ordering.gt)) = .ok bits →
    regionCells s td (((chunks 8 (bits.length / 8 + 1) bits).map fun b =>
      (b.zipIdx.map fun x => if x.1 then 2 ^ x.2 else 0).sum).zipIdx.map fun b => ([b.2], b.1)) = .ok cells →
    partialPoison s cells = false → exec (.spCommandExecute env) s = .next (landed q cells 0 s))
  ∧ (∀ (g : Guard) (d : BitVec 6) (a : BitVec 5) (s : State) (env : EngineEnv) (q : Cmd) (ta : Tens) (bits : List Bool),
    headOf .sp q s → q.i = .cnt g d a → q.ts = [ta] → maskBits q s ta (8 * ext0 ta) = .ok bits →
    exec (.spCommandExecute env) s = .next (popCmd q (landCell q (BitVec.ofNat 64 (bits.count true)) s)))
  ∧ (∀ (g : Guard) (a b : BitVec 5) (s : State) (env : EngineEnv) (q : Cmd) (ta tb : Tens) (bits : List Bool)
    (rows : List (Nat × List Nat)) (new : List Poste), headOf .sp q s → q.i = .dfr g a b → q.ts = [ta, tb] →
    maskBits q s tb (ext0 ta) = .ok bits →
    (∀ x ∈ bits.zipIdx.filter (fun b => b.1), engReady q s ta false (rowIdx ta.ext x.2) = .ok ()) →
    (bits.zipIdx.filter fun b => b.1).mapM (fun x => do
      let l ← (rowIdx ta.ext x.2).mapM (codeAt s ta)
      .ok (x.2, l)) = .ok rows →
    new = rows.map (fun r => ⟨BitVec.ofNat 16 ((q.stgAt 0).toNat + r.1), (q.stgAt 1).setWidth 4,
      (r.2.take ((ta.ext[1]?).getD 0)).map (BitVec.ofNat 32)⟩) →
    (s.c.poste.length + new.length ≤ 4096 →
      exec (.spCommandExecute env) s = .next (popCmd q (s.onC fun c => { c with poste := s.c.poste ++ new })))
    ∧ (4096 < s.c.poste.length + new.length → ∃ u, exec (.spCommandExecute env) s = .next u
      ∧ u.c.failing = some ⟨q, 0x76, 1, 0⟩ ∧ u.c.poste = s.c.poste))
  ∧ ∀ (g : Guard) (d a : BitVec 5) (s : State) (env : EngineEnv) (q : Cmd) (td ta : Tens) (path : BitVec 4) (got : List Poste)
    (vals ids : List Nat) (c1 c2 : List Host.Cell), headOf .sp q s → q.i = .dfd g d a → q.ts = [td, ta] →
    path = (q.stgAt 0).setWidth 4 → got = (s.c.poste.filter fun e => e.path == path).take (ext0 td) →
    vals = (List.range (ext0 td)).flatMap (fun j => (List.range ((td.ext[1]?).getD 0)).map fun k =>
      (((got[j]?).bind fun e => e.vals[k]?).getD 0).toNat) →
    ids = (List.range (ext0 td)).map (fun j => ((got[j]?).map fun e => e.index.toNat).getD 0xFFFF) →
    regionCells s td ((allIdx td.ext).zip vals) = .ok c1 → regionCells s ta ((allIdx ta.ext).zip ids) = .ok c2 →
    partialPoison s (c1 ++ c2) = false → ∃ u, exec (.spCommandExecute env) s = .next u
      ∧ u = { landed q (c1 ++ c2) 0 s with c := { (landed q (c1 ++ c2) 0 s).c with poste := u.c.poste } }
      ∧ u.c.poste.filter (fun e => e.path != path) = s.c.poste.filter (fun e => e.path != path)
      ∧ u.c.poste.filter (fun e => e.path == path) = (s.c.poste.filter fun e => e.path == path).drop got.length

/-- R183 to R192: the sy slot at issue. sy:0 is staging word 24, sy:1 word 25. -/
def Obligations.SyncIssue : Prop :=
  (∀ (g : Guard) (l : BitVec 3) (p : BitVec 10) (e : BitVec 8) (s : State) (i : Instr),
    i ∈ [.fence g l, .evs g e, .plan g p, .pexec g p, .hint g p, .pin g p, .unpin g p] → ready .sy g i s = true →
    hasEntry .sy s → exec i s = .next (queued (newCmd .sy i s) s))
  ∧ (∀ (g : Guard) (d : BitVec 6) (im : BitVec 12) (s : State), ready .sy g (.statr g d im) s = true → hasEntry .sy s →
    (∃ a, statHome s .read im.toNat ((s.rdStg 24).toNat % 8) = .ok a) → exec (.statr g d im) s = .next (queued { newCmd .sy (.statr g d im) s with cell := destCell s d } (undoS d s)))
  ∧ (∀ (g : Guard) (l : BitVec 3) (s : State), ready .sy g (.phase g l) s = true →
    (s.c.txn.act = true → exec (.phase g l) s = .next (raise 7 0xA2 none s))
    ∧ (s.c.txn.act = false → hasEntry .sy s → exec (.phase g l) s =
      .next ((queued (newCmd .sy (.phase g l) s) s).onC fun c => { c with
        ranked := s.c.ranked.map fun r => if r.armed = none then { r with armed := some s.c.cmdNo } else r })))
  ∧ (∀ (g : Guard) (im : BitVec 8) (s : State) (i : Instr) (ts td : Tens) (rr ws gs : List Nat),
    i ∈ [.collAr g im, .collRs g im, .collAg g im, .collA2a g im, .collBc g im] → ready .sy g i s = true → hasEntry .sy s →
    wholeTens s ((s.rdStg 24).toNat % 4096) = .ok ts → wholeTens s ((s.rdStg 24).toNat / 2 ^ 16 % 4096) = .ok td →
    engReads s ts false (allIdx ts.ext) = .ok rr → engWrites s td (allIdx td.ext) = .ok ws → groupPages s im.toNat = .ok gs →
    (1 < ts.d.fmt ∨ 2 < td.d.fmt → exec i s = .next (raise 7 0x13 (some (execTval .sy s)) s))
    ∧ (ts.d.fmt ≤ 1 → td.d.fmt ≤ 2 → engHold s (rr ++ ws ++ gs) = .ok () →
      exec i s = .next (queued { newCmd .sy i s with ts := [td, ts], wids := [td.d.id] } s)))
  ∧ (∀ (g : Guard) (b : BitVec 6) (s : State) (l : Nat), ready .sy g (.bara g b) s = true → l = (s.rdStg 24).toNat % 8 →
    (s.c.info.nlev ≤ l → exec (.bara g b) s = .next (raise 7 0x07 (some (BitVec.ofNat 64 (15 * 2 ^ 32))) s))
    ∧ (l < s.c.info.nlev → (barOf s.c b.toNat).begun = true → (barOf s.c b.toNat).level ≠ l →
      exec (.bara g b) s = .next (raise 7 0x80 none s))
    ∧ (l < s.c.info.nlev → (barOf s.c b.toNat).begun = false ∨ (barOf s.c b.toNat).level = l →
      (s.c.txn.act = true → exec (.bara g b) s = .next (joinTxn (.bara b.toNat l 0) s))
      ∧ (s.c.txn.act = false → hasEntry .sy s →
        exec (.bara g b) s = .next (queued { newCmd .sy (.bara g b) s with x := BitVec.ofNat 64 l } s))))
  ∧ (∀ (g : Guard) (b : BitVec 6) (s : State) (i : Instr), i = .barw g b ∨ (i = .bar g b ∧ s.c.barRec = some s.c.pc) →
    ready .sy g i s = true →
    (arrivalPending s.c b.toNat = true → exec i s = .next (stalled s))
    ∧ (arrivalPending s.c b.toNat = false → (barOf s.c b.toNat).issued = true → exec i s = .next (s.onC fun c =>
      { c with bars := SMap.put c.bars b.toNat { barOf s.c b.toNat with issued := false } }))
    ∧ (arrivalPending s.c b.toNat = false → (barOf s.c b.toNat).issued = false → exec i s = .next (raise 7 0x80 none s)))
  ∧ (∀ (g : Guard) (b : BitVec 6) (s : State) (l : Nat), ready .sy g (.bar g b) s = true → s.c.barRec ≠ some s.c.pc →
    l = (s.rdStg 24).toNat % 8 → l < s.c.info.nlev →
    ((barOf s.c b.toNat).begun = true → (barOf s.c b.toNat).level ≠ l → exec (.bar g b) s = .next (raise 7 0x80 none s))
    ∧ ((barOf s.c b.toNat).begun = false ∨ (barOf s.c b.toNat).level = l →
      (s.c.txn.act = false → hasEntry .sy s → exec (.bar g b) s = .next (stalled
        ((queued { newCmd .sy (.bar g b) s with x := BitVec.ofNat 64 l } s).onC fun c => { c with barRec := some c.pc })))
      ∧ (s.c.txn.act = true → exec (.bar g b) s =
        .next (stalled ((joinTxn (.bara b.toNat l 0) s).onC fun c => { c with barRec := some c.pc })))))
  ∧ (∀ (g : Guard) (h : BitVec 5) (s : State) (t : Tens) (w : Nat) (bad : Bool), ready .sy g (.pub g h) s = true →
    useTens s h none = .ok t → (∃ a, curHome s t.d.id = .ok a) → (w, bad) = (match SMap.get? s.c.writers t.d.id with | some x => (x.1 + 1, x.2) | none => (0, false)) →
    (layoutOk t = false → exec (.pub g h) s = .next (raise 7 0x37 none s))
    ∧ (layoutOk t = true → t.view ≠ 1 → exec (.pub g h) s = .next (raise 7 0x07 (some (BitVec.ofNat 64 (14 * 2 ^ 32))) s))
    ∧ (layoutOk t = true → t.view = 1 → s.c.info.nlev ≤ (s.rdStg 24).toNat % 8 →
      exec (.pub g h) s = .next (raise 7 0x07 (some (BitVec.ofNat 64 (15 * 2 ^ 32))) s))
    ∧ (layoutOk t = true → t.view = 1 → (s.rdStg 24).toNat % 8 < s.c.info.nlev →
      (s.c.txn.act = true → exec (.pub g h) s = .next (joinTxn (if bad then .store [] else .pub t.d.id w) s))
      ∧ (s.c.txn.act = false → hasEntry .sy s → exec (.pub g h) s = .next (queued { newCmd .sy (.pub g h) s with
        ts := [t], hd := s.rdH h, x := BitVec.ofNat 64 w, void := bad } s))))
  ∧ (∀ (g : Guard) (im : BitVec 12) (s : State), ready .sy g (.statw g im) s = true →
    (∃ a, statHome s .write im.toNat ((s.rdStg 24).toNat % 8) = .ok a) → (∃ a, statHome s .write im.toNat 0 = .ok a) →
    (s.c.txn.act = true → exec (.statw g im) s = .next (joinTxn (.statw im.toNat ((s.rdStg 24).toNat % 8) (s.rdStg 25)) s))
    ∧ (s.c.txn.act = false → hasEntry .sy s → exec (.statw g im) s = .next (queued (newCmd .sy (.statw g im) s) s)))
  ∧ (∀ (a : Joined) (s : State), s.c.txn.acts.length < 16 → joinTxn a s = s.onC fun c => { c with
    txn := { c.txn with acts := c.txn.acts ++ [a], count := c.txn.count + 1 } })
  ∧ (∀ (a : Joined) (s : State), 16 ≤ s.c.txn.acts.length → s.c.txn.act = true → joinTxn a s = s.onC fun c => { c with
    txn := { c.txn with act := false, acts := [], commit := false, reason := 3 }
    lanes := c.lanes.map fun l => l.map fun x => { x with dead := x.dead || x.joins } })
  ∧ (∀ (g : Guard) (s : State), ready .sy g (.xbeg g) s = true → exec (.xbeg g) s = .next (
    if s.c.txn.act then raise 7 0xA1 none s else if s.c.syq = [] ∧ s.c.lanes.flatten = [] then s.onC fun c => { c with txn := ⟨true, [], false, 0, 0⟩ }
    else stalled s))
  ∧ (∀ (g : Guard) (s : State), ready .sy g (.xend g) s = true →
    (s.c.txn.act = false → s.c.xendRec ≠ some s.c.pc → exec (.xend g) s = .next (raise 7 0xA0 none s))
    ∧ (s.c.txn.act = false → s.c.xendRec = some s.c.pc → exec (.xend g) s = .next s)
    ∧ (s.c.txn.act = true → (s.c.syq ≠ [] ∨ s.c.lanes.flatten ≠ [] ∨ (∃ q ∈ s.c.cpq, q.joined = true) ∨ s.c.failing ≠ none
        ∨ ∃ a ∈ s.c.txn.acts, joinedWaits s.c a = true) →
      exec (.xend g) s = .next (stalled (s.onC fun c => { c with xendRec := some c.pc })))
    ∧ (s.c.txn.act = true → s.c.syq = [] → s.c.lanes.flatten = [] → (∀ q ∈ s.c.cpq, q.joined = false) → s.c.failing = none →
      (∀ a ∈ s.c.txn.acts, joinedWaits s.c a = false) →
      ((∀ a ∈ s.c.txn.acts, joinedPoison s a = none) → exec (.xend g) s =
        .next ((s.c.txn.acts.foldl (fun s a => performJoined a s) s).onC fun c => { c with
          txn := { s.c.txn with act := false, acts := [], commit := true, reason := 0 } }))
      ∧ (∀ va, s.c.txn.acts.findSome? (joinedPoison s) = some va → exec (.xend g) s = .next (s.onC fun c => { c with
          txn := { c.txn with act := false, acts := [], commit := false, reason := 2 }
          failing := some ⟨newCmd .sy (.xend g) s, 0x71, 1, BitVec.ofNat 64 va⟩ }))))
  ∧ (∀ (g : Guard) (s : State), ready .sy g (.xabt g) s = true → exec (.xabt g) s = .next (if s.c.txn.act then
    if s.c.lanes.flatten ≠ [] then stalled s else s.onC fun c => { c with txn := { c.txn with act := false, acts := [], commit := false, reason := 4 } } else s))
  ∧ (∀ (g : Guard) (im : BitVec 8) (s : State), ready .sy g (.cwt g im) s = true → exec (.cwt g im) s = .next (
    if s.c.syq.any fun q => [Instr.collAr q.i.guard im, .collRs q.i.guard im, .collAg q.i.guard im, .collA2a q.i.guard im,
      .collBc q.i.guard im].contains q.i then stalled s else s))
  ∧ (∀ (g : Guard) (p : BitVec 10) (s : State), ready .sy g (.pwait g p) s = true → exec (.pwait g p) s = .next (
    if (s.c.syq.any fun q => q.i == .pexec q.i.guard p) || (s.c.failing.any fun f => f.cmd.i == .pexec f.cmd.i.guard p)
      || ((planOf s p.toNat).any fun h => h.run.isSome) then stalled s else s))
  ∧ (∀ (g : Guard) (e : BitVec 8) (s : State), ready .sy g (.evw g e) s = true → exec (.evw g e) s = .next (
    if (eventOf s e.toNat).toNat < (s.rdStg 24).toNat then stalled s else s))
  ∧ ∀ (g : Guard) (s : State), ready .sy g (.yld g) s = true → exec (.yld g) s = .next (if s.c.trap.handler then s
    else s.onC fun c => { c with preempt := c.preempt || rivalWaits s, bun := { c.bun with safe := true } })

/-- R183 to R192, R217, R331 to R336: the sync engine. -/
def Obligations.SyncExecute : Prop :=
  (∀ (g : Guard) (s : State) (q : Cmd), headOf .sy q s → s.c.lanes.flatten = [] →
    (∀ l, q.i = .phase g l → s.c.phaseAt = none → blockBefore q s = false →
      exec .syCommandExecute s = .next (s.onC fun c => { c with phaseAt := some l.toNat }))
    ∧ (∀ l, q.i = .fence g l → (∀ x ∈ earlierCmds q s.c, fenced x = false) → blockBefore q s = false → exec .syCommandExecute s = .next (popCmd q s))
    ∧ (∀ b, q.i = .bara g b ∨ q.i = .bar g b → (barOf s.c b.toNat).arrived = false →
      exec .syCommandExecute s = .next (popCmd q (s.onC fun c => { c with
        bars := SMap.put c.bars b.toNat ⟨q.x.toNat, true, true, true⟩ })))
    ∧ (∀ h t, q.i = .pub g h → q.ts = [t] →
      (q.void = true → exec .syCommandExecute s = .next (popCmd q s))
      ∧ (∀ a, q.void = false → (∀ x ∈ earlierCmds q s.c, t.d.id ∉ x.wids) → curHome s t.d.id = .ok a → homePoisoned s a = false →
        exec .syCommandExecute s = .next (popCmd q (s.write [(a, homeByte s a ^^^ 0x20)]))))
    ∧ (∀ d im a, q.i = .statr g d im → statHome s .read im.toNat ((q.stgAt 0).toNat % 8) = .ok a → homePoisoned s a = false →
      exec .syCommandExecute s = .next (popCmd q (landCell q (homeWord s a &&&
        (if (q.stgAt 0).toNat % 8 = 0 then 0x00000001FFFFFFFF else statMask ((q.stgAt 0).toNat % 8))) s)))
    ∧ (∀ im, q.i = .statw g im → ∀ a a0 w, w = (q.stgAt 0).toNat % 8 → statHome s .write im.toNat w = .ok a →
      statHome s .write im.toNat 0 = .ok a0 → homePoisoned s a0 = false →
      exec .syCommandExecute s = .next (popCmd q (statWrite im.toNat w (q.stgAt 1) s)))
    ∧ (∀ e c, q.i = .evs g e → s.ctx? = some c → exec .syCommandExecute s = .next (popCmd q { s with mon := { s.mon with
        ctxs := SMap.put s.mon.ctxs s.c.info.ctx { c with
          events := SMap.put c.events e.toNat ((SMap.get? c.events e.toNat).getD 0 + 1) } } }))
    ∧ (∀ im kind i td ts gr ws self codes,
      (i, kind) ∈ [(.collAr g im, 0), (.collRs g im, 1), (.collAg g im, 2), (.collA2a g im, 3), (.collBc g im, 4)] → q.i = i →
      q.ts = [td, ts] → (∀ c ∈ s.c.colls, c.id ≠ im.toNat) → loadGroup s im.toNat = .ok (gr, ws) →
      memberIndex s gr ws = some self → ownShape kind gr.nmem self td ts = true → engReady q s ts false (allIdx ts.ext) = .ok () →
      (allIdx ts.ext).mapM (codeAt s ts) = .ok codes → exec .syCommandExecute s = .next (s.onC fun c => { c with
        colls := s.c.colls ++ [⟨im.toNat, kind, q.addr, q.word, ts, td, codes, [], [], q.hd, gr.nmem, self⟩] })))
  ∧ (∀ (s : State) (id w a0 a : Nat) (v old new : Word), statHome s .write id 0 = .ok a0 → statHome s .write id w = .ok a →
    a = a0 + 8 * w → w < 8 → s.MemOk →
    sameKeys s (cellsAt a0 (natLe 8 0) ++ cellsAt a (natLe 8 0)) →
    (∀ c ∈ cellsAt a0 (natLe 8 0) ++ cellsAt a (natLe 8 0), ∀ o ∈ s.outer, homeBlock o.1 = homeBlock c.1 → homeTag o.1 = homeTag c.1) →
    old = homeWord s a0 →
    new = homeWord (statWrite id w v s) a0 →
    new.setWidth 32 = old.setWidth 32 + 1
      ∧ new.getLsbD 32 = (if w = 0 then v.getLsbD 32 else if w = 1 ∨ w = 2 then false else old.getLsbD 32)
      ∧ (w ≠ 0 → homeWord (statWrite id w v s) a = v &&& statMask w))
  ∧ (∀ (env : BoundaryEnv) (s : State) (n : Nat) (q : Cmd), s.c.phaseAt = some n → s.c.syq.head? = some q →
    exec (.phaseBoundaryComplete env) s = .next (popCmd q (applyBoundary n (s.c.ranked.filter (armedBy q.no)) true env
      (s.onC fun c => { c with ranked := c.ranked.filter fun r => !armedBy q.no r, phaseAt := none }))))
  ∧ (∀ (b : BitVec 6) (s : State), (barOf s.c b.toNat).arrived = true → exec (.barrierGenerationComplete b) s =
    .next (s.onC fun c => { c with bars := SMap.put c.bars b.toNat { barOf s.c b.toNat with begun := false, arrived := false } }))
  ∧ (∀ (id : BitVec 8) (chunk owner m : Nat) (issued : List Nat) (s : State) (c : Coll) (q : Cmd),
    collAt id.toNat s = some (c, q) → owner = ((c.owner.find? fun o => o.1 == chunk).map (·.2)).getD chunk → chunk < c.n →
    owner ≠ c.self → c.self ∈ issued → (∀ i ∈ issued, i < c.n) →
    ((List.range c.n).map fun k => (owner + 1 + k) % c.n).find? issued.contains = some m →
    exec (.collectiveOwnershipMove id chunk issued) s = .next (s.onC fun k => { k with colls := k.colls.map fun x =>
      if x.id = c.id then { x with owner := (chunk, m) :: x.owner.filter fun o => o.1 != chunk } else x }))
  ∧ (∀ (id : BitVec 8) (contribs l : List Contribution) (s : State) (c : Coll) (q : Cmd) (outs : List (Nat × Flags))
    (cells : List Host.Cell), collAt id.toNat s = some (c, q) → q.slot = 7 → laneHolds s q = false → writesBehind s q = false → allContribs c contribs = some l →
    (c.kind ≤ 1 → ∀ x ∈ l, x.anchor = c.dst.d.anchor) → collCodes c l = .ok outs →
    regionCells s c.dst ((allIdx c.dst.ext).zip (outs.map (·.1))) = .ok cells → partialPoison s cells = false →
    exec (.collectiveComplete id contribs false) s =
      .next (popCmd q ((orFlags 7 q.addr (outs.foldl (fun f o => f ||| o.2) 0) (s.write cells)).onC fun k => { k with
        colls := k.colls.filter fun x => x.id != c.id })))
  ∧ (∀ (c : Coll) (l : List Contribution), c.kind ≤ 1 → (∀ x ∈ l, x.ext = c.src.ext ∧ x.codes.length = c.codes.length) →
    collCodes c l = .ok ((List.range (count c.dst.ext)).map fun i =>
      faDrain c.dst.d.anchor.toInt (l.foldl (fun e x => faAdd c.dst.d.anchor.toInt e (decodeNum x.fmt []
        ((x.codes[(if c.kind = 0 then 0 else c.self * c.codes.length / c.n) + i]?).getD 0))) 0) c.dst.d.fmt))
  ∧ (∀ (c : Coll) (l : List Contribution) (x : Contribution), c.kind ≤ 1 → x ∈ l → x.ext ≠ c.src.ext →
    ∃ y ∈ l, collCodes c l = .error y.member)
  ∧ ∀ (id : BitVec 8) (member : Nat) (s : State) (c : Coll) (q : Cmd), collAt id.toNat s = some (c, q) → member < c.n →
    member ≠ c.self → exec (.memberTimeout id member) s = .next ((applyFree (collCells c s) s).onC fun k => { k with
      colls := k.colls.map fun x => if x.id = c.id then { x with lost := member :: x.lost } else x
      failing := some ⟨q, 0x85, 1, BitVec.ofNat 64 member⟩ })

/-- The events of the core; without a patch slot, where a fault could be diverted. -/
def Obligations.CoreEvents : Prop :=
  (∀ (lane : Lane) (n : Nat) (s t : State) (x : Slipped) (rest : List Slipped),
    (lane, n) ∈ [(.sc, 0), (.ar, 1), (.ve, 2)] → laneOf s n = x :: rest →
    t = runReleased (laterTiles x.no s) x (s.onC fun c => { c with lanes := c.lanes.set n rest }) → t.c.bun.stall = false →
    t.c.bun.stopped = false → ∃ u, exec (.slipRelease lane) s = .next u ∧ u.c.pc = s.c.pc ∧ u.c.bun = s.c.bun
      ∧ u.c.view = s.c.view ∧ u.c.held = s.c.held ∧ u.mem = t.mem ∧ u.c.r = t.c.r ∧ u.c.arr = t.c.arr ∧ u.c.lanes = t.c.lanes
      ∧ u.c.inflight.take s.c.inflight.length = t.c.inflight.take s.c.inflight.length)
  ∧ (∀ (lane : Lane) (s : State) (addr : Word), s.c.info.patch.slots = [] →
    ((∃ n x rest, (lane, n) ∈ [(.sc, 0), (.ar, 1), (.ve, 2)] ∧ laneOf s n = x :: rest ∧ addr = x.addr)
      ∨ ∃ z w ws, lane = .stream z ∧ (s.c.z[z.toNat]'z.isLt).waits = w :: ws ∧ addr = w.2) →
    ∃ u, exec (.slipWaitTimeout lane) s = .next u ∧ u.c.ended = true ∧ u.c.info.running = false ∧ u.mem = s.mem
      ∧ (s.c.trap.handler = false → u.c.trap.tpc = addr ∧ u.c.trap.tstat.toNat % 2 ^ 8 = 0x50
        ∧ u.c.trap.tstat.getLsbD 30 = true))
  ∧ (∀ (s : State) (cause : Nat) (tv : Word), active s = true → s.c.tripAt = none → s.c.view = none → s.c.resume = none →
    s.c.trap.due = none → trapReady s = true → fetchFault? s = some (cause, tv) → exec .fetchFault s = .next
      (deliver 0 cause tv (toHandler cause) (s.onC fun c => { c with bun := freshBundle c, trap := freshTrap c })))
  ∧ (∀ (s : State), s.c.resume ≠ some 8 → s.c.view = none ∨ s.c.bun.blind = none →
    (s.c.pc.toNat % 32 ≠ 0 → fetchFault? s = some (0x12, tvalVa .fetch 3 s.c.pc.toNat))
    ∧ (s.c.pc.toNat % 32 = 0 →
      (∀ f, translate s s.c.info.ctx .fetch false s.c.pc.toNat = .error f → fetchFault? s = some (f.cause .fetch, f.tval))
      ∧ ∀ h, translate s s.c.info.ctx .fetch false s.c.pc.toNat = .ok h →
        ((∀ i, i < 32 → poisoned s (h + i) = false) ↔ fetchFault? s = none)
        ∧ ∀ c tv, fetchFault? s = some (c, tv) → c = 0x43))
  ∧ (∀ (s : State) (p : PendFault) (e : Word), firstPend s.c.trap.pend = some p → active s = true → atBoundary s = true →
    s.c.resume = none → waitsInFlight s.c = false → s.c.spec = none → s.c.info.patch.slots = [] → s.c.trap.handler = false →
    s.c.trap.entry = some e → toHandler p.cause = true → (∀ q ∈ s.c.trap.pend, p.slot ≤ q.slot) ∧ p ∈ s.c.trap.pend
      ∧ exec .trapEntry s = .next (takeTrap p.cause p.slot 0 p.tval e (s.onC fun c => { landAll c with
        bun := { freshBundle (landAll c) with safe := c.bun.safe, drained := c.bun.drained }
        trap := { freshTrap (landAll c) with pend := c.trap.pend.erase p } })))
  ∧ (∀ (s : State) (f : Failing) (h : Nat), s.c.failing = some f → s.c.ended = false → joinedFailed f s = false →
    translate s s.c.info.ctx .write false (s.c.info.dla + 64 * s.c.trap.dlaIdx.toNat) = .ok h →
    ∃ u, exec .executionFault s = .next u ∧ u.c.failing = none
      ∧ u.mem = (s.write (cellsAt h (deadLetter f (laterCmds f.cmd s.c).length))).mem
      ∧ u.c.trap = { s.c.trap with dlaIdx := s.c.trap.dlaIdx + 1, pend := s.c.trap.pend ++ [⟨f.cmd.slot, f.cause,
        BitVec.ofNat 64 (s.c.trap.dlaIdx.toNat * 2 ^ 52 + f.cmd.addr.toNat % 2 ^ 52)⟩] }
      ∧ u.c.r = s.c.r ∧ (∀ q ∈ u.c.mxq ++ u.c.cpq ++ u.c.spq, q ∈ s.c.mxq ++ s.c.cpq ++ s.c.spq))
  ∧ (∀ (s : State) (sp : Spec) (v : Bool), s.c.spec = some sp → sp.val = some v →
    (∀ e ∈ s.c.inflight, e.dst ≠ .p sp.pred) → atBoundary s = true → ∃ u, exec .speculationResolve s = .next u
      ∧ u.c.spec = none
      ∧ (v = false → u.c.pc = sp.target ∧ u.c.loops = sp.loops ∧ u.mem = s.mem
        ∧ u.c.r = (landList s.c.now sp.infl { s.c with r := sp.regs }).r
        ∧ ((∀ e ∈ sp.infl, s.c.now < e.due) → u.c.r = sp.regs ∧ u.c.inflight = sp.infl)
        ∧ u.c.cmps = sp.cmps ∧ u.c.trap = { s.c.trap with due := none } ∧ u.c.mismatch = none ∧ u.c.tripAt = none
        ∧ u.c.lanes = s.c.lanes.map (fun l => (l.filter fun x => decide (x.nth ≤ sp.nth)).map fun x =>
          { x with shift := x.shift - sp.shift })
        ∧ u.c.arr = s.c.arr ∧ u.c.m = s.c.m ∧ u.c.mxq = s.c.mxq ∧ u.c.cpq = s.c.cpq ∧ u.c.spq = s.c.spq ∧ u.c.syq = s.c.syq
        ∧ u.mon = s.mon ∧ u.fe = s.fe)
      ∧ (v = true → s.c.txn.act = false → u.c.pc = s.c.pc ∧ u.c.r = s.c.r
        ∧ u.mem = (sp.held.foldl (fun t h => t.write h.cells) s).mem))
  ∧ (∀ (s : State) (e : Emu), s.c.emu = some e → dueFirst s.c = none → s.c.trap.due = none → e.issued ≤ 4096 →
    (e.issued = 0 → waitsInFlight s.c = false) →
    (∀ t, e.pos < e.len → emuBundle e s = some t → exec .emulationSequence s = .next t)
    ∧ (e.len ≤ e.pos → lanesWait s.c = false → (∀ a ∈ awaited s.c, ∀ n, a.1 ≠ .ex n ∧ a.1 ≠ .ep n) →
      ∃ u, exec .emulationSequence s = .next u ∧ u.c.emu = none ∧ u.c.resume = some (e.slot + 1) ∧ u.c.pc = s.c.pc
        ∧ u.mem = s.mem))
  ∧ (∀ (s : State) (e : Emu), s.c.emu = some e → 4096 < e.issued → s.c.trap.due = none → ∃ u, exec .emulationOverrun s = .next u
    ∧ u.c.ended = true ∧ u.mem = s.mem ∧ (s.c.trap.handler = false → u.c.trap.tstat.toNat % 2 ^ 8 = 0xD2
      ∧ u.c.trap.tval = BitVec.ofNat 64 (e.patch * 2 ^ 32 + e.word.toNat)))
  ∧ (∀ (s : State), active s = true → 65537 ≤ s.c.sinceSafe → s.c.info.patch.slots = [] →
    ∃ u, exec .safePointDistanceExceeded s = .next u ∧ u.c.ended = true ∧ u.mem = s.mem
      ∧ (s.c.trap.handler = false → u.c.trap.tstat.toNat % 2 ^ 8 = 0x05 ∧ u.c.trap.tstat.getLsbD 30 = true))
  ∧ (∀ (s : State) (reason : BitVec 4), s.c.txn.act = true → 1 ≤ reason.toNat → reason.toNat ≤ 5 →
    exec (.transactionAbort reason) s = .next (s.onC fun c => { c with
      txn := { c.txn with act := false, acts := [], commit := false, reason := reason }
      lanes := c.lanes.map fun l => l.map fun x => { x with dead := x.dead || x.joins } }))
  ∧ ∀ (k : Slot) (chan : BitVec 4) (s : State) (q : Cmd), engineHead k chan s.c = some q → s.c.failing = none →
    tileWaits q s = true → exec (.queueFullEmptyTimeout k chan) s =
      .next (s.onC fun c => { c with failing := some ⟨q, 0x50, 1, 0⟩ })

/-- R244 to R273, R309. Which drain a residue mismatch meets is the model's input (log 80), whether a result is held compressed a free
choice (log 56). -/
def Obligations.PlanEvents : Prop :=
  (∀ (g : Guard) (n : BitVec 10) (s : State) (q : Cmd) (ns : List PlanNode) (hs : List Hint) (ch : PlanChoice),
    headOf .sy q s → s.c.lanes.flatten = [] → q.i = .plan g n → (∀ h, planOf s n.toNat = some h → h.run = none) →
    loadBlock s ((q.stgAt 0).toNat % 2 ^ 52) = .ok ns → hs = ((planOf s n.toNat).map fun h => h.hints).getD [] →
    hs.all (hintOk (opsOf s) s ns) = true → buildPlan s ns hs [] [] PlanChoice.none = some ch →
    exec .syCommandExecute s = .next (popCmd q (setPlan n.toNat
      { state := 1, pinned := false, replans := 0, qaddr := (q.stgAt 0).toNat % 2 ^ 52, block := ns, choice := ch
        vers := versionsOf s ns, uavail := (s.health.uavail[s.me / 64]?).getD 0, hints := hs, run := none } s)))
  ∧ (∀ (g : Guard) (n : BitVec 10) (s : State) (q : Cmd) (c : Nat) (d : Word), headOf .sy q s → s.c.lanes.flatten = [] →
    q.i = .plan g n → (∀ h, planOf s n.toNat = some h → h.run = none) →
    loadBlock s ((q.stgAt 0).toNat % 2 ^ 52) = .error (c, d) → c ≠ 0x71 → exec .syCommandExecute s =
      .next ((applyFree [] s).onC fun k => { k with failing := some ⟨q, c, 1, d⟩ }))
  ∧ (∀ (g : Guard) (n : BitVec 10) (s : State) (q : Cmd) (i : Instr), headOf .sy q s → s.c.lanes.flatten = [] →
    i ∈ [.hint g n, .pin g n, .unpin g n] → q.i = i →
    (planOf s n.toNat = none → exec .syCommandExecute s =
      .next ((applyFree [] s).onC fun k => { k with failing := some ⟨q, 0x92, 1, 0⟩ }))
    ∧ ∀ h, planOf s n.toNat = some h →
      (i = .pin g n → exec .syCommandExecute s = .next (popCmd q (setPlan n.toNat { h with pinned := true } s)))
      ∧ (i = .unpin g n → exec .syCommandExecute s = .next (popCmd q (setPlan n.toNat { h with pinned := false } s)))
      ∧ (∀ hs, i = .hint g n → addHint h s (q.stgAt 0) (q.stgAt 1) = some hs →
        exec .syCommandExecute s = .next (popCmd q (setPlan n.toNat { h with hints := hs } s))))
  ∧ (∀ (n : Nat) (h : PlanHandle) (s : State) (c : Context), s.ctx? = some c →
    planOf (setPlan n h s) n = some h ∧ (setPlan n h s).c = s.c
      ∧ ∀ a, translate s s.c.info.ctx .write true (c.recd.prbase + 1024 * n) = .ok a →
        (setPlan n h s).mem = (s.write (cellsAt a (planRecord h))).mem)
  ∧ (∀ (g : Guard) (n : BitVec 10) (s : State) (q : Cmd), s.c.syq.head? = some q → s.c.failing = none → q.i = .pexec g n →
    (planOf s n.toNat = none → exec (.pexecAccept n) s = .next (s.onC fun x => { x with failing := some ⟨q, 0x92, 1, 0⟩ }))
    ∧ ∀ h, planOf s n.toNat = some h → h.run = none → planConflict s h.block = false → slipBefore q s.c = false →
      (∀ v l, changedVersions s h = v :: l → h.pinned = true → exec (.pexecAccept n) s =
        .next ((setPlan n.toNat { h with state := 3 } s).onC fun x => { x with
          failing := some ⟨q, 0x90, 1, BitVec.ofNat 64 ((v :: l).foldl min 4095)⟩ }))
      ∧ ∀ h0 h' : PlanHandle, (changedVersions s h = [] ∧ h0 = h)
          ∨ (changedVersions s h ≠ [] ∧ h.pinned = false ∧ ∃ c, buildPlan s h.block h.hints [] [] PlanChoice.none = some c
            ∧ h0 = { h with choice := c, vers := versionsOf s h.block, replans := h.replans + 1 }) →
        h' = { h0 with uavail := (s.health.uavail[s.me / 64]?).getD 0, choice := { h0.choice with slots := slotsOf s } } →
        (slotsOf s = 0 → exec (.pexecAccept n) s = .next ((setPlan n.toNat { h' with state := 3 } s).onC fun x => { x with
          failing := some ⟨q, 0x94, 1, BitVec.ofNat 64 (s.me / 64)⟩ }))
        ∧ (slotsOf s ≠ 0 → ∀ r0 r1 r, r0 = ⟨q.no, q.addr, q.word, postOrder h.block, [], [], [], [], []⟩ → s.c.spec = none →
          ((blockTensors h.block).filter fun t => (producer h.block t).isNone).foldlM (fun r t => readLeaf q s t r) r0 = .ok r1 →
          h.block.foldlM (fun r m => readOut q s m r) r1 = .ok r →
          exec (.pexecAccept n) s = .next (popCmd q (setPlan n.toNat { h' with state := 2, run := some r } s))))
  ∧ (∀ (n : BitVec 10) (s : State) (h : PlanHandle) (r : PlanRun) (x : RunStop), planOf s n.toNat = some h →
    s.c.failing = none → h.run = some r → r.todo ≠ [] → x = runToBreak h r.todo r s →
    (∀ c d, x.fail = some (c, d) → exec (.planBreak n) s = .next (failBlock n.toNat h r c d x.st))
    ∧ (x.fail = none → exec (.planBreak n) s = .next (if 7 ∈ s.c.upsets ∧ drained h r x.run ≠ [] then
      planMismatch n.toNat h r (drained h r x.run) s else endBreak n.toNat h r { x.run with reruns := [] } x.out x.st)))
  ∧ (∀ (n : Nat) (h : PlanHandle) (r : PlanRun) (nodes : List Nat) (s t : State), nodes ≠ [] →
    t = countResidue (s.onC fun c => { c with upsets := c.upsets.erase 7, fresh := c.fresh + 1 }) → ∃ i ∈ nodes,
    (r.reruns.count i < 2 → planMismatch n h r nodes s = setPlan n { h with run := some { r with reruns := i :: r.reruns } } t)
    ∧ (2 ≤ r.reruns.count i → planMismatch n h r nodes s = failBlock n h r 0xF3 0 t))
  ∧ (∀ (n : Nat) (h : PlanHandle) (r r' : PlanRun) (out : Bool) (s s' : State),
    s' = s.onC (fun c => { c with fresh := c.fresh + h.block.length }) →
    endBreak n h r r' out s = match overBreak h r r' s.c.fresh, h.pinned with
      | none, _ => setPlan n (afterBreak h r r' out s') s'
      | some _, false => setPlan n (afterBreak { h with replans := h.replans + 1 } r r' out s') s'
      | some id, true => failBlock n h r' 0x91 (BitVec.ofNat 64 id) s')
  ∧ (∀ (h : PlanHandle) (r r' : PlanRun) (s : State), afterBreak h r r' false s = { h with run := some r' }
    ∧ (h.pinned = true → afterBreak h r r' true s = { h with run := some r' })
    ∧ (h.pinned = false → ∀ c, buildPlan s h.block h.hints (breakSeen h r r')
        ((List.range h.block.length).filter fun i => !r'.todo.contains i || (h.block[i]?).any PlanNode.pin) h.choice = some c →
      afterBreak h r r' true s = { h with choice := c, replans := h.replans + 1, run := some r' }))
  ∧ (∀ (n : BitVec 10) (s : State) (h : PlanHandle) (r : PlanRun) (cells : List (List Host.Cell)),
    planOf s n.toNat = some h → s.c.failing = none → h.run = some r → r.todo = [] → s.c.spec = none →
    h.block.mapM (commitCells s r) = .ok cells →
    (partialPoison s cells.flatten = false → exec (.planBlockCommit n) s = .next (setPlan n.toNat
      { h with state := 1, run := none }
      ((h.block.filter fun m => m.ncons == 0).foldl (fun s m => publish m.out s) (s.write cells.flatten))))
    ∧ (partialPoison s cells.flatten = true → exec (.planBlockCommit n) s = .next (failBlock n.toNat h r 0x71 0 s)))
  ∧ (∀ (diff : List Host.Cell) (chk : Nat) (s : State) (new : List Host.Cell),
    new = memSetAll diff (if s.bind.active then s.bind.plane1 else s.bind.plane0) →
    (Config.bindingChecksum new = chk → s.bind.active = true → exec (.bindingPlaneUpdate diff chk) s =
      .next { s with bind := { s.bind with plane0 := new, active := false, resend := false } })
    ∧ (Config.bindingChecksum new = chk → s.bind.active = false → exec (.bindingPlaneUpdate diff chk) s =
      .next { s with bind := { s.bind with plane1 := new, active := true, resend := false } })
    ∧ (Config.bindingChecksum new ≠ chk → exec (.bindingPlaneUpdate diff chk) s =
      .next { s with bind := { s.bind with resend := true } }))
  ∧ ∀ (va : Word) (s : State) (c : Context), s.ctx? = some c → s.c.info.running = true → va.toNat < 2 ^ 52 →
    (∀ e ∈ c.ranges, rangeHolds e.2 va.toNat = false) →
    (∀ t ∈ s.mon.tlb, ¬(t.1 = s.c.info.ctx ∧ t.2.1 ≤ va.toNat ∧ va.toNat < t.2.1 + t.2.2.1)) →
    exec (.pageTableWalk va) s = .next (match walkFrom (homeMem s) va.toNat 3 c.recd.ptroot with
      | some p => { s with mon := { s.mon with tlb := s.mon.tlb ++ [(s.c.info.ctx, p)] } }
      | none => s)

/-- R274 to R288: the front end. -/
def Obligations.QueueEvents : Prop :=
  (∀ (ctx : BitVec 12) (die : BitVec 2) (v : Word) (s : State) (q n k : Nat), s.links.linkUp = true → s.health.power ≠ 3 →
    q = v.toNat / 2 ^ 54 → n = v.toNat % 2 ^ 54 → k = die.toNat * 1024 + q →
    (s.links.ide = false → exec (.doorbell ctx die v) s = .next { s with links := { s.links with io := none } })
    ∧ (s.links.ide = true → (∀ x, queueAt s k = some x → x.e.en = false ∨ x.e.ctx ≠ ctx.toNat) →
      exec (.doorbell ctx die v) s = .next (countDup die s))
    ∧ (s.links.ide = true → ∀ x, queueAt s k = some x → x.e.en = true → x.e.ctx = ctx.toNat →
      ∃ u, exec (.doorbell ctx die v) s = .next u ∧ u.health = { s.health with power := 0 }
        ∧ (∀ e ∈ s.fe.letters, e.die = die.toNat → e.q = q → e.read = false →
          u.fe.overflow = s.fe.overflow ∧ u.fe.letters = s.fe.letters.map fun e =>
            if e.die = die.toNat ∧ e.q = q ∧ e.read = false then { e with seq := max e.seq n } else e)
        ∧ ((∀ e ∈ s.fe.letters, e.die = die.toNat → e.q = q → e.read = true) →
          ((s.fe.letters.filter fun e => e.die == die.toNat).length < 64 →
            u.fe.letters = s.fe.letters ++ [⟨die.toNat, q, n, false⟩] ∧ u.fe.overflow = s.fe.overflow)
          ∧ (64 ≤ (s.fe.letters.filter fun e => e.die == die.toNat).length → u.fe.letters = s.fe.letters ∧ k ∈ u.fe.overflow))))
  ∧ (∀ (die : BitVec 2) (q : BitVec 10) (s : State) (x : Queue) (k : Nat), k = die.toNat * 1024 + q.toNat →
    queueAt s k = some x → x.e.en = true → cxlUp s = true → doorbellHeld die.toNat q.toNat s = true → ∃ u, exec (.frontEndRingRead die q) s = .next u
      ∧ (queueAt u k).map (·.read) = some (ringPackets s (s.mem.length + s.outer.length) ⟨x.curSeg, x.taken, x.curSeq⟩)
      ∧ u = { s with fe := { s.fe with queues := u.fe.queues } } ∧ ∀ j, j ≠ k → queueAt u j = queueAt s j)
  ∧ (∀ (s : State) (n : Nat) (p : RingPos) (j : Nat) (pk : Packet), (ringPackets s n p)[j]? = some pk →
    pk.seq = p.seq + j ∧ pk.type ≠ 0)
  ∧ (∀ (die : BitVec 2) (s : State), (∃ e ∈ s.fe.letters, e.die = die.toNat ∧ e.read = false) →
    ∃ a e b, exec (.letterboxRead die) s = .next { s with fe := { s.fe with letters := a ++ { e with read := true } :: b } }
      ∧ s.fe.letters = a ++ e :: b ∧ e.die = die.toNat ∧ e.read = false ∧ ∀ x ∈ a, x.die = die.toNat → x.read = true)
  ∧ (∀ (die : BitVec 2) (q : BitVec 10) (s : State) (x : Queue) (e : LetterEntry) (k : Nat), k = die.toNat * 1024 + q.toNat →
    queueAt s k = some x → cxlUp s = true →
    (s.fe.letters.find? fun e => e.die == die.toNat && e.q == q.toNat && e.read) = some e → e.seq ≤ x.lastSeq →
    ∃ u, exec (.letterboxRetire die q) s = .next u ∧ u.fe.letters = dropLetter die.toNat q.toNat s.fe.letters
      ∧ (queueAt u k).map (fun y => y.curSeq) =
        some (ringMove s (x.lastSeq + 1 - x.curSeq) ⟨x.curSeg, x.taken, x.curSeq⟩).1.seq)
  ∧ (∀ (die : BitVec 2) (s : State), ∃ u, exec (.overflowMaskReadClear die) s = .next u
    ∧ u.fe.overflow = s.fe.overflow.filter (fun k => k / 1024 != die.toNat)
    ∧ (∀ k, k ∈ u.fe.handling ↔ k ∈ s.fe.handling ∨ (k ∈ s.fe.overflow ∧ k / 1024 = die.toNat))
    ∧ u = { s with fe := { s.fe with overflow := u.fe.overflow, handling := u.fe.handling } })
  ∧ (∀ (die : BitVec 2) (q : BitVec 10) (pk : Packet) (s : State) (x : Queue) (k : Nat), k = die.toNat * 1024 + q.toNat →
    queueAt s k = some x → x.e.en = true →
    (256 ≤ (s.fe.launches.filter fun l => l.die == die.toNat).length → exec (.launchPortWrite die q pk) s = .next s)
    ∧ ((s.fe.launches.filter fun l => l.die == die.toNat).length < 256 →
      (pk.seq ≤ x.lastSeq → exec (.launchPortWrite die q pk) s = .next (countDup die s))
      ∧ (x.lastSeq + 1 < pk.seq → exec (.launchPortWrite die q pk) s = .next (monitorCause 0xD8 s))
      ∧ (pk.seq = x.lastSeq + 1 → packetRefusal s die.toNat x pk = none → ∀ t, t = onQueue k (fun x => { x with
          lastSeq := pk.seq, read := x.read.filter fun y => decide (pk.seq < y.seq) }) s →
        (pk.type = 4 → exec (.launchPortWrite die q pk) s = .next (endPacket die.toNat q.toNat pk.seq none t))
        ∧ (pk.type ≠ 4 → exec (.launchPortWrite die q pk) s = .next (wakeQueues t { t with fe := { t.fe with
          launches := s.fe.launches ++ [newLaunch die.toNat q.toNat x.e.ctx pk] } })))))
  ∧ (∀ (die : BitVec 2) (q : BitVec 10) (seq : Nat) (reason : BitVec 8) (pk : Packet) (s : State) (x : Queue) (k : Nat),
    k = die.toNat * 1024 + q.toNat → queueAt s k = some x → x.e.en = true →
    (s.fe.launches.filter fun l => l.die == die.toNat).length < 256 → seq = x.lastSeq + 1 →
    (x.read.find? fun y => y.seq == seq) = some pk → packetRefusal s die.toNat x pk = some reason.toNat →
    exec (.launchPortRefusalWrite die q seq reason) s = .next (endPacket die.toNat q.toNat seq (some (reason.toNat, 0))
      (onQueue k (fun x => { x with lastSeq := seq, read := x.read.filter fun y => decide (seq < y.seq) }) s)))
  ∧ (∀ (n d : Nat) (ended : List Nat), d ≤ advanceDone n d ended
    ∧ ∀ m, d < m → m ≤ advanceDone n d ended → m ∈ ended)
  ∧ ∀ (die q seq : Nat) (s : State) (x : Queue), queueAt s (die * 1024 + q) = some x → x.disabling = false →
    ∃ y, queueAt (endPacket die q seq none s) (die * 1024 + q) = some y
      ∧ y.done = advanceDone (x.ended.length + 1) x.done (seq :: x.ended) ∧ y.fails = x.fails
      ∧ (endPacket die q seq none s).fe.launches = s.fe.launches.filter fun l => !isRow die q seq l

/-- R230 to R243, R286 to R300, R320, R372. -/
def Obligations.SchedulerEvents : Prop :=
  (∀ (die : BitVec 2) (q : BitVec 10) (seq : Nat) (s : State) (l : Launch), launchAt s die.toNat q.toNat seq = some l →
    l.started = false → depsMet s l = true → s.health.power = 0 →
    (∀ c, l.pkt.type = 3 → SMap.get? s.mon.ctxs l.ctx = some c → ∃ t, exec (.packetStart die q seq) s = .next t
      ∧ t = endPacket l.die l.q l.seq none { s with mon := { s.mon with ctxs := SMap.put s.mon.ctxs l.ctx { c with
        events := SMap.put c.events (l.pkt.arg % 256) ((SMap.get? c.events (l.pkt.arg % 256)).getD 0
          + (if l.pkt.amt = 0 then 1 else BitVec.ofNat 64 l.pkt.amt)) } } })
    ∧ (l.pkt.type ≠ 3 → ∀ bs, recordBytes s l.ctx l.pkt.arg = some bs →
      (∀ reason, recordRefusal s l.ctx (recordOf bs) = some reason →
        exec (.packetStart die q seq) s = .next (endPacket l.die l.q l.seq (some (reason, 0)) s))
      ∧ ∀ p, recordRefusal s l.ctx (recordOf bs) = none → pointMet s l = true → launchTurn s l = true →
        placeLaunch (recordOf bs) (launchCores s l.ctx (recordOf bs)) = some p →
        exec (.packetStart die q seq) s = .next (bindLaunch { l with recd := recordOf bs } p { s with fe := { s.fe with
          owed := s.fe.owed.filter fun o => o.2 != classOf s l } })))
  ∧ (∀ (l : Launch) (t : Nat) (s u : State) (m : Image), imageAt s l.ctx l.recd.image = some m → u = startTask l t s →
    u.c.pc = BitVec.ofNat 64 ((m.entries[l.recd.entry]?).getD 0) ∧ u.c.r.s[1] = (l.recd.args[0]?).getD 0
      ∧ u.c.r.s[2] = (l.recd.args[1]?).getD 0 ∧ u.c.r.s[3] = (l.recd.args[2]?).getD 0
      ∧ (∀ i : Fin 64, i.val ∉ [1, 2, 3] → u.c.r.s[i] = Regs.start.s[i]) ∧ u.c.trap.handler = false
      ∧ u.c.trap.entry = m.handler.map (fun a => BitVec.ofNat 64 a) ∧ u.c.info.running = true ∧ u.c.info.t = t
      ∧ u.c.info.ctx = l.ctx ∧ u.c.info.part = l.recd.part
      ∧ ∀ a, isPoolHome a = true → memGet u.mem a = 0)
  ∧ (∀ (die : BitVec 2) (q : BitVec 10) (seq t : Nat) (s : State),
    ownLaunch s die.toNat q.toNat seq = true → s.c.info.t = t → mayRetire s = true →
    ∃ u, exec (.taskRetire die q seq t) s = .next u ∧ u.c = { Core.start with fresh := s.c.fresh } ∧ u.outer = []
      ∧ u.fe.launches = (onLaunch die.toNat q.toNat seq (fun l => { markRow t (fun r => { r with ended := true, retired := true }) l with
        ranked := l.ranked ++ leftRanked s.c, far := l.far ++ s.c.far }) s).fe.launches
      ∧ ∀ a, isPoolHome a = true → memGet u.mem a = 0)
  ∧ (∀ (die : BitVec 2) (q : BitVec 10) (seq t : Nat) (s : State) (l : Launch) (r : TaskRow) (cause : BitVec 8),
    launchAt s die.toNat q.toNat seq = some l → l.started = true → l.saved = false → r ∈ l.tasks → r.t = t →
    r.retired = false → r.core ≠ s.me →
    (ownLaunch s die.toNat q.toNat seq = false ∨ s.c.info.t ≠ t → exec (.taskRetire die q seq t) s = .next
      (onLaunch die.toNat q.toNat seq (markRow t fun r => { r with ended := true, retired := true }) s))
    ∧ (cause ≠ 0xF3 → taskCause cause.toNat = true → exec (.schedulerFaultDelivery die q seq t cause) s = .next
      (onLaunch die.toNat q.toNat seq (failRow t cause.toNat) s)))
  ∧ (∀ (die : BitVec 2) (q : BitVec 10) (seq : Nat) (env : BoundaryEnv) (s : State) (l : Launch),
    launchAt s die.toNat q.toNat seq = some l → l.started = true → (∀ r ∈ l.tasks, r.retired = true) →
    exec (.launchComplete die q seq env) s = .next (endPacket l.die l.q l.seq (l.failed.map fun c => (32, c))
      ((rankedOrder [] [] ((env.ranked ++ l.ranked).filter fun x => !isPoolHome x.addr)).foldl (fun s x => applyRanked false x s)
        (s.writeOuter (l.far ++ env.writes.filter fun c => !isPoolHome c.1)))))
  ∧ (∀ (die : BitVec 2) (q : BitVec 10) (seq : Nat) (s : State) (l : Launch), launchAt s die.toNat q.toNat seq = some l →
    l.started = true → l.saved = false →
    exec (.timeSliceExpiry die q seq) s = .next (onLaunch die.toNat q.toNat seq (fun l => { l with sliced := true }) s)
    ∧ (l.preempt = false → (∃ r ∈ s.fe.launches, outranks s r l = true) → ∃ u, exec (.preemptionRequest die q seq) s = .next u
      ∧ u.fe = (onLaunch die.toNat q.toNat seq (fun l => { l with preempt := true }) s).fe
      ∧ u.c = { s.c with preempt := s.c.preempt || ownLaunch s die.toNat q.toNat seq }))
  ∧ (∀ (die : BitVec 2) (prio : BitVec 3) (s : State) (l : Launch), l ∈ s.fe.launches → readyLaunch s l = true →
    classOf s l = prio.toNat → ∃ u, exec (.classFloorOwed die prio) s = .next u ∧ (die.toNat, prio.toNat) ∈ u.fe.owed
      ∧ (∀ o ∈ s.fe.owed, o ∈ u.fe.owed) ∧ u = { s with fe := { s.fe with owed := u.fe.owed } })
  ∧ (∀ (die fc : BitVec 2) (s : State) (l : Launch), l ∈ s.fe.launches → l.die = die.toNat →
    (l.started = true ∧ l.saved = false ∨ waitsForCores s l = true ∧ turnAmong s (waitsForCores s) l = true) →
    max l.pkt.fc (fcCap s) = fc.toNat →
    (∀ x ∈ s.fe.launches, x.die = die.toNat → (x.started = true ∧ x.saved = false
      ∨ waitsForCores s x = true ∧ turnAmong s (waitsForCores s) x = true) → fc.toNat ≤ max x.pkt.fc (fcCap s)) →
    exec (.operatingPointReached die fc) s = .next { s with fe := { s.fe with point := s.fe.point.set die.toNat fc die.isLt } })
  ∧ (∀ (cl : BitVec 4) (tenant t : Nat) (s : State), SMap.get? s.fe.clusters cl.toNat = some t → t ≠ tenant →
    (∀ l ∈ s.fe.launches, keepsCluster l cl.toNat = false ∧ ∀ i, i < 16 → holdsCore l (16 * cl.toNat + i) = false) →
    ∃ u, exec (.clusterSramZeroing cl tenant) s = .next u ∧ SMap.get? u.fe.clusters cl.toNat = some tenant ∧ u.c = s.c
      ∧ (s.me / 16 = cl.toNat → ∀ a, isClusterHome a = true → memGet u.mem a = 0)
      ∧ ∀ a, isClusterHome a = false ∨ s.me / 16 ≠ cl.toNat → memGet u.mem a = memGet s.mem a)
  ∧ (∀ (s : State), s.c.info.running = true → s.c.preempt = true → savePoint s = true → saveLanded s = true →
    ∃ u, exec (.contextSave false) s = .next u ∧ u.c = { Core.start with fresh := s.c.fresh + s.c.colls.length }
      ∧ u.fe.saved = s.fe.saved ++ [⟨s.c.info.die, s.c.info.queue, s.c.info.seq, s.c.info.t,
        { passOwned (landAll s.c) with preempt := false, bun := Bundle.idle, sinceSafe := 0 },
        s.mem.filter (fun x => isPoolHome x.1), s.mem.filter (fun x => !isPoolHome x.1), s.poison⟩]
      ∧ ∀ l ∈ u.fe.launches, isRow s.c.info.die s.c.info.queue s.c.info.seq l = true → l.saved = true)
  ∧ (∀ (s : State) (l : Launch), s.c.info.running = false → (s.fe.launches.find? fun l => l.started && l.preempt && !l.saved) = some l →
    exec (.contextSave false) s = .next (onLaunch l.die l.q l.seq allSaved s))
  ∧ (∀ (die : BitVec 2) (q : BitVec 10) (seq : Nat) (s : State) (l : Launch) (p : List (Nat × Nat)) (x : Nat × Nat)
    (y : SavedTask), launchAt s die.toNat q.toNat seq = some l → l.saved = true → launchTurn s l = true → s.health.power = 0 →
    placeRestore l (launchCores s l.ctx l.recd) = some p →
    (p.find? fun x => x.2 == s.me && l.tasks.any fun r => r.t == x.1 && !r.retired) = some x →
    (s.fe.saved.find? fun y => isRow y.die y.q y.seq l && y.t == x.1) = some y →
    ∃ u, exec (.contextRestore die q seq) s = .next u
      ∧ u.c = { rearmSaved { y.core with arr := { y.core.arr with upset := [] } } with
        fresh := s.c.fresh, info := { y.core.info with patch := s.mon.sfCur } }
      ∧ u.mem = memSetAll y.pool y.snap ∧ u.fe.saved = s.fe.saved.filter fun z => !isRow z.die z.q z.seq l)
  ∧ (∀ (die : BitVec 2) (s : State), ∃ u, exec (.schedulerWatchdogExpiry die) s = .next u
    ∧ u.fe.restarts = s.fe.restarts.set die.toNat (s.fe.restarts[die.toNat]'die.isLt + 1) die.isLt
    ∧ u.fe.letters = s.fe.letters.map (fun e => if e.die = die.toNat then { e with read := false } else e)
    ∧ (∀ k, k ∈ u.fe.overflow ↔ k ∈ s.fe.overflow ∨ (k ∈ s.fe.handling ∧ k / 1024 = die.toNat))
    ∧ u.fe.launches = s.fe.launches ∧ u.c = s.c ∧ u.mem = s.mem)
  ∧ ∀ (die : BitVec 2) (tenant : Nat) (s : State), exec (.pluginCallTimeout die tenant) s = .next s

/-- R323, R324: what each command of the monitor does. -/
def Obligations.MailboxCommands : Prop :=
  (∀ (die : BitVec 2) (tag : BitVec 16) (op status detail : Nat) (resp : List Byte) (s u : State),
    u = mailDone die tag op status detail resp s → op < 2 ^ 16 → status < 2 ^ 8 → resp.length < 2 ^ 16 →
    ∃ b, b = u.mon.mail[die.toNat]'die.isLt ∧ b.cmd.toNat = tag.toNat * 2 ^ 16 + op ∧ b.ctl = 0 ∧ b.sts.toNat % 2 ^ 8 = status
      ∧ b.sts.toNat / 2 ^ 8 % 2 ^ 24 = detail % 2 ^ 24 ∧ b.sts.toNat / 2 ^ 32 % 2 ^ 16 = tag.toNat
      ∧ b.sts.toNat / 2 ^ 48 = resp.length ∧ b.resp = resp ∧ u = { s with mon := { s.mon with mail := u.mon.mail } })
  ∧ (∀ (m : Mb) (rec : CtxRecord) (rs : List RangeEntry) (saves : List (Nat × Nat)) (s : State), mailReady m s → rs.length ≤ 64 →
    (∀ d, createRefusal s rec rs saves = some d → answers (.createContext m rec rs saves) s m 0x0001 4 d [] s)
    ∧ (createRefusal s rec rs saves = none → ∃ u c, answers (.createContext m rec rs saves) s m 0x0001 0 0 [] u
      ∧ SMap.get? u.mon.ctxs rec.ctx = some c ∧ c.recd = rec ∧ (∀ i, SMap.get? c.ranges i = rs[i]?) ∧ c.saves = saves
      ∧ c.job = none ∧ c.grant = none ∧ c.plans = [] ∧ c.images = [] ∧ c.events = []
      ∧ (∀ x, x ≠ rec.ctx → SMap.get? u.mon.ctxs x = SMap.get? s.mon.ctxs x)
      ∧ (∀ k, k < 64 → rec.keys.getLsbD k = true → SMap.get? s.mon.keyOwner k = none →
        SMap.get? u.mon.keyOwner k = some rec.tenant)
      ∧ (∀ t ∈ [(rec.stbase, 2 ^ 18), (rec.prbase, 2 ^ 20)], ∀ e b,
        (rs.find? fun e => e.valid && decide (e.base ≤ t.1) && decide (t.1 + t.2 ≤ e.limit)) = some e →
        b = (t.1 + e.offset.toNat) % 2 ^ 48 → ∀ a, b ≤ homePhys a → homePhys a < b + t.2 →
        memGet u.mem a = 0 ∧ SMap.get? u.outer a = none) ∧ u.c = s.c ∧ u.fe = s.fe))
  ∧ (∀ (m : Mb) (ctx : BitVec 12) (s : State), mailReady m s → (∀ l ∈ s.fe.launches, l.ctx ≠ ctx.toNat) →
    (SMap.get? s.mon.ctxs ctx.toNat = none → answers (.destroyContext m ctx) s m 0x0002 4 1 [] s)
    ∧ (SMap.get? s.mon.ctxs ctx.toNat ≠ none → ∃ u, answers (.destroyContext m ctx) s m 0x0002 0 0 [] u
      ∧ u.mon.ctxs = SMap.del s.mon.ctxs ctx.toNat ∧ (∀ t ∈ u.mon.tlb, t.1 ≠ ctx.toNat)
      ∧ (∀ k ∈ u.mon.keyOwner, ∃ c ∈ u.mon.ctxs, c.2.recd.keys.getLsbD k.1 = true) ∧ u.c = s.c))
  ∧ (∀ (m : Mb) (ctx : BitVec 12) (s : State) (i : Instr) (op : Nat) (n : BitVec 6) (e : RangeEntry) (v : Word) (k : BitVec 3)
    (r : HostRange) (job : BitVec 32), mailReady m s → SMap.get? s.mon.ctxs ctx.toNat = none →
    (i, op) ∈ [(.writeRangeEntry m ctx n e, 0x0003), (.writeFmask m ctx v, 0x0030), (.readClearMaskedCounter m ctx, 0x0031),
      (.writeHostRange m ctx k r, 0x0042), (.bindContextJob m ctx job, 0x0050)] → answers i s m op 4 1 [] s)
  ∧ (∀ (m : Mb) (ctx : BitVec 12) (n : BitVec 6) (e : RangeEntry) (s : State) (c : Context), mailReady m s →
    SMap.get? s.mon.ctxs ctx.toNat = some c →
    (∀ d, rangeRefusal s c n.toNat e = some d → answers (.writeRangeEntry m ctx n e) s m 0x0003 4 d [] s)
    ∧ (rangeRefusal s c n.toNat e = none → answers (.writeRangeEntry m ctx n e) s m 0x0003 0 0 []
      (withCtx ctx { c with ranges := SMap.put c.ranges n.toNat e } s)))
  ∧ (∀ (m : Mb) (q : BitVec 10) (e : QueueEntry) (s : State) (k : Nat), mailReady m s → k = m.die.toNat * 1024 + q.toNat →
    (queueFieldsOk s e = false → answers (.writeQueueEntry m q e) s m 0x0010 4 0 [] s)
    ∧ (queueFieldsOk s e = true → ∃ u x, answers (.writeQueueEntry m q e) s m 0x0010 0 0 [] u ∧ queueAt u k = some x
      ∧ x.e = { e with en := ((queueAt s k).map fun y => y.e.en).getD false, clamp := decide (e.slice < 400) }
      ∧ (∀ y, queueAt s k = some y → x = { y with e := x.e }) ∧ (∀ j, j ≠ k → queueAt u j = queueAt s j)
      ∧ u = { s with fe := { s.fe with queues := u.fe.queues } }))
  ∧ (∀ (m : Mb) (q : BitVec 10) (s : State) (k : Nat) (x : Queue), mailReady m s → k = m.die.toNat * 1024 + q.toNat →
    queueAt s k = some x →
    (x.e.en = false → x.disabling = false → ∃ u, answers (.enableQueue m q) s m 0x0011 0 0 [] u
      ∧ queueAt u k = some { x with
        e := { x.e with en := true }, lastSeq := 0, curSeg := x.e.ring, curSeq := 1, taken := 0, done := 0, ended := [], read := [] })
    ∧ (x.e.en = true → answers (.enableQueue m q) s m 0x0011 4 0 [] s)
    ∧ (x.e.en = false → answers (.disableQueue m q) s m 0x0012 4 0 [] s)
    ∧ (x.e.en = true → x.lastSeq = x.done → (∀ l ∈ s.fe.launches, l.die * 1024 + l.q ≠ k) →
      ∃ u, answers (.disableQueue m q) s m 0x0012 0 0 [] u ∧ (∀ y, queueAt u k = some y → y.e.en = false)
        ∧ (∀ e ∈ u.fe.letters, e.die * 1024 + e.q ≠ k) ∧ k ∉ u.fe.overflow))
  ∧ (∀ (m : Mb) (ctx : BitVec 12) (va base : Word) (pa : Nat) (s : State) (c : Context) (bs : List Byte), mailReady m s →
    pa % 4096 = 0 → pagesFree s ctx.toNat va.toNat base.toNat pa = true → base.toNat % 65536 = 0 → SMap.get? s.mon.ctxs ctx.toNat = some c →
    imageSource s ctx.toNat va.toNat = some bs →
    (∀ d, imageRefusal s c base.toNat bs = some d → answers (.admitImage m ctx va base pa) s m 0x0020 4 d [] s)
    ∧ (∀ p, imageRefusal s c base.toNat bs = none → imageParts bs = some p →
      answers (.admitImage m ctx va base pa) s m 0x0020 0 0 [] (installImage ctx.toNat base.toNat pa bs p s)))
  ∧ (∀ (m : Mb) (ctx : BitVec 12) (v : Word) (s : State) (c : Context), mailReady m s → SMap.get? s.mon.ctxs ctx.toNat = some c →
    (fmaskOk v = false → answers (.writeFmask m ctx v) s m 0x0030 4 5 [] s)
    ∧ (fmaskOk v = true → ctxRuns s ctx.toNat = true → answers (.writeFmask m ctx v) s m 0x0030 4 0 [] s)
    ∧ (fmaskOk v = true → ctxRuns s ctx.toNat = false → answers (.writeFmask m ctx v) s m 0x0030 0 0 []
      (withCtx ctx { c with recd := { c.recd with fmask := v } } s))
    ∧ answers (.readClearMaskedCounter m ctx) s m 0x0031 0 0 (natLe 8 c.masked.toNat) (withCtx ctx { c with masked := 0 } s))
  ∧ (∀ (m : Mb) (tenant pa size hdm w : Nat) (s : State), mailReady m s →
    (List.range 64).find? (fun w => (SMap.get? s.mon.windows w).isNone) = some w →
    (pa % 2 ^ 21 = 0 → physOwned s tenant pa size = true → underLocked s pa size = false →
      mapsOk s (withWindow w ⟨tenant, pa, size, hdm⟩ s) = true → answers (.openHostWindow m tenant pa size hdm) s m 0x0040 0 0 (natLe 8 w)
        { s with mon := { s.mon with windows := SMap.put s.mon.windows w ⟨tenant, pa, size, hdm⟩ } })
    ∧ (pa % 2 ^ 21 ≠ 0 ∨ physOwned s tenant pa size = false ∨ underLocked s pa size = true
      ∨ mapsOk s (withWindow w ⟨tenant, pa, size, hdm⟩ s) = false →
      answers (.openHostWindow m tenant pa size hdm) s m 0x0040 4 0 [] s))
  ∧ (∀ (m : Mb) (w : BitVec 6) (x : HostWindow) (s : State), mailReady m s → SMap.get? s.mon.windows w.toNat = some x →
    answers (.closeHostWindow m w) s m 0x0041 0 0 [] { s with mon := { s.mon with windows := SMap.del s.mon.windows w.toNat } })
  ∧ (∀ (m : Mb) (ctx : BitVec 12) (k : BitVec 3) (r : HostRange) (job : BitVec 32) (s : State) (c : Context), mailReady m s →
    SMap.get? s.mon.ctxs ctx.toNat = some c →
    answers (.writeHostRange m ctx k r) s m 0x0042 0 0 [] (withCtx ctx { c with hranges := SMap.put c.hranges k.toNat r } s)
    ∧ ((∃ x ∈ s.mon.ctxs, x.1 ≠ ctx.toNat ∧ x.2.job = some job) → answers (.bindContextJob m ctx job) s m 0x0050 4 0 [] s)
    ∧ ((∀ x ∈ s.mon.ctxs, x.1 ≠ ctx.toNat → x.2.job ≠ some job) →
      answers (.bindContextJob m ctx job) s m 0x0050 0 0 [] (withCtx ctx { c with job := some job } s)))
  ∧ (∀ (m : Mb) (ctx : BitVec 12) (id : BitVec 8) (entry : List Byte) (s : State) (c : Context) (h : Nat), mailReady m s →
    SMap.get? s.mon.ctxs ctx.toNat = some c → entry.length = 64 → collOpen s ctx.toNat id.toNat = false →
    translate s ctx.toNat .write true (c.recd.cgbase + 64 * id.toNat) = .ok h →
    answers (.writeCollectiveGroup m ctx id entry) s m 0x0051 0 0 [] (s.writeOuter (cellsAt h entry)))
  ∧ (∀ (m : Mb) (ctx : BitVec 12) (nonce : List Byte) (first : Nat) (s : State) (c : Context), mailReady m s →
    SMap.get? s.mon.ctxs ctx.toNat = some c → nonce.length = 32 →
    answers (.requestPostmark m ctx nonce first) s m 0x0060 0 0 (postmark s c nonce first ++ Config.deviceCertificate) s)
  ∧ (∀ (m : Mb) (w : Nat) (s : State), mailReady m s →
    (1500 ≤ w → w ≤ 4200 → answers (.setPowerLimit m w) s m 0x0080 0 0 []
      (capPoints { s with health := { s.health with limit := w } }))
    ∧ (w < 1500 ∨ 4200 < w → answers (.setPowerLimit m w) s m 0x0080 4 0 [] s))
  ∧ (∀ (m : Mb) (st : BitVec 2) (s : State), mailReady m s →
    (st = 3 → exec (.setPowerState m st) s = .next (enterS3 s))
    ∧ (st = 0 ∨ (st = 2 ∧ ∀ l ∈ s.fe.launches, l.pkt.type ≠ 1) →
      answers (.setPowerState m st) s m 0x0081 0 0 [] { s with health := { s.health with power := st.toNat } })
    ∧ (st = 2 → (∃ l ∈ s.fe.launches, l.pkt.type = 1) → answers (.setPowerState m st) s m 0x0081 4 1 [] s))
  ∧ (∀ (m : Mb) (im : Word) (r : HealthRecord) (s : State), mailReady m s →
    (im = BitVec.allOnes 64 ∧ latestRecord s = some r)
      ∨ (im ≠ BitVec.allOnes 64 ∧ (s.health.log.find? fun r => r.seq % 1920 == im.toNat) = some r) →
    answers (.readHealthLog m im) s m 0x0090 0 0 (recordImage r) s)
  ∧ (∀ (m : Mb) (op : BitVec 16) (s : State), mailReady m s → op.toNat ∉ listedOps →
    answers (.unknownOpcode m op) s m op.toNat 2 0 [] s)
  ∧ (∀ (m : Mb) (ctx : BitVec 12) (s : State) (i : Instr) (op : Nat) (n : BitVec 6) (e : RangeEntry) (v : Word) (k : BitVec 3)
    (r : HostRange) (job : BitVec 32), s.links.linkUp = true → s.health.power ≠ 3 → s.mon.flash.running = true →
    (i, op) ∈ [(.writeRangeEntry m ctx n e, 0x0003), (.writeFmask m ctx v, 0x0030), (.readClearMaskedCounter m ctx, 0x0031),
      (.writeHostRange m ctx k r, 0x0042), (.bindContextJob m ctx job, 0x0050)] →
    (mailBusy m.die s = true → exec i s = .next (mailOffer m.die m.tag op s))
    ∧ (mailBusy m.die s = false → s.mon.flash.recovery = true → answers i s m op 2 0 [] s))
  ∧ (∀ (ctx : BitVec 12) (im : BitVec 3) (v : Word) (s : State) (c : Context), SMap.get? s.mon.ctxs ctx.toNat = some c →
    ctxRuns s ctx.toNat = false → exec (.apertureRegisterWrite ctx im v) s =
      .next (withCtx ctx { c with aps := c.aps.set im.toNat (v &&& 0xF000FFF000FFFFFF) im.isLt } s))
  ∧ ∀ (ctx : BitVec 12) (lo hi : Nat) (s : State), s.c.info.ctx ≠ ctx.toNat ∨ (s.c.view = none ∧ s.c.emu = none
      ∧ ∀ z ∈ s.c.z.toList, ∀ e, z.page = some e → hi ≤ e.base ∨ e.limit ≤ lo) →
    (∀ x ∈ s.fe.saved, x.core.info.ctx = ctx.toNat → ∀ z ∈ x.core.z.toList, ∀ e, z.page = some e → hi ≤ e.base ∨ e.limit ≤ lo) →
    ∃ u, exec (.shootdown ctx lo hi) s = .next u ∧ u = { s with mon := { s.mon with tlb := u.mon.tlb, resident := u.mon.resident } }
      ∧ (∀ t, t ∈ u.mon.tlb ↔ t ∈ s.mon.tlb ∧ ¬(t.1 = ctx.toNat ∧ t.2.1 < hi ∧ lo < t.2.1 + t.2.2.1))

/-- R35, R36, R327: opcode 0x70, by operation. -/
def Obligations.DebugCommands : Prop :=
  (∀ (m : Mb) (ctx : BitVec 12) (g : Option DebugGrant) (r : DebugReg) (v : BitVec 256) (s : State) (c : Context) (i : Instr)
    (op : Nat), (i, op) ∈ [(.debugHalt m ctx g, 0), (.debugResume m ctx g, 1), (.debugStep m ctx g, 2),
      (.debugReadRegister m ctx g r, 3), (.debugWriteRegister m ctx g r v, 4), (.debugEnableBreakpoints m ctx g, 5),
      (.debugDisableBreakpoints m ctx g, 6), (.debugRevoke m ctx g, 7)] → mailReady m s → s.c.info.running = false →
    SMap.get? s.mon.ctxs ctx.toNat = some c →
    (c.grant = none → (∀ x, g = some x → grantOk s c x = false) → answers i s m 0x70 5 0 [] s)
    ∧ (∀ x, c.grant = some x ∨ (c.grant = none ∧ g = some x ∧ grantOk s c x = true) → x.rights.testBit op = false →
      answers i s m 0x70 5 0 [] (withCtx ctx { c with grant := some x } s)))
  ∧ (∀ (m : Mb) (ctx : BitVec 12) (g : Option DebugGrant) (s : State) (c : Context) (x : DebugGrant), mailReady m s →
    SMap.get? s.mon.ctxs ctx.toNat = some c → c.grant = some x → x.rights = 0xFF →
    (answers (.debugEnableBreakpoints m ctx g) s m 0x70 0 0 [] (withCtx ctx { c with bkpts := true } (withCtx ctx c s)))
    ∧ (answers (.debugDisableBreakpoints m ctx g) s m 0x70 0 0 [] (withCtx ctx { c with bkpts := false } (withCtx ctx c s)))
    ∧ (answers (.debugRevoke m ctx g) s m 0x70 0 0 [] (spendNonce ctx.toNat (withCtx ctx { c with grant := none } (withCtx ctx c s))))
    ∧ (s.c.info.running = true → s.c.info.ctx = ctx.toNat →
      (atBoundary s = true → s.c.spec = none → waitsInFlight s.c = false → ∃ u, answers (.debugHalt m ctx g) s m 0x70 0 0 [] u
        ∧ u.c = haltNow s.c ∧ u.c.halted = true ∧ u.c.inflight = [] ∧ u.c.txn.act = false
        ∧ (s.c.txn.act = true → u.c.txn.reason = 5) ∧ u.mem = s.mem)
      ∧ (s.c.halted = false → atBoundary s = false ∨ s.c.spec ≠ none ∨ waitsInFlight s.c = true →
        ∃ u, answers (.debugHalt m ctx g) s m 0x70 0 0 [] u ∧ u.c = { s.c with haltAsked := true } ∧ u.mem = s.mem)
      ∧ (∃ u, answers (.debugResume m ctx g) s m 0x70 0 0 [] u ∧ u.c = { s.c with halted := false, haltAsked := false, stepOnce := false }
        ∧ u.mem = s.mem)
      ∧ (s.c.halted = true → ∃ u, answers (.debugStep m ctx g) s m 0x70 0 0 [] u
        ∧ u.c = { s.c with halted := false, haltAsked := false, stepOnce := true } ∧ u.mem = s.mem)
      ∧ (s.c.halted = false → ∃ u, answers (.debugStep m ctx g) s m 0x70 4 0 [] u ∧ u.c = s.c)
      ∧ (∀ r, s.c.halted = true → ∃ u, answers (.debugReadRegister m ctx g r) s m 0x70 0 0 (natLe 32 (debugValue r (withCtx ctx c s)).toNat) u
        ∧ u.c = s.c ∧ u.mem = s.mem)
      ∧ (∀ r v, s.c.halted = false → ∃ u, answers (.debugWriteRegister m ctx g r v) s m 0x70 4 0 [] u ∧ u.c = s.c)
      ∧ (∀ (r : BitVec 6) v, s.c.halted = true → r ≠ 0 → ∃ u, answers (.debugWriteRegister m ctx g (.s r) v) s m 0x70 0 0 [] u
        ∧ u.c.r.rdS r = v.setWidth 64 ∧ (∀ q : BitVec 6, cellOf s.c.r.rpos q ≠ cellOf s.c.r.rpos r → u.c.r.rdS q = s.c.r.rdS q)
        ∧ (∀ e ∈ u.c.trap.undo, e.cls = 0 → e.idx.toNat = r.toNat → e.val = (v.setWidth 64).setWidth 256)
        ∧ u.c.r.p = s.c.r.p ∧ u.c.r.h = s.c.r.h ∧ u.c.r.stg = s.c.r.stg ∧ u.c.pc = s.c.pc ∧ u.mem = s.mem)
      ∧ (∀ (n : BitVec 4) v, s.c.halted = true → n ≠ 0 → ∃ u, answers (.debugWriteRegister m ctx g (.p n) v) s m 0x70 0 0 [] u
        ∧ u.c.r.p.getLsbD n.toNat = v.getLsbD 0 ∧ (∀ j, j ≠ n.toNat → u.c.r.p.getLsbD j = s.c.r.p.getLsbD j)
        ∧ u.c.trap.psnap.getLsbD n.toNat = (if splitPending s.c then v.getLsbD 0 else s.c.trap.psnap.getLsbD n.toNat))
      ∧ (∀ (n : BitVec 5) v, s.c.halted = true → ∃ u, answers (.debugWriteRegister m ctx g (.h n) v) s m 0x70 0 0 [] u
        ∧ u.c.r.rdH n = v ∧ ∀ k, k ≠ n → u.c.r.rdH k = s.c.r.rdH k)
      ∧ (∀ v, s.c.halted = true → ∃ u, answers (.debugWriteRegister m ctx g (.sp 1) v) s m 0x70 0 0 [] u
        ∧ u.c.trap.tpc = v.setWidth 64 ∧ u.c.r = s.c.r)
      ∧ (∀ (n : BitVec 10) v, s.c.halted = true → spReadOnly n.toNat = true → ∃ u,
        answers (.debugWriteRegister m ctx g (.sp n) v) s m 0x70 0 0 [] u ∧ u.c.r = s.c.r ∧ u.c.wm = s.c.wm ∧ u.c.pc = s.c.pc
        ∧ u.c.trap.tstat = s.c.trap.tstat ∧ u.c.trap.tpc = s.c.trap.tpc ∧ u.mem = s.mem)))

/-- R362 to R367. -/
def Obligations.FirmwareEvents : Prop :=
  (∀ (m : Mb) (target : BitVec 8) (s : State), mailReady m s →
    (s.mon.flash.opened = none → ∀ b, b = !((currentMarker s.mon.flash).map fun c => c.2.active).getD false →
      ∃ u, answers (.fwOpen m target) s m 0xA0 0 0 [] u ∧ u.mon.flash.opened = some b ∧ u.mon.flash.checked = none
        ∧ (if b then u.mon.flash.slotB = [] ∧ u.mon.flash.slotA = s.mon.flash.slotA
          else u.mon.flash.slotA = [] ∧ u.mon.flash.slotB = s.mon.flash.slotB)
        ∧ u.mon.flash.markers = s.mon.flash.markers)
    ∧ (∀ b, s.mon.flash.opened = some b → answers (.fwOpen m target) s m 0xA0 4 1 [] s))
  ∧ (∀ (m : Mb) (off : Nat) (data : List Byte) (s : State) (b : Bool), mailReady m s → s.mon.flash.opened = some b →
    (32768 < data.length ∨ 2 ^ 23 < off + data.length → answers (.fwWrite m off data) s m 0xA1 3 0 [] s)
    ∧ (data.length ≤ 32768 → off + data.length ≤ 2 ^ 23 → s.mon.flash.fails = some 0 → ∃ u,
      answers (.fwWrite m off data) s m 0xA1 4 10 [] u ∧ u.mon.flash.fails = none ∧ u.mon.flash.checked = none
      ∧ u.mon.flash.opened = some b ∧ u.mon.flash.markers = s.mon.flash.markers
      ∧ slotImage u.mon.flash (!b) = slotImage s.mon.flash (!b)
      ∧ ∀ i, i < data.length → (slotImage u.mon.flash b)[off + i]? = data[i]?
        ∨ (slotImage u.mon.flash b)[off + i]? = some (((slotImage s.mon.flash b)[off + i]?).getD 0xFF))
    ∧ (data.length ≤ 32768 → off + data.length ≤ 2 ^ 23 → s.mon.flash.fails ≠ some 0 → ∃ u, answers (.fwWrite m off data) s m 0xA1 0 0 [] u
      ∧ u.mon.flash.checked = none ∧ u.mon.flash.opened = some b
      ∧ slotImage u.mon.flash (!b) = slotImage s.mon.flash (!b)
      ∧ (∀ i, i < data.length → (slotImage u.mon.flash b)[off + i]? = data[i]?)
      ∧ ∀ i, i < off → i < (slotImage s.mon.flash b).length → (slotImage u.mon.flash b)[i]? = (slotImage s.mon.flash b)[i]?))
  ∧ (∀ (m : Mb) (s : State) (b : Bool), mailReady m s → s.mon.flash.opened = some b →
    (∀ d, firmwareRefusal s.mon.flash.floorFw (slotImage s.mon.flash b) = some d → answers (.fwCheck m) s m 0xA2 4 d [] s)
    ∧ (firmwareRefusal s.mon.flash.floorFw (slotImage s.mon.flash b) = none →
      ∃ u, answers (.fwCheck m) s m 0xA2 0 0 (measureOf (slotImage s.mon.flash b)) u
        ∧ u = { s with mon := { s.mon with flash := { s.mon.flash with checked := some (measureOf (slotImage s.mon.flash b)) } } }))
  ∧ (∀ (m : Mb) (s : State) (b : Bool) (meas : List Byte) (n : Nat) (c : Marker), mailReady m s → s.mon.flash.opened = some b →
    s.mon.flash.checked = some meas → currentMarker s.mon.flash = some (n, c) →
    (s.mon.flash.fails = some 0 → ∃ u, answers (.fwFlip m) s m 0xA3 4 10 [] u ∧ u.mon.flash.fails = none
      ∧ currentMarker u.mon.flash = some (n, c) ∧ u.mon.flash.slotA = s.mon.flash.slotA ∧ u.mon.flash.slotB = s.mon.flash.slotB)
    ∧ (s.mon.flash.fails ≠ some 0 → ∃ u k, answers (.fwFlip m) s m 0xA3 0 0 [] u
      ∧ currentMarker u.mon.flash = some (k, ⟨c.seq + 1, b, c.patch, meas, c.psmeas⟩) ∧ k ≠ n
      ∧ u.mon.flash.opened = none ∧ u.mon.flash.checked = none ∧ u.mon.flash.slotA = s.mon.flash.slotA
      ∧ u.mon.flash.slotB = s.mon.flash.slotB))
  ∧ (∀ (m : Mb) (addr len n : Nat) (s : State) (bs : List Byte) (c : Marker), mailReady m s → cxlUp s = true →
    bs = hostBytes s addr len → len ≤ 2 ^ 20 → currentMarker s.mon.flash = some (n, c) →
    (∀ d, patchRefusal s.mon.flash.floorPs s.mon.flash.fwver bs = some d →
      answers (.stagePatch m addr len) s m 0xA4 4 d [] s ∧ answers (.livePatch m addr len) s m 0xA5 4 d [] s)
    ∧ (patchRefusal s.mon.flash.floorPs s.mon.flash.fwver bs = none →
      (s.mon.flash.fails = some 0 → ∃ u, answers (.stagePatch m addr len) s m 0xA4 4 10 [] u ∧ u.mon.flash.fails = none
        ∧ u.mon.flash.markers = s.mon.flash.markers
        ∧ if c.patch = 1 then u.mon.flash.patch0 = s.mon.flash.patch0 else u.mon.flash.patch1 = s.mon.flash.patch1)
      ∧ (s.mon.flash.fails = some 1 → ∃ u, answers (.stagePatch m addr len) s m 0xA4 4 10 [] u ∧ u.mon.flash.fails = none
        ∧ currentMarker u.mon.flash = some (n, c) ∧ u.mon.flash.markers.toList[1 - n]? = some none
        ∧ (if c.patch = 1 then u.mon.flash.patch1 = bs ∧ u.mon.flash.patch0 = s.mon.flash.patch0
          else u.mon.flash.patch0 = bs ∧ u.mon.flash.patch1 = s.mon.flash.patch1) ∧ u.mon.sfCur = s.mon.sfCur)
      ∧ (s.mon.flash.fails ≠ some 0 → s.mon.flash.fails ≠ some 1 → ∃ u k, answers (.stagePatch m addr len) s m 0xA4 0 0 [] u ∧ currentMarker u.mon.flash = some (k,
          ⟨c.seq + 1, c.active, if c.patch = 1 then 2 else 1, c.fwmeas, measureOf bs⟩) ∧ k ≠ n
        ∧ (if c.patch = 1 then u.mon.flash.patch1 = bs ∧ u.mon.flash.patch0 = s.mon.flash.patch0
          else u.mon.flash.patch0 = bs ∧ u.mon.flash.patch1 = s.mon.flash.patch1) ∧ u.mon.sfCur = s.mon.sfCur)
      ∧ (oldSetUsed s = false → answers (.livePatch m addr len) s m 0xA5 0 0 []
        { s with mon := { s.mon with
          sfPrev := some s.mon.sfCur, sfCur := { patchSetOf bs with load := s.mon.sfCur.load + 1 }, sfHits := [] } })
      ∧ (oldSetUsed s = true → answers (.livePatch m addr len) s m 0xA5 4 9 [] s)))
  ∧ (∀ (m : Mb) (s : State), mailReady m s →
    (oldSetUsed s = false → answers (.clearLive m) s m 0xA8 0 0 []
      { s with mon := { s.mon with
        sfPrev := some s.mon.sfCur, sfCur := { PatchSet.empty with load := s.mon.sfCur.load + 1 }, sfHits := [] } })
    ∧ (oldSetUsed s = true → answers (.clearLive m) s m 0xA8 4 9 [] s)
    ∧ answers (.fwState m) s m 0xA6 0 0 ((s.mon.flash.markers.toList.flatMap markerImage) ++ setMeas s.mon.sfCur
      ++ (match s.mon.sfPrev with | some p => setMeas p | none => List.replicate 32 0)
      ++ (List.range 32).flatMap fun i => natLe 8 ((SMap.get? s.mon.sfHits i).getD 0)) s
    ∧ ((∀ l ∈ s.fe.launches, l.started = true → l.saved = true) → exec (.fwReset m) s = .next (enterS3 s))
    ∧ ((∃ l ∈ s.fe.launches, l.started = true ∧ l.saved = false) → answers (.fwReset m) s m 0xA7 4 2 [] s))
  ∧ (∀ (failed : List (BitVec 8)) (reports : List SwitchReport) (s : State), s.mon.flash.running = false →
    (bootSlot s.mon.flash = none → ∃ u, exec (.boot failed reports) s = .next u ∧ u.mon.flash.recovery = true
      ∧ u.mon.flash.running = true ∧ u.health.power = 0 ∧ u.links.ide = s.links.ide)
    ∧ ∀ b, bootSlot s.mon.flash = some b → ∃ u, exec (.boot failed reports) s = .next u ∧ u.mon.flash.recovery = false
      ∧ u.mon.flash.running = true ∧ u.mon.flash.fwver = leAt (slotImage s.mon.flash b) 16 8
      ∧ u.mon.flash.floorFw = max s.mon.flash.floorFw (leAt (slotImage s.mon.flash b) 24 8)
      ∧ u.mon.sfCur = (match stagedSet s.mon.flash b (leAt (slotImage s.mon.flash b) 16 8) with
        | some p => patchSetOf p | none => PatchSet.empty)
      ∧ u.mon.sfHits = [] ∧ u.links.linkUp = true ∧ u.links.ide = false ∧ u.links.pod = podOf reports ∧ u.health.power = 0
      ∧ (podOf reports = none → u.links.planes = 0)
      ∧ u.mon.flash.unstaged = s.mon.flash.unstaged + (notStaged s.mon.flash
          (stagedSet s.mon.flash b (leAt (slotImage s.mon.flash b) 16 8))).toNat
      ∧ (failed = [] → ∀ r, latestRecord s = some r → u.health.spare = r.spare ∧ u.health.replace = r.replace
        ∧ ∀ i : Fin 4, u.health.uavail[i] = (r.uavail[i.val]?).getD 0))
  ∧ (∀ (f : Flash) (b : Bool), bootSlot f = some b → firmwareRefusal f.floorFw (slotImage f b) = none
    ∧ (b = ((currentMarker f).map fun c => c.2.active).getD false
      ∨ firmwareRefusal f.floorFw (slotImage f (!b)) ≠ none))
  ∧ ∀ (s : State), ∃ u, exec .powerLoss s = .next u ∧ u.c = { Core.start with fresh := s.c.fresh } ∧ u.mon.ctxs = []
    ∧ u.mon.keyOwner = [] ∧ u.fe = State.reset.fe ∧ u.links = State.reset.links ∧ u.mon.flash.running = false
    ∧ u.mon.flash = { s.mon.flash with opened := none, checked := none, running := false, recovery := false }
    ∧ u.health.log = s.health.log ∧ u.health.power = 3 ∧ (∀ a, a < 2 ^ 64 → memGet u.mem a = 0)

/-- R318, R321, R325, R329 to R331, R373. -/
def Obligations.LinkEvents : Prop :=
  (∀ (s : State), s.health.power ≠ 3 → s.mon.flash.running = true → s.mon.flash.recovery = false →
    ∃ u, exec .ideEstablish s = .next u ∧ u.links = { s.links with linkUp := true, ide := true } ∧ u.fe.waiting = [] ∧ u.c = s.c
      ∧ (s.fe.waiting = [] → u = { s with links := { s.links with linkUp := true, ide := true } }))
  ∧ (∀ (s : State), s.links.linkUp = true → exec .hostLinkLost s = .next { s with
      mon := { s.mon with windows := [], causes := s.mon.causes ++ [0xE0] }
      links := { s.links with ide := false, linkUp := false } })
  ∧ (∀ (s : State), s.links.ide = true → exec .ideIntegrityFailure s = .next { s with
      mon := { s.mon with windows := [], causes := s.mon.causes ++ [0xE1] }, links := { s.links with ide := false } })
  ∧ (∀ (w : BitVec 6) (off len : Nat) (s : State) (x : HostWindow), SMap.get? s.mon.windows w.toNat = some x → cxlUp s = true →
    off + len ≤ x.size → x.pa % 64 = 0 → off % 64 = 0 → len % 64 = 0 → ∃ u, exec (.hostWindowRead w off len) s = .next u
      ∧ u = { s with links := { s.links with hostRead := u.links.hostRead } }
      ∧ u.links.hostRead = (List.range (len / 64)).flatMap fun i => storedBlock s ((x.pa + off) / 64 + i))
  ∧ (∀ (w : BitVec 6) (off : Nat) (data : List Byte) (s : State) (x : HostWindow),
    SMap.get? s.mon.windows w.toNat = some x → cxlUp s = true → off + data.length ≤ x.size →
    ∃ cells, exec (.hostWindowWrite w off data) s = .next (s.writeOuter cells)
      ∧ (∀ c ∈ cells, ∃ b i, i < 64 ∧ c.1 = tagHome rawTag (64 * b) + i ∧ x.pa + off ≤ 64 * b
        ∧ 64 * b + 64 ≤ x.pa + off + data.length)
      ∧ ∀ b, x.pa + off ≤ 64 * b → 64 * b + 64 ≤ x.pa + off + data.length → ∀ i, i < 64 →
        ∃ v, data[64 * b - (x.pa + off) + i]? = some v ∧ (tagHome rawTag (64 * b) + i, v) ∈ cells)
  ∧ (∀ (p : BitVec 6) (s : State),
    (s.links.planes.getLsbD p.toNat = true → ∃ u, exec (.scaleUpPlaneLost p) s = .next u
      ∧ u = { s with mon := { s.mon with causes := s.mon.causes ++ [0xE2] }, links := { s.links with planes := u.links.planes } }
      ∧ ∀ i, i < 64 → u.links.planes.getLsbD i = (s.links.planes.getLsbD i && decide (i ≠ p.toNat)))
    ∧ (s.links.planes.getLsbD p.toNat = false → s.mon.flash.running = true → s.mon.flash.recovery = false →
      ∃ u, exec (.switchPlaneUp p) s = .next u ∧ u = { s with links := { s.links with planes := u.links.planes } }
        ∧ ∀ i, i < 64 → u.links.planes.getLsbD i = (s.links.planes.getLsbD i || decide (i = p.toNat))))
  ∧ (∀ (p : BitVec 5) (s : State), s.links.ports.getLsbD p.toNat = true → ∃ u, exec (.scaleOutPortLost p) s = .next u
    ∧ u = { s with mon := { s.mon with causes := s.mon.causes ++ [0xE3] }, links := { s.links with ports := u.links.ports } }
    ∧ ∀ i, i < 32 → u.links.ports.getLsbD i = (s.links.ports.getLsbD i && decide (i ≠ p.toNat)))
  ∧ (∀ (p : BitVec 6) (payload : List Byte) (s : State), s.links.planes.getLsbD p.toNat = true → s.links.pod ≠ none →
    payload.length = 256 → exec (.flitReceive p true payload) s = .next { s with links := { s.links with flits := s.links.flits ++ [(p.toNat, payload)] } }
    ∧ ∃ u, exec (.flitReceive p false payload) s = .next u ∧ u = { s with links := { s.links with badFlits := u.links.badFlits } }
      ∧ SMap.get? u.links.badFlits p.toNat = some (min (2 ^ 64 - 1) ((SMap.get? s.links.badFlits p.toNat).getD 0 + 1)))
  ∧ (∀ (h : TransportHeader) (payload : List Byte) (s : State) (i : Bool → Instr) (ty : Nat)
    (c d : Conn), (i, ty) ∈ [((fun ok => .transportDataReceive h payload ok), 0), ((fun ok => .transportAckReceive h ok), 1),
      ((fun ok => .transportNackReceive h ok), 2), ((fun ok => .transportKeepaliveReceive h ok), 3)] → s.links.ports ≠ 0 →
    (3 < h.ttype ∨ (h.ttype = ty ∧ h.tver ≠ 1) → ∀ ok, exec (i ok) s = .next s) ∧ (
    h.ttype = ty → h.tver = 1 → c = connAt s h.conn → c.id = h.conn →
    d = { (if c.acked < h.ackpsn then { c with acked := h.ackpsn, unacked := c.unacked.filter (fun p => decide (h.ackpsn ≤ p)), timeout := 20 } else c)
      with echoes := c.echoes + h.congestion.toNat } →
    (∀ ok, ok = false ∨ c.job = none → exec (i ok) s = .next (setConn { c with bad := c.bad + 1 } s))
    ∧ (ty ≠ 0 → c.job ≠ none → exec (i true) s = .next (setConn d s))
    ∧ (ty = 0 → c.job ≠ none → (h.psn < d.next ∨ d.next + 4096 < h.psn ∨ h.psn ∈ d.seen ∨ 4096 < payload.length →
        exec (i true) s = .next (setConn d s))
      ∧ (d.next ≤ h.psn → h.psn ≤ d.next + 4096 → h.psn ∉ d.seen → payload.length ≤ 4096 →
        ∃ e, exec (i true) s = .next (setConn e (deliverMsg e h.msgid h.dest s))
        ∧ e.id = c.id ∧ d.next ≤ e.next ∧ (∀ p, d.next ≤ p → p < e.next → p = h.psn ∨ p ∈ d.seen)
        ∧ ∃ x, e.msgs.head? = some x ∧ x.1 = h.msgid ∧ ∀ j, j < payload.length → SMap.get? x.2.2.1 (h.offset + j) = payload[j]?))))
  ∧ (∀ (e : Conn) (id n : Nat) (cells hs : List Host.Cell) (a : Word) (x : Nat × Context) (s : State) (at_ : List Nat),
    (e.msgs.find? fun m => m.1 == id) = some (id, 1, cells, some n) →
    (s.mon.ctxs.find? fun x => x.2.job.isSome && x.2.job == e.job) = some x →
    ((List.range n).mapM fun i => translate s x.1 .write false (a.toNat + i)) = .ok at_ →
    hs = (at_.zip ((List.range n).map fun i => (SMap.get? cells i).getD 0)).filter (fun c => !isPoolHome c.1) →
    deliverMsg e id (some a) s = s.writeOuter hs ∧ deliverMsg e id none s = s)
  ∧ (∀ (e : Conn) (id : Nat) (dest : Option Word) (s : State), (∀ m ∈ e.msgs, m.1 = id → m.2.1 ≠ 1) → deliverMsg e id dest s = s)
  ∧ (∀ (c : Conn) (s : State), connAt (setConn c s) c.id = c ∧ ∀ n, n ≠ c.id → connAt (setConn c s) n = connAt s n)
  ∧ (∀ (conn : Nat) (s : State) (c : Conn), c = connAt s conn → c.unacked ≠ [] → exec (.retransmitTimeout conn) s =
    .next (setConn { c with timeout := min 10000 (2 * c.timeout) } s))
  ∧ ∀ (conn n : Nat) (s : State) (c : Conn), s.links.ports ≠ 0 → c = connAt s conn → c.id = conn →
    ∃ t, worldStep (.send conn n) s = .next t
      ∧ connAt t conn = { c with out := c.out + n, unacked := c.unacked ++ (List.range n).map (c.out + ·) }

/-- R373, R377 to R385. -/
def Obligations.HealthEvents : Prop :=
  (∀ (deg : Nat) (s : State), s.health.power ≠ 3 →
    (deg < 100 → exec (.overtemperature deg) s = .next { s with
      health := { s.health with tmax := max s.health.tmax deg, maxFc := 0 } })
    ∧ (100 ≤ deg → deg < 110 → ∃ u, exec (.overtemperature deg) s = .next u ∧ u.health.maxFc = 3
      ∧ (∀ i : Fin 4, u.fe.point[i] = 3) ∧ u.mon.causes = s.mon.causes ++ [0xF6] ∧ u.c = s.c ∧ u.mem = s.mem)
    ∧ (110 ≤ deg → ∃ u r, exec (.overtemperature deg) s = .next u ∧ u.health.power = 3 ∧ u.mon.flash.running = false
      ∧ u.health.log.getLast? = some r ∧ r.kind = 2))
  ∧ (∀ (die : BitVec 2) (s : State), s.health.power ≠ 3 →
    ∃ u r t, exec (.deviceMemoryStackFailure die) s = .next u
      ∧ t = ((s.mon.ctxs.filter fun c => ctxOnStack s die.toNat c.2).map (·.1)).foldl (fun t c => loseContext c t)
        { s with mon := { s.mon with causes := s.mon.causes ++ [0xF7] } }
      ∧ u = { t with health := { t.health with replace := true, uavail := t.health.uavail.set die.toNat 0 die.isLt, log := u.health.log } }
      ∧ u.health.log.getLast? = some r ∧ r.kind = 1 ∧ r.replace = true ∧ r.uavail = u.health.uavail.toList)
  ∧ (∀ (ctx : Nat) (s u : State), u = loseContext ctx s →
    u.c = (if s.c.info.running = true ∧ s.c.info.ctx = ctx then { taskGone s.c with ranked := [] } else s.c)
    ∧ (∀ k x, queueAt s k = some x → x.e.ctx = ctx → ∃ y, queueAt u k = some y ∧ y.e.en = false)
    ∧ (∀ y ∈ u.fe.saved, y ∈ s.fe.saved ∧ ∀ l ∈ s.fe.launches, l.ctx = ctx → isRow y.die y.q y.seq l = false)
    ∧ (∀ l ∈ u.fe.launches, l ∈ s.fe.launches ∧ (l.ctx = ctx → l.pkt.type = 1 → queueAt s (l.die * 1024 + l.q) = none)))
  ∧ (∀ (addr : Nat) (s : State), s.health.power ≠ 3 → addr < 2 ^ 64 →
    (∃ u, exec (.scrub addr true) s = .next u ∧ u = { s with health := { s.health with ce := u.health.ce } })
    ∧ (∃ u, exec (.scrub addr false) s = .next u ∧ u.mem = s.mem ∧ (∀ b, b ∈ u.poison ↔ b = addr / 64 ∨ b ∈ s.poison)
      ∧ u = { s with poison := u.poison, cleaned := u.cleaned, health := { s.health with ue := u.health.ue } }))
  ∧ (∀ (core : BitVec 8) (s : State), s.health.power ≠ 3 →
    (∀ l ∈ s.fe.launches, holdsCore l core.toNat = false) → core.toNat ≠ s.me ∨ s.c.info.running = false →
    ∃ u r, exec (.coreLost core) s = .next u ∧ u.c = s.c ∧ u.mem = s.mem ∧ u.health.log.getLast? = some r ∧ r.kind = 1
      ∧ (s.health.spare.getLsbD (core.toNat / 16) = false → u.health.spare.getLsbD (core.toNat / 16) = true
        ∧ u.health.subst.toList[core.toNat / 16]? = some (core.toNat % 16) ∧ u.health.uavail = s.health.uavail)
      ∧ (s.health.spare.getLsbD (core.toNat / 16) = true → u.health.replace = true ∧ u.health.spare = s.health.spare
        ∧ ∀ (d : Fin 4) i, i < 64 → (u.health.uavail[d]).getLsbD i =
          ((s.health.uavail[d]).getLsbD i && decide (64 * d.val + i ≠ core.toNat))))
  ∧ (∀ (core : BitVec 8) (s : State), s.health.power ≠ 3 → core.toNat = s.me → s.c.info.running = true →
    ∃ u, exec (.coreLost core) s = .next u ∧ u.c.ended = true ∧ u.c.info.running = false ∧ u.mem = s.mem
      ∧ u.fe = (onLaunch s.c.info.die s.c.info.queue s.c.info.seq (fun l =>
        failRow s.c.info.t 0xF0 { l with ranked := l.ranked ++ leftRanked s.c, far := l.far ++ s.c.far }) s).fe)
  ∧ (∀ (core : BitVec 8) (s : State) (l : Launch) (r : TaskRow), s.health.power ≠ 3 →
    core.toNat ≠ s.me ∨ s.c.info.running = false → (s.fe.launches.find? fun l => holdsCore l core.toNat) = some l →
    (l.tasks.find? fun r => r.core == core.toNat && !r.retired) = some r → ∃ u, exec (.coreLost core) s = .next u ∧ u.c = s.c
      ∧ u.fe = (onLaunch l.die l.q l.seq (failRow r.t 0xF0) s).fe)
  ∧ (∀ (t cause : Nat) (l u : Launch), u = failRow t cause l → u.failed = some (l.failed.getD cause)
    ∧ ∀ r ∈ u.tasks, r.t = t → r.ended = true ∧ r.retired = true)
  ∧ (∀ (addr n : Nat) (s : State), s.health.power ≠ 3 → addr < 2 ^ 48 → ∃ t, worldStep (.memRetry addr n) s = .next t
    ∧ t.c = s.c ∧ t.mem = s.mem ∧ ∀ b, b ∈ t.poison ↔ (8 ≤ n ∧ b = addr / 64) ∨ b ∈ s.poison)
  ∧ (∀ (s : State), s.health.power ≠ 3 → worldStep .hour s =
    .next { s with health := { s.health with poh := min (2 ^ 64 - 1) (s.health.poh + 1) } })
  ∧ ∀ (s : State), s.health.power ≠ 3 → ∃ u r, exec .healthLogPeriodic s = .next u
    ∧ u = { s with health := { s.health with log := u.health.log } } ∧ u.health.log.getLast? = some r ∧ r.kind = 0
    ∧ r.seq = ((latestRecord s).map fun x => x.seq + 1).getD 0 ∧ r.uavail = s.health.uavail.toList ∧ r.replace = s.health.replace
    ∧ r.poh = s.health.poh ∧ (∀ x ∈ u.health.log, x = r ∨ x ∈ s.health.log)
end

