-- ==== Sys2Proof/Laws/State.lean ====
section
/-! SUPPORT. What each update of the state leaves in each field, so that no proof unfolds a record update. -/

namespace Sys2Proof.Machine

@[simp] theorem State.onC_c (f : Core → Core) (s : State) : (s.onC f).c = f s.c := rfl

@[simp] theorem State.onC_inputs (f : Core → Core) (s : State) : (s.onC f).inputs = s.inputs := rfl
@[simp] theorem State.onC_world (f : Core → Core) (s : State) : (s.onC f).world = s.world := rfl
@[simp] theorem State.onC_cleaned (f : Core → Core) (s : State) : (s.onC f).cleaned = s.cleaned := rfl
@[simp] theorem State.onC_keyed (f : Core → Core) (s : State) : (s.onC f).keyed = s.keyed := rfl
@[simp] theorem State.onC_mem (f : Core → Core) (s : State) : (s.onC f).mem = s.mem := rfl
@[simp] theorem State.onC_outer (f : Core → Core) (s : State) : (s.onC f).outer = s.outer := rfl
@[simp] theorem State.onC_poison (f : Core → Core) (s : State) : (s.onC f).poison = s.poison := rfl
@[simp] theorem State.onC_mon (f : Core → Core) (s : State) : (s.onC f).mon = s.mon := rfl
@[simp] theorem State.onC_fe (f : Core → Core) (s : State) : (s.onC f).fe = s.fe := rfl
@[simp] theorem State.onC_links (f : Core → Core) (s : State) : (s.onC f).links = s.links := rfl
@[simp] theorem State.onC_health (f : Core → Core) (s : State) : (s.onC f).health = s.health := rfl
@[simp] theorem State.onC_bind (f : Core → Core) (s : State) : (s.onC f).bind = s.bind := rfl
@[simp] theorem State.onC_me (f : Core → Core) (s : State) : (s.onC f).me = s.me := rfl

@[simp] theorem State.onC_onC (f g : Core → Core) (s : State) : (s.onC f).onC g = s.onC fun c => g (f c) := rfl

@[simp] theorem State.write_inputs (l : List Host.Cell) (s : State) : (s.write l).inputs = s.inputs := rfl
@[simp] theorem State.write_world (l : List Host.Cell) (s : State) : (s.write l).world = s.world := rfl
@[simp] theorem State.write_c (l : List Host.Cell) (s : State) : (s.write l).c = s.c := rfl
@[simp] theorem State.write_mon (l : List Host.Cell) (s : State) : (s.write l).mon = s.mon := rfl
@[simp] theorem State.write_fe (l : List Host.Cell) (s : State) : (s.write l).fe = s.fe := rfl
@[simp] theorem State.write_links (l : List Host.Cell) (s : State) : (s.write l).links = s.links := rfl
@[simp] theorem State.write_health (l : List Host.Cell) (s : State) : (s.write l).health = s.health := rfl
@[simp] theorem State.write_bind (l : List Host.Cell) (s : State) : (s.write l).bind = s.bind := rfl
@[simp] theorem State.write_me (l : List Host.Cell) (s : State) : (s.write l).me = s.me := rfl
@[simp] theorem State.write_mem (l : List Host.Cell) (s : State) :
    (s.write l).mem = memSetAll l (rekeyAll l (s.mem, s.keyed)).1 := rfl

@[simp] theorem takeSnapshot_inputs (s : State) : (takeSnapshot s).inputs = s.inputs := rfl
@[simp] theorem takeSnapshot_world (s : State) : (takeSnapshot s).world = s.world := rfl
@[simp] theorem takeSnapshot_c (s : State) : (takeSnapshot s).c = s.c := rfl
@[simp] theorem takeSnapshot_mon (s : State) : (takeSnapshot s).mon = s.mon := rfl
@[simp] theorem takeSnapshot_fe (s : State) : (takeSnapshot s).fe = s.fe := rfl
@[simp] theorem takeSnapshot_links (s : State) : (takeSnapshot s).links = s.links := rfl
@[simp] theorem takeSnapshot_health (s : State) : (takeSnapshot s).health = s.health := rfl
@[simp] theorem takeSnapshot_bind (s : State) : (takeSnapshot s).bind = s.bind := rfl
@[simp] theorem takeSnapshot_me (s : State) : (takeSnapshot s).me = s.me := rfl
@[simp] theorem takeSnapshot_outer (s : State) : (takeSnapshot s).outer = [] := rfl

@[simp] theorem Regs.setCell_rpos (x : Regs) (a : BitVec 6) (v : Word) : (x.setCell a v).rpos = x.rpos := rfl
@[simp] theorem Regs.setCell_p (x : Regs) (a : BitVec 6) (v : Word) : (x.setCell a v).p = x.p := rfl
@[simp] theorem Regs.setCell_h (x : Regs) (a : BitVec 6) (v : Word) : (x.setCell a v).h = x.h := rfl
@[simp] theorem Regs.setCell_stg (x : Regs) (a : BitVec 6) (v : Word) : (x.setCell a v).stg = x.stg := rfl
@[simp] theorem Regs.setCell_lsel (x : Regs) (a : BitVec 6) (v : Word) : (x.setCell a v).lsel = x.lsel := rfl
@[simp] theorem Regs.setCell_mtol (x : Regs) (a : BitVec 6) (v : Word) : (x.setCell a v).mtol = x.mtol := rfl
@[simp] theorem Regs.setH_s (x : Regs) (a : BitVec 5) (v : BitVec 256) : (x.setH a v).s = x.s := rfl
@[simp] theorem Regs.setH_rpos (x : Regs) (a : BitVec 5) (v : BitVec 256) : (x.setH a v).rpos = x.rpos := rfl
@[simp] theorem Regs.setH_p (x : Regs) (a : BitVec 5) (v : BitVec 256) : (x.setH a v).p = x.p := rfl
@[simp] theorem Regs.setH_stg (x : Regs) (a : BitVec 5) (v : BitVec 256) : (x.setH a v).stg = x.stg := rfl
@[simp] theorem Regs.setH_lsel (x : Regs) (a : BitVec 5) (v : BitVec 256) : (x.setH a v).lsel = x.lsel := rfl
@[simp] theorem Regs.setH_mtol (x : Regs) (a : BitVec 5) (v : BitVec 256) : (x.setH a v).mtol = x.mtol := rfl
@[simp] theorem Regs.setStg_s (x : Regs) (a : BitVec 5) (v : Word) : (x.setStg a v).s = x.s := rfl
@[simp] theorem Regs.setStg_rpos (x : Regs) (a : BitVec 5) (v : Word) : (x.setStg a v).rpos = x.rpos := rfl
@[simp] theorem Regs.setStg_p (x : Regs) (a : BitVec 5) (v : Word) : (x.setStg a v).p = x.p := rfl
@[simp] theorem Regs.setStg_h (x : Regs) (a : BitVec 5) (v : Word) : (x.setStg a v).h = x.h := rfl
@[simp] theorem Regs.setStg_lsel (x : Regs) (a : BitVec 5) (v : Word) : (x.setStg a v).lsel = x.lsel := rfl
@[simp] theorem Regs.setStg_mtol (x : Regs) (a : BitVec 5) (v : Word) : (x.setStg a v).mtol = x.mtol := rfl

@[simp] theorem stalled_r (s : State) : (stalled s).c.r = s.c.r := rfl
@[simp] theorem stalled_pc (s : State) : (stalled s).c.pc = s.c.pc := rfl
@[simp] theorem stalled_view (s : State) : (stalled s).c.view = s.c.view := rfl
@[simp] theorem stalled_held (s : State) : (stalled s).c.held = s.c.held := rfl
@[simp] theorem stalled_resume (s : State) : (stalled s).c.resume = s.c.resume := rfl
@[simp] theorem stalled_tripAt (s : State) : (stalled s).c.tripAt = s.c.tripAt := rfl
@[simp] theorem stalled_inflight (s : State) : (stalled s).c.inflight = s.c.inflight := rfl
@[simp] theorem stalled_now (s : State) : (stalled s).c.now = s.c.now := rfl
@[simp] theorem stalled_bundles (s : State) : (stalled s).c.bundles = s.c.bundles := rfl
@[simp] theorem stalled_sinceSafe (s : State) : (stalled s).c.sinceSafe = s.c.sinceSafe := rfl
@[simp] theorem stalled_loops (s : State) : (stalled s).c.loops = s.c.loops := rfl
@[simp] theorem stalled_drain (s : State) : (stalled s).c.drain = s.c.drain := rfl
@[simp] theorem stalled_trap (s : State) : (stalled s).c.trap = s.c.trap := rfl
@[simp] theorem stalled_srec (s : State) : (stalled s).c.srec = s.c.srec := rfl
@[simp] theorem stalled_wm (s : State) : (stalled s).c.wm = s.c.wm := rfl
@[simp] theorem stalled_sat (s : State) : (stalled s).c.sat = s.c.sat := rfl
@[simp] theorem stalled_arr (s : State) : (stalled s).c.arr = s.c.arr := rfl
@[simp] theorem stalled_m (s : State) : (stalled s).c.m = s.c.m := rfl
@[simp] theorem stalled_mxq (s : State) : (stalled s).c.mxq = s.c.mxq := rfl
@[simp] theorem stalled_cpq (s : State) : (stalled s).c.cpq = s.c.cpq := rfl
@[simp] theorem stalled_spq (s : State) : (stalled s).c.spq = s.c.spq := rfl
@[simp] theorem stalled_syq (s : State) : (stalled s).c.syq = s.c.syq := rfl
@[simp] theorem stalled_failing (s : State) : (stalled s).c.failing = s.c.failing := rfl
@[simp] theorem stalled_cmdNo (s : State) : (stalled s).c.cmdNo = s.c.cmdNo := rfl
@[simp] theorem stalled_writers (s : State) : (stalled s).c.writers = s.c.writers := rfl
@[simp] theorem stalled_cpFlags (s : State) : (stalled s).c.cpFlags = s.c.cpFlags := rfl
@[simp] theorem stalled_counts (s : State) : (stalled s).c.counts = s.c.counts := rfl
@[simp] theorem stalled_z (s : State) : (stalled s).c.z = s.c.z := rfl
@[simp] theorem stalled_poste (s : State) : (stalled s).c.poste = s.c.poste := rfl
@[simp] theorem stalled_lanes (s : State) : (stalled s).c.lanes = s.c.lanes := rfl
@[simp] theorem stalled_ranked (s : State) : (stalled s).c.ranked = s.c.ranked := rfl
@[simp] theorem stalled_cmps (s : State) : (stalled s).c.cmps = s.c.cmps := rfl
@[simp] theorem stalled_spec (s : State) : (stalled s).c.spec = s.c.spec := rfl
@[simp] theorem stalled_txn (s : State) : (stalled s).c.txn = s.c.txn := rfl
@[simp] theorem stalled_bars (s : State) : (stalled s).c.bars = s.c.bars := rfl
@[simp] theorem stalled_barRec (s : State) : (stalled s).c.barRec = s.c.barRec := rfl
@[simp] theorem stalled_mismatch (s : State) : (stalled s).c.mismatch = s.c.mismatch := rfl
@[simp] theorem stalled_upsets (s : State) : (stalled s).c.upsets = s.c.upsets := rfl
@[simp] theorem stalled_haltAsked (s : State) : (stalled s).c.haltAsked = s.c.haltAsked := rfl
@[simp] theorem stalled_xendRec (s : State) : (stalled s).c.xendRec = s.c.xendRec := rfl
@[simp] theorem stalled_far (s : State) : (stalled s).c.far = s.c.far := rfl
@[simp] theorem stalled_phaseAt (s : State) : (stalled s).c.phaseAt = s.c.phaseAt := rfl
@[simp] theorem stalled_colls (s : State) : (stalled s).c.colls = s.c.colls := rfl
@[simp] theorem stalled_info (s : State) : (stalled s).c.info = s.c.info := rfl
@[simp] theorem stalled_fused (s : State) : (stalled s).c.fused = s.c.fused := rfl
@[simp] theorem stalled_emu (s : State) : (stalled s).c.emu = s.c.emu := rfl
@[simp] theorem stalled_ended (s : State) : (stalled s).c.ended = s.c.ended := rfl
@[simp] theorem stalled_halted (s : State) : (stalled s).c.halted = s.c.halted := rfl
@[simp] theorem stalled_stepOnce (s : State) : (stalled s).c.stepOnce = s.c.stepOnce := rfl
@[simp] theorem stalled_bkptTag (s : State) : (stalled s).c.bkptTag = s.c.bkptTag := rfl
@[simp] theorem stalled_bkptSkip (s : State) : (stalled s).c.bkptSkip = s.c.bkptSkip := rfl
@[simp] theorem stalled_preempt (s : State) : (stalled s).c.preempt = s.c.preempt := rfl
@[simp] theorem stalled_fresh (s : State) : (stalled s).c.fresh = s.c.fresh := rfl
@[simp] theorem stalled_inputs (s : State) : (stalled s).inputs = s.inputs := rfl
@[simp] theorem stalled_world (s : State) : (stalled s).world = s.world := rfl
@[simp] theorem stalled_cleaned (s : State) : (stalled s).cleaned = s.cleaned := rfl
@[simp] theorem stalled_keyed (s : State) : (stalled s).keyed = s.keyed := rfl
@[simp] theorem stalled_mem (s : State) : (stalled s).mem = s.mem := rfl
@[simp] theorem stalled_outer (s : State) : (stalled s).outer = s.outer := rfl
@[simp] theorem stalled_poison (s : State) : (stalled s).poison = s.poison := rfl
@[simp] theorem stalled_mon (s : State) : (stalled s).mon = s.mon := rfl
@[simp] theorem stalled_fe (s : State) : (stalled s).fe = s.fe := rfl
@[simp] theorem stalled_links (s : State) : (stalled s).links = s.links := rfl
@[simp] theorem stalled_health (s : State) : (stalled s).health = s.health := rfl
@[simp] theorem stalled_bind (s : State) : (stalled s).bind = s.bind := rfl
@[simp] theorem stalled_me (s : State) : (stalled s).me = s.me := rfl

@[simp] theorem post_r (k : Slot) (d : Dst) (v : BitVec 256) (n : Nat) (s : State) : (post k d v n s).c.r = s.c.r := rfl
@[simp] theorem post_pc (k : Slot) (d : Dst) (v : BitVec 256) (n : Nat) (s : State) : (post k d v n s).c.pc = s.c.pc := rfl
@[simp] theorem post_bun (k : Slot) (d : Dst) (v : BitVec 256) (n : Nat) (s : State) : (post k d v n s).c.bun = s.c.bun := rfl
@[simp] theorem post_view (k : Slot) (d : Dst) (v : BitVec 256) (n : Nat) (s : State) : (post k d v n s).c.view = s.c.view := rfl
@[simp] theorem post_held (k : Slot) (d : Dst) (v : BitVec 256) (n : Nat) (s : State) : (post k d v n s).c.held = s.c.held := rfl
@[simp] theorem post_resume (k : Slot) (d : Dst) (v : BitVec 256) (n : Nat) (s : State) : (post k d v n s).c.resume = s.c.resume := rfl
@[simp] theorem post_tripAt (k : Slot) (d : Dst) (v : BitVec 256) (n : Nat) (s : State) : (post k d v n s).c.tripAt = s.c.tripAt := rfl
@[simp] theorem post_now (k : Slot) (d : Dst) (v : BitVec 256) (n : Nat) (s : State) : (post k d v n s).c.now = s.c.now := rfl
@[simp] theorem post_bundles (k : Slot) (d : Dst) (v : BitVec 256) (n : Nat) (s : State) : (post k d v n s).c.bundles = s.c.bundles := rfl
@[simp] theorem post_sinceSafe (k : Slot) (d : Dst) (v : BitVec 256) (n : Nat) (s : State) : (post k d v n s).c.sinceSafe = s.c.sinceSafe := rfl
@[simp] theorem post_loops (k : Slot) (d : Dst) (v : BitVec 256) (n : Nat) (s : State) : (post k d v n s).c.loops = s.c.loops := rfl
@[simp] theorem post_drain (k : Slot) (d : Dst) (v : BitVec 256) (n : Nat) (s : State) : (post k d v n s).c.drain = s.c.drain := rfl
@[simp] theorem post_trap (k : Slot) (d : Dst) (v : BitVec 256) (n : Nat) (s : State) : (post k d v n s).c.trap = s.c.trap := rfl
@[simp] theorem post_srec (k : Slot) (d : Dst) (v : BitVec 256) (n : Nat) (s : State) : (post k d v n s).c.srec = s.c.srec := rfl
@[simp] theorem post_wm (k : Slot) (d : Dst) (v : BitVec 256) (n : Nat) (s : State) : (post k d v n s).c.wm = s.c.wm := rfl
@[simp] theorem post_sat (k : Slot) (d : Dst) (v : BitVec 256) (n : Nat) (s : State) : (post k d v n s).c.sat = s.c.sat := rfl
@[simp] theorem post_arr (k : Slot) (d : Dst) (v : BitVec 256) (n : Nat) (s : State) : (post k d v n s).c.arr = s.c.arr := rfl
@[simp] theorem post_m (k : Slot) (d : Dst) (v : BitVec 256) (n : Nat) (s : State) : (post k d v n s).c.m = s.c.m := rfl
@[simp] theorem post_mxq (k : Slot) (d : Dst) (v : BitVec 256) (n : Nat) (s : State) : (post k d v n s).c.mxq = s.c.mxq := rfl
@[simp] theorem post_cpq (k : Slot) (d : Dst) (v : BitVec 256) (n : Nat) (s : State) : (post k d v n s).c.cpq = s.c.cpq := rfl
@[simp] theorem post_spq (k : Slot) (d : Dst) (v : BitVec 256) (n : Nat) (s : State) : (post k d v n s).c.spq = s.c.spq := rfl
@[simp] theorem post_syq (k : Slot) (d : Dst) (v : BitVec 256) (n : Nat) (s : State) : (post k d v n s).c.syq = s.c.syq := rfl
@[simp] theorem post_failing (k : Slot) (d : Dst) (v : BitVec 256) (n : Nat) (s : State) : (post k d v n s).c.failing = s.c.failing := rfl
@[simp] theorem post_cmdNo (k : Slot) (d : Dst) (v : BitVec 256) (n : Nat) (s : State) : (post k d v n s).c.cmdNo = s.c.cmdNo := rfl
@[simp] theorem post_writers (k : Slot) (d : Dst) (v : BitVec 256) (n : Nat) (s : State) : (post k d v n s).c.writers = s.c.writers := rfl
@[simp] theorem post_cpFlags (k : Slot) (d : Dst) (v : BitVec 256) (n : Nat) (s : State) : (post k d v n s).c.cpFlags = s.c.cpFlags := rfl
@[simp] theorem post_counts (k : Slot) (d : Dst) (v : BitVec 256) (n : Nat) (s : State) : (post k d v n s).c.counts = s.c.counts := rfl
@[simp] theorem post_z (k : Slot) (d : Dst) (v : BitVec 256) (n : Nat) (s : State) : (post k d v n s).c.z = s.c.z := rfl
@[simp] theorem post_poste (k : Slot) (d : Dst) (v : BitVec 256) (n : Nat) (s : State) : (post k d v n s).c.poste = s.c.poste := rfl
@[simp] theorem post_lanes (k : Slot) (d : Dst) (v : BitVec 256) (n : Nat) (s : State) : (post k d v n s).c.lanes = s.c.lanes := rfl
@[simp] theorem post_ranked (k : Slot) (d : Dst) (v : BitVec 256) (n : Nat) (s : State) : (post k d v n s).c.ranked = s.c.ranked := rfl
@[simp] theorem post_cmps (k : Slot) (d : Dst) (v : BitVec 256) (n : Nat) (s : State) : (post k d v n s).c.cmps = s.c.cmps := rfl
@[simp] theorem post_spec (k : Slot) (d : Dst) (v : BitVec 256) (n : Nat) (s : State) : (post k d v n s).c.spec = s.c.spec := rfl
@[simp] theorem post_txn (k : Slot) (d : Dst) (v : BitVec 256) (n : Nat) (s : State) : (post k d v n s).c.txn = s.c.txn := rfl
@[simp] theorem post_bars (k : Slot) (d : Dst) (v : BitVec 256) (n : Nat) (s : State) : (post k d v n s).c.bars = s.c.bars := rfl
@[simp] theorem post_barRec (k : Slot) (d : Dst) (v : BitVec 256) (n : Nat) (s : State) : (post k d v n s).c.barRec = s.c.barRec := rfl
@[simp] theorem post_mismatch (k : Slot) (d : Dst) (v : BitVec 256) (n : Nat) (s : State) : (post k d v n s).c.mismatch = s.c.mismatch := rfl
@[simp] theorem post_upsets (k : Slot) (d : Dst) (v : BitVec 256) (n : Nat) (s : State) : (post k d v n s).c.upsets = s.c.upsets := rfl
@[simp] theorem post_haltAsked (k : Slot) (d : Dst) (v : BitVec 256) (n : Nat) (s : State) : (post k d v n s).c.haltAsked = s.c.haltAsked := rfl
@[simp] theorem post_xendRec (k : Slot) (d : Dst) (v : BitVec 256) (n : Nat) (s : State) : (post k d v n s).c.xendRec = s.c.xendRec := rfl
@[simp] theorem post_far (k : Slot) (d : Dst) (v : BitVec 256) (n : Nat) (s : State) : (post k d v n s).c.far = s.c.far := rfl
@[simp] theorem post_phaseAt (k : Slot) (d : Dst) (v : BitVec 256) (n : Nat) (s : State) : (post k d v n s).c.phaseAt = s.c.phaseAt := rfl
@[simp] theorem post_colls (k : Slot) (d : Dst) (v : BitVec 256) (n : Nat) (s : State) : (post k d v n s).c.colls = s.c.colls := rfl
@[simp] theorem post_info (k : Slot) (d : Dst) (v : BitVec 256) (n : Nat) (s : State) : (post k d v n s).c.info = s.c.info := rfl
@[simp] theorem post_fused (k : Slot) (d : Dst) (v : BitVec 256) (n : Nat) (s : State) : (post k d v n s).c.fused = s.c.fused := rfl
@[simp] theorem post_emu (k : Slot) (d : Dst) (v : BitVec 256) (n : Nat) (s : State) : (post k d v n s).c.emu = s.c.emu := rfl
@[simp] theorem post_ended (k : Slot) (d : Dst) (v : BitVec 256) (n : Nat) (s : State) : (post k d v n s).c.ended = s.c.ended := rfl
@[simp] theorem post_halted (k : Slot) (d : Dst) (v : BitVec 256) (n : Nat) (s : State) : (post k d v n s).c.halted = s.c.halted := rfl
@[simp] theorem post_stepOnce (k : Slot) (d : Dst) (v : BitVec 256) (n : Nat) (s : State) : (post k d v n s).c.stepOnce = s.c.stepOnce := rfl
@[simp] theorem post_bkptTag (k : Slot) (d : Dst) (v : BitVec 256) (n : Nat) (s : State) : (post k d v n s).c.bkptTag = s.c.bkptTag := rfl
@[simp] theorem post_bkptSkip (k : Slot) (d : Dst) (v : BitVec 256) (n : Nat) (s : State) : (post k d v n s).c.bkptSkip = s.c.bkptSkip := rfl
@[simp] theorem post_preempt (k : Slot) (d : Dst) (v : BitVec 256) (n : Nat) (s : State) : (post k d v n s).c.preempt = s.c.preempt := rfl
@[simp] theorem post_fresh (k : Slot) (d : Dst) (v : BitVec 256) (n : Nat) (s : State) : (post k d v n s).c.fresh = s.c.fresh := rfl
@[simp] theorem post_state_inputs (k : Slot) (d : Dst) (v : BitVec 256) (n : Nat) (s : State) : (post k d v n s).inputs = s.inputs := rfl
@[simp] theorem post_state_world (k : Slot) (d : Dst) (v : BitVec 256) (n : Nat) (s : State) : (post k d v n s).world = s.world := rfl
@[simp] theorem post_state_cleaned (k : Slot) (d : Dst) (v : BitVec 256) (n : Nat) (s : State) : (post k d v n s).cleaned = s.cleaned := rfl
@[simp] theorem post_state_keyed (k : Slot) (d : Dst) (v : BitVec 256) (n : Nat) (s : State) : (post k d v n s).keyed = s.keyed := rfl
@[simp] theorem post_state_mem (k : Slot) (d : Dst) (v : BitVec 256) (n : Nat) (s : State) : (post k d v n s).mem = s.mem := rfl
@[simp] theorem post_state_outer (k : Slot) (d : Dst) (v : BitVec 256) (n : Nat) (s : State) : (post k d v n s).outer = s.outer := rfl
@[simp] theorem post_state_poison (k : Slot) (d : Dst) (v : BitVec 256) (n : Nat) (s : State) : (post k d v n s).poison = s.poison := rfl
@[simp] theorem post_state_mon (k : Slot) (d : Dst) (v : BitVec 256) (n : Nat) (s : State) : (post k d v n s).mon = s.mon := rfl
@[simp] theorem post_state_fe (k : Slot) (d : Dst) (v : BitVec 256) (n : Nat) (s : State) : (post k d v n s).fe = s.fe := rfl
@[simp] theorem post_state_links (k : Slot) (d : Dst) (v : BitVec 256) (n : Nat) (s : State) : (post k d v n s).links = s.links := rfl
@[simp] theorem post_state_health (k : Slot) (d : Dst) (v : BitVec 256) (n : Nat) (s : State) : (post k d v n s).health = s.health := rfl
@[simp] theorem post_state_bind (k : Slot) (d : Dst) (v : BitVec 256) (n : Nat) (s : State) : (post k d v n s).bind = s.bind := rfl
@[simp] theorem post_state_me (k : Slot) (d : Dst) (v : BitVec 256) (n : Nat) (s : State) : (post k d v n s).me = s.me := rfl
@[simp] theorem post_inflight (k : Slot) (d : Dst) (v : BitVec 256) (n : Nat) (s : State) :
    (post k d v n s).c.inflight = s.c.inflight ++ [⟨d, v, s.c.now + n, k.idx, s.c.pc, false⟩] := rfl

@[simp] theorem postVar_r (k : Slot) (d : Dst) (v : BitVec 256) (s : State) : (postVar k d v s).c.r = s.c.r := rfl
@[simp] theorem postVar_pc (k : Slot) (d : Dst) (v : BitVec 256) (s : State) : (postVar k d v s).c.pc = s.c.pc := rfl
@[simp] theorem postVar_bun (k : Slot) (d : Dst) (v : BitVec 256) (s : State) : (postVar k d v s).c.bun = s.c.bun := rfl
@[simp] theorem postVar_view (k : Slot) (d : Dst) (v : BitVec 256) (s : State) : (postVar k d v s).c.view = s.c.view := rfl
@[simp] theorem postVar_held (k : Slot) (d : Dst) (v : BitVec 256) (s : State) : (postVar k d v s).c.held = s.c.held := rfl
@[simp] theorem postVar_resume (k : Slot) (d : Dst) (v : BitVec 256) (s : State) : (postVar k d v s).c.resume = s.c.resume := rfl
@[simp] theorem postVar_tripAt (k : Slot) (d : Dst) (v : BitVec 256) (s : State) : (postVar k d v s).c.tripAt = s.c.tripAt := rfl
@[simp] theorem postVar_now (k : Slot) (d : Dst) (v : BitVec 256) (s : State) : (postVar k d v s).c.now = s.c.now := rfl
@[simp] theorem postVar_bundles (k : Slot) (d : Dst) (v : BitVec 256) (s : State) : (postVar k d v s).c.bundles = s.c.bundles := rfl
@[simp] theorem postVar_sinceSafe (k : Slot) (d : Dst) (v : BitVec 256) (s : State) : (postVar k d v s).c.sinceSafe = s.c.sinceSafe := rfl
@[simp] theorem postVar_loops (k : Slot) (d : Dst) (v : BitVec 256) (s : State) : (postVar k d v s).c.loops = s.c.loops := rfl
@[simp] theorem postVar_drain (k : Slot) (d : Dst) (v : BitVec 256) (s : State) : (postVar k d v s).c.drain = s.c.drain := rfl
@[simp] theorem postVar_trap (k : Slot) (d : Dst) (v : BitVec 256) (s : State) : (postVar k d v s).c.trap = s.c.trap := rfl
@[simp] theorem postVar_srec (k : Slot) (d : Dst) (v : BitVec 256) (s : State) : (postVar k d v s).c.srec = s.c.srec := rfl
@[simp] theorem postVar_wm (k : Slot) (d : Dst) (v : BitVec 256) (s : State) : (postVar k d v s).c.wm = s.c.wm := rfl
@[simp] theorem postVar_sat (k : Slot) (d : Dst) (v : BitVec 256) (s : State) : (postVar k d v s).c.sat = s.c.sat := rfl
@[simp] theorem postVar_arr (k : Slot) (d : Dst) (v : BitVec 256) (s : State) : (postVar k d v s).c.arr = s.c.arr := rfl
@[simp] theorem postVar_m (k : Slot) (d : Dst) (v : BitVec 256) (s : State) : (postVar k d v s).c.m = s.c.m := rfl
@[simp] theorem postVar_mxq (k : Slot) (d : Dst) (v : BitVec 256) (s : State) : (postVar k d v s).c.mxq = s.c.mxq := rfl
@[simp] theorem postVar_cpq (k : Slot) (d : Dst) (v : BitVec 256) (s : State) : (postVar k d v s).c.cpq = s.c.cpq := rfl
@[simp] theorem postVar_spq (k : Slot) (d : Dst) (v : BitVec 256) (s : State) : (postVar k d v s).c.spq = s.c.spq := rfl
@[simp] theorem postVar_syq (k : Slot) (d : Dst) (v : BitVec 256) (s : State) : (postVar k d v s).c.syq = s.c.syq := rfl
@[simp] theorem postVar_failing (k : Slot) (d : Dst) (v : BitVec 256) (s : State) : (postVar k d v s).c.failing = s.c.failing := rfl
@[simp] theorem postVar_cmdNo (k : Slot) (d : Dst) (v : BitVec 256) (s : State) : (postVar k d v s).c.cmdNo = s.c.cmdNo := rfl
@[simp] theorem postVar_writers (k : Slot) (d : Dst) (v : BitVec 256) (s : State) : (postVar k d v s).c.writers = s.c.writers := rfl
@[simp] theorem postVar_cpFlags (k : Slot) (d : Dst) (v : BitVec 256) (s : State) : (postVar k d v s).c.cpFlags = s.c.cpFlags := rfl
@[simp] theorem postVar_counts (k : Slot) (d : Dst) (v : BitVec 256) (s : State) : (postVar k d v s).c.counts = s.c.counts := rfl
@[simp] theorem postVar_z (k : Slot) (d : Dst) (v : BitVec 256) (s : State) : (postVar k d v s).c.z = s.c.z := rfl
@[simp] theorem postVar_poste (k : Slot) (d : Dst) (v : BitVec 256) (s : State) : (postVar k d v s).c.poste = s.c.poste := rfl
@[simp] theorem postVar_lanes (k : Slot) (d : Dst) (v : BitVec 256) (s : State) : (postVar k d v s).c.lanes = s.c.lanes := rfl
@[simp] theorem postVar_ranked (k : Slot) (d : Dst) (v : BitVec 256) (s : State) : (postVar k d v s).c.ranked = s.c.ranked := rfl
@[simp] theorem postVar_cmps (k : Slot) (d : Dst) (v : BitVec 256) (s : State) : (postVar k d v s).c.cmps = s.c.cmps := rfl
@[simp] theorem postVar_spec (k : Slot) (d : Dst) (v : BitVec 256) (s : State) : (postVar k d v s).c.spec = s.c.spec := rfl
@[simp] theorem postVar_txn (k : Slot) (d : Dst) (v : BitVec 256) (s : State) : (postVar k d v s).c.txn = s.c.txn := rfl
@[simp] theorem postVar_bars (k : Slot) (d : Dst) (v : BitVec 256) (s : State) : (postVar k d v s).c.bars = s.c.bars := rfl
@[simp] theorem postVar_barRec (k : Slot) (d : Dst) (v : BitVec 256) (s : State) : (postVar k d v s).c.barRec = s.c.barRec := rfl
@[simp] theorem postVar_mismatch (k : Slot) (d : Dst) (v : BitVec 256) (s : State) : (postVar k d v s).c.mismatch = s.c.mismatch := rfl
@[simp] theorem postVar_upsets (k : Slot) (d : Dst) (v : BitVec 256) (s : State) : (postVar k d v s).c.upsets = s.c.upsets := rfl
@[simp] theorem postVar_haltAsked (k : Slot) (d : Dst) (v : BitVec 256) (s : State) : (postVar k d v s).c.haltAsked = s.c.haltAsked := rfl
@[simp] theorem postVar_xendRec (k : Slot) (d : Dst) (v : BitVec 256) (s : State) : (postVar k d v s).c.xendRec = s.c.xendRec := rfl
@[simp] theorem postVar_far (k : Slot) (d : Dst) (v : BitVec 256) (s : State) : (postVar k d v s).c.far = s.c.far := rfl
@[simp] theorem postVar_phaseAt (k : Slot) (d : Dst) (v : BitVec 256) (s : State) : (postVar k d v s).c.phaseAt = s.c.phaseAt := rfl
@[simp] theorem postVar_colls (k : Slot) (d : Dst) (v : BitVec 256) (s : State) : (postVar k d v s).c.colls = s.c.colls := rfl
@[simp] theorem postVar_info (k : Slot) (d : Dst) (v : BitVec 256) (s : State) : (postVar k d v s).c.info = s.c.info := rfl
@[simp] theorem postVar_fused (k : Slot) (d : Dst) (v : BitVec 256) (s : State) : (postVar k d v s).c.fused = s.c.fused := rfl
@[simp] theorem postVar_emu (k : Slot) (d : Dst) (v : BitVec 256) (s : State) : (postVar k d v s).c.emu = s.c.emu := rfl
@[simp] theorem postVar_ended (k : Slot) (d : Dst) (v : BitVec 256) (s : State) : (postVar k d v s).c.ended = s.c.ended := rfl
@[simp] theorem postVar_halted (k : Slot) (d : Dst) (v : BitVec 256) (s : State) : (postVar k d v s).c.halted = s.c.halted := rfl
@[simp] theorem postVar_stepOnce (k : Slot) (d : Dst) (v : BitVec 256) (s : State) : (postVar k d v s).c.stepOnce = s.c.stepOnce := rfl
@[simp] theorem postVar_bkptTag (k : Slot) (d : Dst) (v : BitVec 256) (s : State) : (postVar k d v s).c.bkptTag = s.c.bkptTag := rfl
@[simp] theorem postVar_bkptSkip (k : Slot) (d : Dst) (v : BitVec 256) (s : State) : (postVar k d v s).c.bkptSkip = s.c.bkptSkip := rfl
@[simp] theorem postVar_preempt (k : Slot) (d : Dst) (v : BitVec 256) (s : State) : (postVar k d v s).c.preempt = s.c.preempt := rfl
@[simp] theorem postVar_fresh (k : Slot) (d : Dst) (v : BitVec 256) (s : State) : (postVar k d v s).c.fresh = s.c.fresh := rfl
@[simp] theorem postVar_state_inputs (k : Slot) (d : Dst) (v : BitVec 256) (s : State) : (postVar k d v s).inputs = s.inputs := rfl
@[simp] theorem postVar_state_world (k : Slot) (d : Dst) (v : BitVec 256) (s : State) : (postVar k d v s).world = s.world := rfl
@[simp] theorem postVar_state_cleaned (k : Slot) (d : Dst) (v : BitVec 256) (s : State) : (postVar k d v s).cleaned = s.cleaned := rfl
@[simp] theorem postVar_state_keyed (k : Slot) (d : Dst) (v : BitVec 256) (s : State) : (postVar k d v s).keyed = s.keyed := rfl
@[simp] theorem postVar_state_mem (k : Slot) (d : Dst) (v : BitVec 256) (s : State) : (postVar k d v s).mem = s.mem := rfl
@[simp] theorem postVar_state_outer (k : Slot) (d : Dst) (v : BitVec 256) (s : State) : (postVar k d v s).outer = s.outer := rfl
@[simp] theorem postVar_state_poison (k : Slot) (d : Dst) (v : BitVec 256) (s : State) : (postVar k d v s).poison = s.poison := rfl
@[simp] theorem postVar_state_mon (k : Slot) (d : Dst) (v : BitVec 256) (s : State) : (postVar k d v s).mon = s.mon := rfl
@[simp] theorem postVar_state_fe (k : Slot) (d : Dst) (v : BitVec 256) (s : State) : (postVar k d v s).fe = s.fe := rfl
@[simp] theorem postVar_state_links (k : Slot) (d : Dst) (v : BitVec 256) (s : State) : (postVar k d v s).links = s.links := rfl
@[simp] theorem postVar_state_health (k : Slot) (d : Dst) (v : BitVec 256) (s : State) : (postVar k d v s).health = s.health := rfl
@[simp] theorem postVar_state_bind (k : Slot) (d : Dst) (v : BitVec 256) (s : State) : (postVar k d v s).bind = s.bind := rfl
@[simp] theorem postVar_state_me (k : Slot) (d : Dst) (v : BitVec 256) (s : State) : (postVar k d v s).me = s.me := rfl

@[simp] theorem pushUndo_r (cls : BitVec 3) (i : BitVec 12) (v : BitVec 256) (s : State) : (pushUndo cls i v s).c.r = s.c.r := by
  unfold pushUndo; split <;> rfl
@[simp] theorem pushUndo_pc (cls : BitVec 3) (i : BitVec 12) (v : BitVec 256) (s : State) : (pushUndo cls i v s).c.pc = s.c.pc := by
  unfold pushUndo; split <;> rfl
@[simp] theorem pushUndo_view (cls : BitVec 3) (i : BitVec 12) (v : BitVec 256) (s : State) : (pushUndo cls i v s).c.view = s.c.view := by
  unfold pushUndo; split <;> rfl
@[simp] theorem pushUndo_held (cls : BitVec 3) (i : BitVec 12) (v : BitVec 256) (s : State) : (pushUndo cls i v s).c.held = s.c.held := by
  unfold pushUndo; split <;> rfl
@[simp] theorem pushUndo_resume (cls : BitVec 3) (i : BitVec 12) (v : BitVec 256) (s : State) : (pushUndo cls i v s).c.resume = s.c.resume := by
  unfold pushUndo; split <;> rfl
@[simp] theorem pushUndo_tripAt (cls : BitVec 3) (i : BitVec 12) (v : BitVec 256) (s : State) : (pushUndo cls i v s).c.tripAt = s.c.tripAt := by
  unfold pushUndo; split <;> rfl
@[simp] theorem pushUndo_inflight (cls : BitVec 3) (i : BitVec 12) (v : BitVec 256) (s : State) : (pushUndo cls i v s).c.inflight = s.c.inflight := by
  unfold pushUndo; split <;> rfl
@[simp] theorem pushUndo_now (cls : BitVec 3) (i : BitVec 12) (v : BitVec 256) (s : State) : (pushUndo cls i v s).c.now = s.c.now := by
  unfold pushUndo; split <;> rfl
@[simp] theorem pushUndo_bundles (cls : BitVec 3) (i : BitVec 12) (v : BitVec 256) (s : State) : (pushUndo cls i v s).c.bundles = s.c.bundles := by
  unfold pushUndo; split <;> rfl
@[simp] theorem pushUndo_sinceSafe (cls : BitVec 3) (i : BitVec 12) (v : BitVec 256) (s : State) : (pushUndo cls i v s).c.sinceSafe = s.c.sinceSafe := by
  unfold pushUndo; split <;> rfl
@[simp] theorem pushUndo_loops (cls : BitVec 3) (i : BitVec 12) (v : BitVec 256) (s : State) : (pushUndo cls i v s).c.loops = s.c.loops := by
  unfold pushUndo; split <;> rfl
@[simp] theorem pushUndo_drain (cls : BitVec 3) (i : BitVec 12) (v : BitVec 256) (s : State) : (pushUndo cls i v s).c.drain = s.c.drain := by
  unfold pushUndo; split <;> rfl
@[simp] theorem pushUndo_trap (cls : BitVec 3) (i : BitVec 12) (v : BitVec 256) (s : State) : (pushUndo cls i v s).c.trap = s.c.trap := by
  unfold pushUndo; split <;> rfl
@[simp] theorem pushUndo_srec (cls : BitVec 3) (i : BitVec 12) (v : BitVec 256) (s : State) : (pushUndo cls i v s).c.srec = s.c.srec := by
  unfold pushUndo; split <;> rfl
@[simp] theorem pushUndo_wm (cls : BitVec 3) (i : BitVec 12) (v : BitVec 256) (s : State) : (pushUndo cls i v s).c.wm = s.c.wm := by
  unfold pushUndo; split <;> rfl
@[simp] theorem pushUndo_sat (cls : BitVec 3) (i : BitVec 12) (v : BitVec 256) (s : State) : (pushUndo cls i v s).c.sat = s.c.sat := by
  unfold pushUndo; split <;> rfl
@[simp] theorem pushUndo_arr (cls : BitVec 3) (i : BitVec 12) (v : BitVec 256) (s : State) : (pushUndo cls i v s).c.arr = s.c.arr := by
  unfold pushUndo; split <;> rfl
@[simp] theorem pushUndo_m (cls : BitVec 3) (i : BitVec 12) (v : BitVec 256) (s : State) : (pushUndo cls i v s).c.m = s.c.m := by
  unfold pushUndo; split <;> rfl
@[simp] theorem pushUndo_mxq (cls : BitVec 3) (i : BitVec 12) (v : BitVec 256) (s : State) : (pushUndo cls i v s).c.mxq = s.c.mxq := by
  unfold pushUndo; split <;> rfl
@[simp] theorem pushUndo_cpq (cls : BitVec 3) (i : BitVec 12) (v : BitVec 256) (s : State) : (pushUndo cls i v s).c.cpq = s.c.cpq := by
  unfold pushUndo; split <;> rfl
@[simp] theorem pushUndo_spq (cls : BitVec 3) (i : BitVec 12) (v : BitVec 256) (s : State) : (pushUndo cls i v s).c.spq = s.c.spq := by
  unfold pushUndo; split <;> rfl
@[simp] theorem pushUndo_syq (cls : BitVec 3) (i : BitVec 12) (v : BitVec 256) (s : State) : (pushUndo cls i v s).c.syq = s.c.syq := by
  unfold pushUndo; split <;> rfl
@[simp] theorem pushUndo_failing (cls : BitVec 3) (i : BitVec 12) (v : BitVec 256) (s : State) : (pushUndo cls i v s).c.failing = s.c.failing := by
  unfold pushUndo; split <;> rfl
@[simp] theorem pushUndo_cmdNo (cls : BitVec 3) (i : BitVec 12) (v : BitVec 256) (s : State) : (pushUndo cls i v s).c.cmdNo = s.c.cmdNo := by
  unfold pushUndo; split <;> rfl
@[simp] theorem pushUndo_writers (cls : BitVec 3) (i : BitVec 12) (v : BitVec 256) (s : State) : (pushUndo cls i v s).c.writers = s.c.writers := by
  unfold pushUndo; split <;> rfl
@[simp] theorem pushUndo_cpFlags (cls : BitVec 3) (i : BitVec 12) (v : BitVec 256) (s : State) : (pushUndo cls i v s).c.cpFlags = s.c.cpFlags := by
  unfold pushUndo; split <;> rfl
@[simp] theorem pushUndo_counts (cls : BitVec 3) (i : BitVec 12) (v : BitVec 256) (s : State) : (pushUndo cls i v s).c.counts = s.c.counts := by
  unfold pushUndo; split <;> rfl
@[simp] theorem pushUndo_z (cls : BitVec 3) (i : BitVec 12) (v : BitVec 256) (s : State) : (pushUndo cls i v s).c.z = s.c.z := by
  unfold pushUndo; split <;> rfl
@[simp] theorem pushUndo_poste (cls : BitVec 3) (i : BitVec 12) (v : BitVec 256) (s : State) : (pushUndo cls i v s).c.poste = s.c.poste := by
  unfold pushUndo; split <;> rfl
@[simp] theorem pushUndo_lanes (cls : BitVec 3) (i : BitVec 12) (v : BitVec 256) (s : State) : (pushUndo cls i v s).c.lanes = s.c.lanes := by
  unfold pushUndo; split <;> rfl
@[simp] theorem pushUndo_ranked (cls : BitVec 3) (i : BitVec 12) (v : BitVec 256) (s : State) : (pushUndo cls i v s).c.ranked = s.c.ranked := by
  unfold pushUndo; split <;> rfl
@[simp] theorem pushUndo_cmps (cls : BitVec 3) (i : BitVec 12) (v : BitVec 256) (s : State) : (pushUndo cls i v s).c.cmps = s.c.cmps := by
  unfold pushUndo; split <;> rfl
@[simp] theorem pushUndo_spec (cls : BitVec 3) (i : BitVec 12) (v : BitVec 256) (s : State) : (pushUndo cls i v s).c.spec = s.c.spec := by
  unfold pushUndo; split <;> rfl
@[simp] theorem pushUndo_txn (cls : BitVec 3) (i : BitVec 12) (v : BitVec 256) (s : State) : (pushUndo cls i v s).c.txn = s.c.txn := by
  unfold pushUndo; split <;> rfl
@[simp] theorem pushUndo_bars (cls : BitVec 3) (i : BitVec 12) (v : BitVec 256) (s : State) : (pushUndo cls i v s).c.bars = s.c.bars := by
  unfold pushUndo; split <;> rfl
@[simp] theorem pushUndo_barRec (cls : BitVec 3) (i : BitVec 12) (v : BitVec 256) (s : State) : (pushUndo cls i v s).c.barRec = s.c.barRec := by
  unfold pushUndo; split <;> rfl
@[simp] theorem pushUndo_mismatch (cls : BitVec 3) (i : BitVec 12) (v : BitVec 256) (s : State) : (pushUndo cls i v s).c.mismatch = s.c.mismatch := by
  unfold pushUndo; split <;> rfl
@[simp] theorem pushUndo_upsets (cls : BitVec 3) (i : BitVec 12) (v : BitVec 256) (s : State) : (pushUndo cls i v s).c.upsets = s.c.upsets := by
  unfold pushUndo; split <;> rfl
@[simp] theorem pushUndo_haltAsked (cls : BitVec 3) (i : BitVec 12) (v : BitVec 256) (s : State) : (pushUndo cls i v s).c.haltAsked = s.c.haltAsked := by
  unfold pushUndo; split <;> rfl
@[simp] theorem pushUndo_xendRec (cls : BitVec 3) (i : BitVec 12) (v : BitVec 256) (s : State) : (pushUndo cls i v s).c.xendRec = s.c.xendRec := by
  unfold pushUndo; split <;> rfl
@[simp] theorem pushUndo_far (cls : BitVec 3) (i : BitVec 12) (v : BitVec 256) (s : State) : (pushUndo cls i v s).c.far = s.c.far := by
  unfold pushUndo; split <;> rfl
@[simp] theorem pushUndo_phaseAt (cls : BitVec 3) (i : BitVec 12) (v : BitVec 256) (s : State) : (pushUndo cls i v s).c.phaseAt = s.c.phaseAt := by
  unfold pushUndo; split <;> rfl
@[simp] theorem pushUndo_colls (cls : BitVec 3) (i : BitVec 12) (v : BitVec 256) (s : State) : (pushUndo cls i v s).c.colls = s.c.colls := by
  unfold pushUndo; split <;> rfl
@[simp] theorem pushUndo_info (cls : BitVec 3) (i : BitVec 12) (v : BitVec 256) (s : State) : (pushUndo cls i v s).c.info = s.c.info := by
  unfold pushUndo; split <;> rfl
@[simp] theorem pushUndo_fused (cls : BitVec 3) (i : BitVec 12) (v : BitVec 256) (s : State) : (pushUndo cls i v s).c.fused = s.c.fused := by
  unfold pushUndo; split <;> rfl
@[simp] theorem pushUndo_emu (cls : BitVec 3) (i : BitVec 12) (v : BitVec 256) (s : State) : (pushUndo cls i v s).c.emu = s.c.emu := by
  unfold pushUndo; split <;> rfl
@[simp] theorem pushUndo_ended (cls : BitVec 3) (i : BitVec 12) (v : BitVec 256) (s : State) : (pushUndo cls i v s).c.ended = s.c.ended := by
  unfold pushUndo; split <;> rfl
@[simp] theorem pushUndo_halted (cls : BitVec 3) (i : BitVec 12) (v : BitVec 256) (s : State) : (pushUndo cls i v s).c.halted = s.c.halted := by
  unfold pushUndo; split <;> rfl
@[simp] theorem pushUndo_stepOnce (cls : BitVec 3) (i : BitVec 12) (v : BitVec 256) (s : State) : (pushUndo cls i v s).c.stepOnce = s.c.stepOnce := by
  unfold pushUndo; split <;> rfl
@[simp] theorem pushUndo_bkptTag (cls : BitVec 3) (i : BitVec 12) (v : BitVec 256) (s : State) : (pushUndo cls i v s).c.bkptTag = s.c.bkptTag := by
  unfold pushUndo; split <;> rfl
@[simp] theorem pushUndo_bkptSkip (cls : BitVec 3) (i : BitVec 12) (v : BitVec 256) (s : State) : (pushUndo cls i v s).c.bkptSkip = s.c.bkptSkip := by
  unfold pushUndo; split <;> rfl
@[simp] theorem pushUndo_preempt (cls : BitVec 3) (i : BitVec 12) (v : BitVec 256) (s : State) : (pushUndo cls i v s).c.preempt = s.c.preempt := by
  unfold pushUndo; split <;> rfl
@[simp] theorem pushUndo_fresh (cls : BitVec 3) (i : BitVec 12) (v : BitVec 256) (s : State) : (pushUndo cls i v s).c.fresh = s.c.fresh := by
  unfold pushUndo; split <;> rfl
@[simp] theorem pushUndo_state_inputs (cls : BitVec 3) (i : BitVec 12) (v : BitVec 256) (s : State) : (pushUndo cls i v s).inputs = s.inputs := by
  unfold pushUndo; split <;> rfl
@[simp] theorem pushUndo_state_world (cls : BitVec 3) (i : BitVec 12) (v : BitVec 256) (s : State) : (pushUndo cls i v s).world = s.world := by
  unfold pushUndo; split <;> rfl
@[simp] theorem pushUndo_state_cleaned (cls : BitVec 3) (i : BitVec 12) (v : BitVec 256) (s : State) : (pushUndo cls i v s).cleaned = s.cleaned := by
  unfold pushUndo; split <;> rfl
@[simp] theorem pushUndo_state_keyed (cls : BitVec 3) (i : BitVec 12) (v : BitVec 256) (s : State) : (pushUndo cls i v s).keyed = s.keyed := by
  unfold pushUndo; split <;> rfl
@[simp] theorem pushUndo_state_mem (cls : BitVec 3) (i : BitVec 12) (v : BitVec 256) (s : State) : (pushUndo cls i v s).mem = s.mem := by
  unfold pushUndo; split <;> rfl
@[simp] theorem pushUndo_state_outer (cls : BitVec 3) (i : BitVec 12) (v : BitVec 256) (s : State) : (pushUndo cls i v s).outer = s.outer := by
  unfold pushUndo; split <;> rfl
@[simp] theorem pushUndo_state_poison (cls : BitVec 3) (i : BitVec 12) (v : BitVec 256) (s : State) : (pushUndo cls i v s).poison = s.poison := by
  unfold pushUndo; split <;> rfl
@[simp] theorem pushUndo_state_mon (cls : BitVec 3) (i : BitVec 12) (v : BitVec 256) (s : State) : (pushUndo cls i v s).mon = s.mon := by
  unfold pushUndo; split <;> rfl
@[simp] theorem pushUndo_state_fe (cls : BitVec 3) (i : BitVec 12) (v : BitVec 256) (s : State) : (pushUndo cls i v s).fe = s.fe := by
  unfold pushUndo; split <;> rfl
@[simp] theorem pushUndo_state_links (cls : BitVec 3) (i : BitVec 12) (v : BitVec 256) (s : State) : (pushUndo cls i v s).links = s.links := by
  unfold pushUndo; split <;> rfl
@[simp] theorem pushUndo_state_health (cls : BitVec 3) (i : BitVec 12) (v : BitVec 256) (s : State) : (pushUndo cls i v s).health = s.health := by
  unfold pushUndo; split <;> rfl
@[simp] theorem pushUndo_state_bind (cls : BitVec 3) (i : BitVec 12) (v : BitVec 256) (s : State) : (pushUndo cls i v s).bind = s.bind := by
  unfold pushUndo; split <;> rfl
@[simp] theorem pushUndo_state_me (cls : BitVec 3) (i : BitVec 12) (v : BitVec 256) (s : State) : (pushUndo cls i v s).me = s.me := by
  unfold pushUndo; split <;> rfl

@[simp] theorem writeS_inputs (k : Slot) (r : BitVec 6) (v : Word) (n : Nat) (s : State) : (writeS k r v n s).inputs = s.inputs := by
  unfold writeS; split <;> try (split <;> simp)
  rfl
@[simp] theorem writeS_world (k : Slot) (r : BitVec 6) (v : Word) (n : Nat) (s : State) : (writeS k r v n s).world = s.world := by
  unfold writeS; split <;> try (split <;> simp)
  rfl
@[simp] theorem writeS_cleaned (k : Slot) (r : BitVec 6) (v : Word) (n : Nat) (s : State) : (writeS k r v n s).cleaned = s.cleaned := by
  unfold writeS; split <;> try (split <;> simp)
  rfl
@[simp] theorem writeS_keyed (k : Slot) (r : BitVec 6) (v : Word) (n : Nat) (s : State) : (writeS k r v n s).keyed = s.keyed := by
  unfold writeS; split <;> try (split <;> simp)
  rfl
@[simp] theorem writeS_mem (k : Slot) (r : BitVec 6) (v : Word) (n : Nat) (s : State) : (writeS k r v n s).mem = s.mem := by
  unfold writeS; split <;> try (split <;> simp)
  rfl
@[simp] theorem writeS_outer (k : Slot) (r : BitVec 6) (v : Word) (n : Nat) (s : State) : (writeS k r v n s).outer = s.outer := by
  unfold writeS; split <;> try (split <;> simp)
  rfl
@[simp] theorem writeS_poison (k : Slot) (r : BitVec 6) (v : Word) (n : Nat) (s : State) : (writeS k r v n s).poison = s.poison := by
  unfold writeS; split <;> try (split <;> simp)
  rfl
@[simp] theorem writeS_mon (k : Slot) (r : BitVec 6) (v : Word) (n : Nat) (s : State) : (writeS k r v n s).mon = s.mon := by
  unfold writeS; split <;> try (split <;> simp)
  rfl
@[simp] theorem writeS_fe (k : Slot) (r : BitVec 6) (v : Word) (n : Nat) (s : State) : (writeS k r v n s).fe = s.fe := by
  unfold writeS; split <;> try (split <;> simp)
  rfl
@[simp] theorem writeS_links (k : Slot) (r : BitVec 6) (v : Word) (n : Nat) (s : State) : (writeS k r v n s).links = s.links := by
  unfold writeS; split <;> try (split <;> simp)
  rfl
@[simp] theorem writeS_health (k : Slot) (r : BitVec 6) (v : Word) (n : Nat) (s : State) : (writeS k r v n s).health = s.health := by
  unfold writeS; split <;> try (split <;> simp)
  rfl
@[simp] theorem writeS_bind (k : Slot) (r : BitVec 6) (v : Word) (n : Nat) (s : State) : (writeS k r v n s).bind = s.bind := by
  unfold writeS; split <;> try (split <;> simp)
  rfl
@[simp] theorem writeS_me (k : Slot) (r : BitVec 6) (v : Word) (n : Nat) (s : State) : (writeS k r v n s).me = s.me := by
  unfold writeS; split <;> try (split <;> simp)
  rfl

end Sys2Proof.Machine
end

