-- ==== Sys2Proof/Laws/Memory.lean ====
section
/-! SUPPORT. Sorted maps and memory: a read after a write, the frame of a write, and that every operation over memory keeps the canonical form. -/

namespace Sys2Proof

theorem SMap.risesFrom_mono {α : Type} {m : SMap α} {a b : Nat} (h : a ≤ b) (r : SMap.risesFrom b m = true) :
    SMap.risesFrom a m = true := by
  cases m with
  | nil => rfl
  | cons x m => simp only [SMap.risesFrom, Bool.and_eq_true, decide_eq_true_eq] at r ⊢; exact ⟨by omega, r.2⟩

theorem SMap.risesFrom_put {α : Type} {m : SMap α} {lo a : Nat} {x : α} (r : SMap.risesFrom lo m = true) (h : lo ≤ a) :
    SMap.risesFrom lo (SMap.put m a x) = true := by
  induction m generalizing lo with
  | nil => simp [SMap.put, SMap.risesFrom, h]
  | cons p m ih =>
    obtain ⟨k, v⟩ := p
    simp only [SMap.risesFrom, Bool.and_eq_true, decide_eq_true_eq] at r
    simp only [SMap.put]
    split
    · simp only [SMap.risesFrom, Bool.and_eq_true, decide_eq_true_eq]
      exact ⟨h, by omega, r.2⟩
    · split
      · subst a; simp only [SMap.risesFrom, Bool.and_eq_true, decide_eq_true_eq]; exact r
      · simp only [SMap.risesFrom, Bool.and_eq_true, decide_eq_true_eq]
        exact ⟨r.1, ih r.2 (by omega)⟩

theorem SMap.risesFrom_del {α : Type} {m : SMap α} {lo a : Nat} (r : SMap.risesFrom lo m = true) :
    SMap.risesFrom lo (SMap.del m a) = true := by
  induction m generalizing lo with
  | nil => rfl
  | cons p m ih =>
    obtain ⟨k, v⟩ := p
    simp only [SMap.risesFrom, Bool.and_eq_true, decide_eq_true_eq] at r
    simp only [SMap.del]
    split
    · exact SMap.risesFrom_mono (by omega) r.2
    · simp only [SMap.risesFrom, Bool.and_eq_true, decide_eq_true_eq]; exact ⟨r.1, ih r.2⟩

theorem SMap.risesFrom_filter {α : Type} {m : SMap α} {lo : Nat} (f : Nat × α → Bool) (r : SMap.risesFrom lo m = true) :
    SMap.risesFrom lo (m.filter f) = true := by
  induction m generalizing lo with
  | nil => rfl
  | cons p m ih =>
    obtain ⟨k, v⟩ := p
    simp only [SMap.risesFrom, Bool.and_eq_true, decide_eq_true_eq] at r
    simp only [List.filter_cons]
    split
    · simp only [SMap.risesFrom, Bool.and_eq_true, decide_eq_true_eq]; exact ⟨r.1, ih r.2⟩
    · exact SMap.risesFrom_mono (by omega) (ih r.2)

theorem SMap.get?_none_below {α : Type} {m : SMap α} {lo a : Nat} (r : SMap.risesFrom lo m = true) (h : a < lo) :
    SMap.get? m a = none := by
  induction m generalizing lo with
  | nil => rfl
  | cons p m ih =>
    obtain ⟨k, v⟩ := p
    simp only [SMap.risesFrom, Bool.and_eq_true, decide_eq_true_eq] at r
    simp only [SMap.get?]
    rw [if_neg (by omega)]; exact ih r.2 (by omega)

theorem SMap.get?_put {α : Type} (m : SMap α) (a b : Nat) (x : α) :
    SMap.get? (SMap.put m a x) b = if b = a then some x else SMap.get? m b := by
  induction m with
  | nil => simp [SMap.put, SMap.get?, eq_comm]
  | cons p m ih =>
    obtain ⟨k, v⟩ := p
    simp only [SMap.put]
    split
    · simp only [SMap.get?, eq_comm]
    · split
      · subst a; simp only [SMap.get?, eq_comm]; split <;> rfl
      · simp only [SMap.get?, ih]; split <;> split <;> simp_all

theorem SMap.get?_del {α : Type} {m : SMap α} {lo : Nat} (r : SMap.risesFrom lo m = true) (a b : Nat) :
    SMap.get? (SMap.del m a) b = if b = a then none else SMap.get? m b := by
  induction m generalizing lo with
  | nil => simp [SMap.del, SMap.get?]
  | cons p m ih =>
    obtain ⟨k, v⟩ := p
    simp only [SMap.risesFrom, Bool.and_eq_true, decide_eq_true_eq] at r
    simp only [SMap.del]
    split
    · subst k; simp only [SMap.get?]
      split
      · subst b; exact SMap.get?_none_below r.2 (by omega)
      · rw [if_neg (by omega)]
    · simp only [SMap.get?, ih r.2]; split <;> split <;> simp_all

namespace Machine

theorem all_put {m : List Host.Cell} {a : Nat} {b : Byte} (h : m.all (fun c => c.2 != 0) = true) (hb : b ≠ 0) :
    (SMap.put m a b).all (fun c => c.2 != 0) = true := by
  have hb' : (b != 0) = true := bne_iff_ne.mpr hb
  induction m with
  | nil => simp only [SMap.put, List.all_cons, List.all_nil, hb', Bool.and_true]
  | cons p m ih =>
    obtain ⟨k, v⟩ := p
    have h' := h
    simp only [List.all_cons, Bool.and_eq_true] at h
    simp only [SMap.put]
    split
    · rw [List.all_cons, Bool.and_eq_true]; exact ⟨hb', h'⟩
    · split
      · rw [List.all_cons, Bool.and_eq_true]; exact ⟨hb', h.2⟩
      · rw [List.all_cons, Bool.and_eq_true]; exact ⟨h.1, ih h.2⟩

theorem all_del {m : List Host.Cell} {a : Nat} (h : m.all (fun c => c.2 != 0) = true) :
    (SMap.del m a).all (fun c => c.2 != 0) = true := by
  induction m with
  | nil => rfl
  | cons p m ih =>
    obtain ⟨k, v⟩ := p
    simp only [List.all_cons, Bool.and_eq_true] at h
    simp only [SMap.del]
    split
    · exact h.2
    · simp only [List.all_cons, Bool.and_eq_true]; exact ⟨h.1, ih h.2⟩

theorem wf_memSet {m : List Host.Cell} (h : Memory.wf m = true) (a : Nat) (b : Byte) : Memory.wf (memSet m a b) = true := by
  simp only [Memory.wf, Bool.and_eq_true] at h ⊢
  unfold memSet
  split
  · exact ⟨SMap.risesFrom_del h.1, all_del h.2⟩
  · exact ⟨SMap.risesFrom_put h.1 (Nat.zero_le _), all_put h.2 ‹_›⟩

theorem wf_memSetAll {m : List Host.Cell} (l : List Host.Cell) (h : Memory.wf m = true) : Memory.wf (memSetAll l m) = true := by
  unfold memSetAll
  induction l generalizing m with
  | nil => exact h
  | cons c l ih => exact ih (wf_memSet h _ _)

/-- A read after a write of one byte, and every other byte as before. -/
theorem memGet_memSet {m : List Host.Cell} (h : Memory.wf m = true) (a b : Nat) (x : Byte) :
    memGet (memSet m a x) b = if b = a then x else memGet m b := by
  simp only [Memory.wf, Bool.and_eq_true] at h
  unfold memGet memSet
  split
  · rw [SMap.get?_del h.1]; split <;> simp_all
  · rw [SMap.get?_put]; split <;> rfl

/-- A byte that no cell of the list names reads as before. -/
theorem memGet_memSetAll_other {m : List Host.Cell} (l : List Host.Cell) (h : Memory.wf m = true) (b : Nat)
    (hb : ∀ c ∈ l, c.1 ≠ b) : memGet (memSetAll l m) b = memGet m b := by
  unfold memSetAll
  induction l generalizing m with
  | nil => rfl
  | cons c l ih =>
    simp only [List.foldl_cons]
    rw [ih (wf_memSet h _ _) (fun x hx => hb x (List.mem_cons_of_mem _ hx)), memGet_memSet h,
      if_neg (Ne.symm (hb c (List.mem_cons_self ..)))]

theorem rises_puts (l : List Host.Cell) {m : List Host.Cell} (h : SMap.risesFrom 0 m = true) :
    SMap.risesFrom 0 (l.foldl (fun m c => SMap.put m c.1 c.2) m) = true := by
  induction l generalizing m with
  | nil => exact h
  | cons c l ih => exact ih (SMap.risesFrom_put h (Nat.zero_le _))

theorem keyed_put {m : SMap Nat} {b k : Nat} (h : keyedWf m = true) (hk : k ≠ 0) : keyedWf (SMap.put m b k) = true := by
  simp only [keyedWf, Bool.and_eq_true] at h ⊢
  refine ⟨SMap.risesFrom_put h.1 (Nat.zero_le _), ?_⟩
  have hk' : (k != 0) = true := bne_iff_ne.mpr hk
  have := h.2
  clear h
  induction m with
  | nil => simp only [SMap.put, List.all_cons, List.all_nil, hk', Bool.and_true]
  | cons p m ih =>
    obtain ⟨a, v⟩ := p
    have h' := this
    simp only [List.all_cons, Bool.and_eq_true] at this
    simp only [SMap.put]
    split
    · rw [List.all_cons, Bool.and_eq_true]; exact ⟨hk', h'⟩
    · split
      · rw [List.all_cons, Bool.and_eq_true]; exact ⟨hk', this.2⟩
      · rw [List.all_cons, Bool.and_eq_true]; exact ⟨this.1, ih this.2⟩

theorem keyed_del {m : SMap Nat} {b : Nat} (h : keyedWf m = true) : keyedWf (SMap.del m b) = true := by
  simp only [keyedWf, Bool.and_eq_true] at h ⊢
  refine ⟨SMap.risesFrom_del h.1, ?_⟩
  have := h.2
  clear h
  induction m with
  | nil => rfl
  | cons p m ih =>
    obtain ⟨a, v⟩ := p
    simp only [List.all_cons, Bool.and_eq_true] at this
    simp only [SMap.del]
    split
    · exact this.2
    · simp only [List.all_cons, Bool.and_eq_true]; exact ⟨this.1, ih this.2⟩

theorem keyed_filter {m : SMap Nat} (f : Nat × Nat → Bool) (h : keyedWf m = true) : keyedWf (m.filter f) = true := by
  simp only [keyedWf, Bool.and_eq_true] at h ⊢
  refine ⟨SMap.risesFrom_filter f h.1, ?_⟩
  rw [List.all_eq_true]
  exact fun x hx => (List.all_eq_true.mp h.2) x (List.mem_filter.mp hx).1

/-- Rekeying keeps both canonical forms. -/
theorem rekeyAll_wf (l : List Host.Cell) {m : KeyedMem} (h : Memory.wf m.1 = true ∧ keyedWf m.2 = true) :
    Memory.wf (rekeyAll l m).1 = true ∧ keyedWf (rekeyAll l m).2 = true := by
  unfold rekeyAll
  induction l generalizing m with
  | nil => exact h
  | cons c l ih =>
    simp only [List.foldl_cons]
    refine ih ?_
    split
    · exact h
    · refine ⟨wf_memSetAll _ (wf_memSetAll _ h.1), ?_⟩
      simp only [rekeyBlock]
      split
      · exact keyed_del h.2
      · exact keyed_put h.2 ‹_›

/-- Cells that reach their blocks under the keys that stand rewrite nothing else. -/
theorem rekeyAll_same (l : List Host.Cell) {m : KeyedMem} (h : ∀ c ∈ l, sameKey m.2 c.1 = true) : rekeyAll l m = m := by
  unfold rekeyAll
  induction l with
  | nil => rfl
  | cons c l ih =>
    simp only [List.foldl_cons, h c (List.mem_cons_self ..), if_true]
    exact ih fun x hx => h x (List.mem_cons_of_mem _ hx)

/-- A write under the keys that stand: memory takes the cells, and no key changes. -/
theorem write_same {l : List Host.Cell} {s : State} (h : sameKeys s l) :
    (s.write l).mem = memSetAll l s.mem ∧ (s.write l).keyed = s.keyed := by
  have := rekeyAll_same l (m := (s.mem, s.keyed)) h
  exact ⟨by simp [this], by unfold State.write; simp [this]⟩

/-- States with the same memory, waiting writes, tags and saved tasks agree on MemOk. -/
theorem MemOk_congr {s t : State} (hm : t.mem = s.mem) (ho : t.outer = s.outer) (hk : t.keyed = s.keyed)
    (hf : t.fe.saved = s.fe.saved) (h : s.MemOk) : t.MemOk := by
  unfold State.MemOk at *; rw [hm, ho, hk, hf]; exact h

/-- Rekeying at home touches the waiting writes alone, and keeps their order. -/
theorem rekeyHome_rises (l : List Host.Cell) {s : State} (h : SMap.risesFrom 0 s.outer = true) :
    SMap.risesFrom 0 (rekeyHome l s).outer = true := by
  unfold rekeyHome
  induction l generalizing s with
  | nil => exact h
  | cons c l ih =>
    simp only [List.foldl_cons]
    refine ih ?_
    split
    · exact h
    · exact rises_puts _ (SMap.risesFrom_filter _ h)

/-- Cells that reach their blocks under the keys that stand at home rewrite nothing there. -/
theorem rekeyHome_same (l : List Host.Cell) {s : State} (h : ∀ c ∈ l, sameHome s c.1 = true) : rekeyHome l s = s := by
  unfold rekeyHome
  induction l with
  | nil => rfl
  | cons c l ih =>
    simp only [List.foldl_cons, h c (List.mem_cons_self ..), if_true]
    exact ih fun x hx => h x (List.mem_cons_of_mem _ hx)

/-- With no write waiting, none waits after a write either. -/
theorem write_outer_nil (l : List Host.Cell) {s : State} (h : s.outer = []) : (s.write l).outer = [] := by
  have : l.filter (waitsOver s) = [] := by simp [waitsOver, h]
  simp [State.write, this, rekeyHome, h]

theorem MemOk_write (l : List Host.Cell) {s : State} (h : s.MemOk) : (s.write l).MemOk :=
  have k := rekeyAll_wf l (m := (s.mem, s.keyed)) ⟨h.1, h.2.2.1⟩
  ⟨wf_memSetAll l k.1, SMap.risesFrom_filter _ (rekeyHome_rises _ h.2.1), k.2, h.2.2.2⟩

theorem MemOk_writeOuter (l : List Host.Cell) {s : State} (h : s.MemOk) : (s.writeOuter l).MemOk := by
  unfold State.writeOuter
  split
  · exact ⟨h.1, rises_puts l (rekeyHome_rises l h.2.1), h.2.2⟩
  · exact MemOk_write l h

theorem MemOk_takeSnapshot {s : State} (h : s.MemOk) : (takeSnapshot s).MemOk :=
  have k := rekeyAll_wf s.outer (m := (s.mem, s.keyed)) ⟨h.1, h.2.2.1⟩
  ⟨wf_memSetAll _ k.1, rfl, k.2, h.2.2.2⟩

theorem MemOk_scrubPhys (lo hi : Nat) {s : State} (h : s.MemOk) : (scrubPhys lo hi s).MemOk := by
  refine ⟨?_, SMap.risesFrom_filter _ h.2.1, keyed_filter _ h.2.2.1, h.2.2.2⟩
  have hw := h.1
  simp only [Memory.wf, Bool.and_eq_true] at hw ⊢
  refine ⟨SMap.risesFrom_filter _ hw.1, ?_⟩
  rw [List.all_eq_true]
  exact fun x hx => (List.all_eq_true.mp hw.2) x (List.mem_filter.mp hx).1

theorem MemOk_landTables (root : Nat) {s : State} (h : s.MemOk) : (landTables root s).MemOk :=
  ⟨wf_memSetAll _ h.1, SMap.risesFrom_filter _ h.2.1, h.2.2⟩

theorem MemOk_onC {s : State} (f : Core → Core) (h : s.MemOk) : (s.onC f).MemOk := h

end Machine

end Sys2Proof
end

