-- ==== Sys2Proof/Laws/Discipline.lean ====
section
/-! SUPPORT. The one discipline under which every slot word executes: what it answers when its guard is false, when it waits, when its body completes, and when its body faults. -/

namespace Sys2Proof.Machine

/-- A word that nothing holds back passes the gate. -/
theorem gate_of_ready {k : Slot} {g : Guard} {i : Instr} {s : State} (h : ready k g i s = true) : gate i s = .ok () := by
  simp only [ready, Bool.and_eq_true, Bool.not_eq_true', List.all_eq_true, Option.isNone_iff_eq_none] at h
  obtain ⟨⟨⟨⟨⟨⟨⟨hheld, hg⟩, hh⟩, hsrc⟩, hdst⟩, hspec⟩, hown⟩, hlane⟩ := h
  have hreads : (if isCompare i then [] else (srcs i).filterMap (rankedOn s.c)) = [] := by
    split
    · rfl
    · refine List.filterMap_eq_nil_iff.mpr fun n hn => ?_
      have := (hsrc n hn).2
      simp_all
  have hgate : rankedGate i s.c = .ok () := by
    unfold rankedGate
    cases hd : dstOf i with
    | none => simp [hreads]
    | some d =>
      rw [hd] at hdst
      simp only [Option.all_some, Bool.and_eq_true, Option.isNone_iff_eq_none] at hdst
      simp [hreads, hdst.2]
  have hany : (srcs i).any (mustWait s.c) = false := by
    rw [List.any_eq_false]; intro n hn; simpa using (hsrc n hn).1
  unfold gate
  rw [hheld, hgate]
  simp only [Option.isSome_none, Bool.false_eq_true, if_false, hspec, hown, hany]
  cases hd : dstOf i with
  | none => rfl
  | some d =>
    rw [hd] at hdst
    simp only [Option.all_some, Bool.and_eq_true, Bool.not_eq_true', Option.isNone_iff_eq_none] at hdst
    simp [hdst.1]

/-- What runSlot answers for a word that nothing holds back: its body's state, or the way its body ends; a word of a lane whose
operand's tile is empty enters the lane instead (R24). -/
theorem runSlot_of_ready {k : Slot} {g : Guard} {i : Instr} {s : State} (body : Body) (h : ready k g i s = true) :
    runSlot k g i body s = match body s with
      | .ok t => t
      | .error .slip => (match laneIdx k with | some n => enterLane n i s | none => endSlot k i .slip s)
      | .error x => endSlot k i x s := by
  have hgate := gate_of_ready h
  simp only [ready, Bool.and_eq_true, Bool.not_eq_true'] at h
  obtain ⟨⟨⟨⟨⟨⟨⟨hheld, hg⟩, hh⟩, hsrc⟩, hdst⟩, hspec⟩, hown⟩, hlane⟩ := h
  unfold runSlot
  rw [hg, hh, hgate]
  simp only [Bool.and_false, Bool.false_eq_true, if_false, Bool.not_true]
  cases hn : laneIdx k with
  | none => cases body s with
    | ok t => rfl
    | error x => cases x <;> rfl
  | some n =>
    rw [hn] at hlane
    simp only [Bool.and_eq_true, Bool.not_eq_true'] at hlane
    unfold runLane
    simp only [hlane.1, hlane.2, Bool.not_true, Bool.and_false, Bool.false_and, Bool.false_eq_true, if_false]
    cases body s with
    | ok t => rfl
    | error x => cases x <;> rfl

/-- A word whose body completes answers the body's state. -/
theorem slotOut_next {k : Slot} {g : Guard} {i : Instr} {s t : State} {body : Body} (h : ready k g i s = true)
    (hb : body s = .ok t) : slotOut k g i s body = .next t := by
  unfold slotOut; rw [runSlot_of_ready body h, hb]

/-- A word whose body ends otherwise, in no empty tile, answers what endSlot makes of that. -/
theorem slotOut_error {k : Slot} {g : Guard} {i : Instr} {s : State} {body : Body} {x : Exn} (h : ready k g i s = true)
    (hb : body s = .error x) (hx : x ≠ .slip) : slotOut k g i s body = .next (endSlot k i x s) := by
  unfold slotOut; rw [runSlot_of_ready body h, hb]
  cases x <;> first | rfl | exact absurd rfl hx

/-- A word whose guard is false does nothing (R16). -/
theorem slotOut_suppressed {k : Slot} {g : Guard} {i : Instr} {s : State} {body : Body}
    (hw : mustWait s.c (guardName g) = false) (h : guardHolds k g s = false) : slotOut k g i s body = .next s := by
  unfold slotOut runSlot; rw [hw, h]; simp

end Sys2Proof.Machine
end

