-- ==== Sys2Proof/Tests/Slice0.lean ====
section
/-! SUPPORT. Tests on small states: words of the spec decode, ill-formed terms are refused, values of single steps, and a witness for the hypotheses of every statement. -/

open Sys2Proof Sys2Proof.Machine

namespace Sys2Proof.Tests

set_option Elab.async false

/-- Device memory: one range that may be fetched, one that may be read and written, each at its own physical address. -/
def tContext : Context :=
  { recd := ⟨1, 7, 0x600000, 0x10000, 0x60000, 0x30000, 0x100000, 0x50000, 0x0400000000000000, 2, [], false⟩
    ranges := [(0, ⟨0, 0x10000, 0, true, true, false, true, false, false, 0, false⟩),
      (1, ⟨0x10000, 0x200000, 0, true, true, true, false, false, false, 0, false⟩)]
    saves := [], aps := Vector.replicate 8 0, events := [], masked := 0, images := [], pops := [], hranges := [], job := none
    grant := none, bkpts := false, plans := [] }

/-- The least address of the scratchpad window (R193), and its place in memory. -/
def tPool : Nat := 0xFFF * 2 ^ 40

/-- The bytes of a descriptor entry (Table 10-2) with one stride. -/
def tDesc (base0 base1 : Nat) (dims : List Nat) (str fmt cbi layout scale : Nat) : List Byte :=
  natLe 8 base0 ++ natLe 8 base1 ++ ((List.range 4).flatMap fun i => natLe 4 (dims.getD i 0)) ++ natLe 4 str ++ natLe 8 0
    ++ natLe 1 fmt ++ natLe 1 cbi ++ natLe 1 (layout + 4 * dims.length) ++ natLe 1 0
    ++ natLe 2 (if scale = 0 then 0 else 0x8000 + scale) ++ natLe 14 0

/-- The descriptors 0 to 19 that the tests use, each with its base, dimensions, stride, format, codebook, layout and scale. -/
def tDescs : List (List Byte) :=
  [tDesc 0 0 [1] 0 0 0 0 0,
   tDesc (tPool + 0x0000) 0 [2, 2] 8 0 0 0 0,
   tDesc (tPool + 0x0100) 0 [2, 2] 8 0 0 0 0,
   tDesc (tPool + 0x0200) 0 [8] 0 12 0 0 0,
   tDesc (tPool + 0x0300) 0 [2] 0 8 0 0 0,
   tDesc (tPool + 0x0400) 0 [2, 2] 4 3 0 0 6,
   tDesc (tPool + 0x0500) 0 [2, 1] 4 1 0 0 0,
   tDesc (tPool + 0x0600) (tPool + 0x0700) [2, 2] 8 0 0 0 0,
   tDesc (tPool + 0x0800) 0 [2, 2] 4 16 1 0 0,
   tDesc (tPool + 0x0900) 0 [2, 2] 0 0 0 2 0,
   tDesc (tPool + 0x0A00) 0 [832] 0 12 0 0 0,
   tDesc (tPool + 0x1000) 0 [1, 128] 512 0 0 0 0,
   tDesc (tPool + 0x1200) 0 [1, 128] 512 0 0 0 0,
   tDesc (tPool + 0x1400) 0 [2] 0 11 0 0 0,
   tDesc (tPool + 0x1500) 0 [2, 2] 4 3 0 0 15,
   tDesc (tPool + 0x1600) 0 [1, 2] 4 1 0 0 0,
   tDesc (tPool + 0x1700) 0 [2, 1] 4 0 0 0 0,
   tDesc (tPool + 0x1800) 0 [2, 2] 4 8 0 0 0,
   tDesc (tPool + 0x1900) 0 [8] 0 12 0 0 0,
   tDesc (tPool + 0x10000) 0 [1, 16385] 0x10100 12 0 0 0]

/-- Bytes as memory lists them: no zero byte has an entry. -/
def tCells (a : Nat) (bs : List Byte) : List Host.Cell := (cellsAt a bs).filter fun c => c.2 != 0

/-- FP32 words 1.0, 2.0, 3.0 and 4.0. -/
def tOnes : List Byte := natLe 4 0x3F800000 ++ natLe 4 0x40000000 ++ natLe 4 0x40400000 ++ natLe 4 0x40800000

/-- Memory of the tests: the descriptor table, a codebook, and the contents of the tensors, by rising address; h10's are given. -/
def tMemOf (image : List Byte) : List Host.Cell :=
  tCells 0x10000 tDescs.flatten ++ tCells 0x30200 (natLe 2 0x3F80 ++ natLe 2 0x4000 ++ natLe 2 0x4040 ++ natLe 2 0x4080)
    ++ tCells (poolHome 0) tOnes ++ tCells (poolHome 0x200) [3] ++ tCells (poolHome 0x300) [1, 0]
    ++ tCells (poolHome 0x400) ([0x38, 0x40] ++ natLe 2 0 ++ [0x38, 0x38])
    ++ tCells (poolHome 0x500) (natLe 4 0x3F80 ++ natLe 4 0x3F80) ++ tCells (poolHome 0x800) [4] ++ tCells (poolHome 0xA00) image
    ++ tCells (poolHome 0x1000) tOnes ++ tCells (poolHome 0x1800) [1, 0, 0, 0, 1, 1]

def tMem : List Host.Cell := tMemOf []

/-- The word of a whole-tensor handle of one of the descriptors (Table 10-3). -/
def tHandle (id : Nat) (dims : List Nat) (view res : Nat) : BitVec 256 :=
  BitVec.ofNat 256 (res * 2 ^ 192 + dims.length * 2 ^ 20 + view * 2 ^ 14 + id
    + ((dims.zipIdx.map fun x => x.1 * 2 ^ (96 + 16 * x.2)).sum))

/-- The handle registers: h1 to h19 name the descriptors of the same number, h20 descriptor 19 but for its last element. -/
def tH : List (BitVec 256) :=
  [0, tHandle 1 [2, 2] 0 0, tHandle 2 [2, 2] 0 0, tHandle 3 [8] 0 0, tHandle 4 [2] 0 0, tHandle 5 [2, 2] 0 0,
   tHandle 6 [2, 1] 0 0, tHandle 7 [2, 2] 1 0, tHandle 8 [2, 2] 0 0, tHandle 9 [2, 2] 0 64, tHandle 10 [832] 0 0,
   tHandle 11 [1, 128] 0 0, tHandle 12 [1, 128] 0 0, tHandle 13 [2] 0 0, tHandle 14 [2, 2] 0 0, tHandle 15 [1, 2] 0 0,
   tHandle 16 [2, 1] 0 0, tHandle 17 [2, 2] 0 0, tHandle 18 [8] 0 0, tHandle 19 [1, 16385] 0 0, tHandle 19 [1, 16384] 0 0, 0, 0, 0, 0, 0, 0, 0, 0, 0, 0, 0]

/-- The scalar registers: s1 = 7, s2 = -3, s3 an address of the scratchpad, s4 FP32 1.0, s5 an address of device memory. -/
def tS : List Word :=
  [0, 7, BitVec.ofInt 64 (-3), BitVec.ofNat 64 (tPool + 0x2000), 0x3F800000, 0x70000] ++ List.replicate 58 0

/-- The place of the task of the tests: two levels, alone in its launch. -/
def tInfo : TaskInfo :=
  { TaskInfo.none with
    running := true, ctx := 1, nlev := 2, ranks := [0, 0], extents := [1, 1], mscopes := [0, 0], part := 0x304, seq := 1 }

/-- A task of context 1 that stands at bundle 0x1000, with nothing in flight. -/
def tRun : State :=
  { State.reset with
    mem := tMem
    mon := { State.reset.mon with ctxs := [(1, tContext)], keyOwner := [(1, 7)] }
    c := { Core.start with
      pc := 0x1000, info := tInfo
      r := { Regs.start with s := ⟨tS.toArray, by decide⟩, h := ⟨tH.toArray, by decide⟩ } } }

/-- Does every word of the list decode in the slot to its instruction, and encode back? -/
def decodesTo (k : Slot) (l : List (BitVec 32 × Instr)) : Bool :=
  l.all fun x => (match decodeWord k x.1 with | .ok i => i == x.2 | .error _ => false) && encode x.2 == x.1 && x.2.wf && x.2.slot == some k

/-! Every slot word of the opcode table, written from the positions of its fields in the spec's formats (Tables 5-2 to 5-10):
opcode in [26:20], a guard, and a value of its own in each operand field. -/

theorem test_control_words_decode_1 : decodesTo .br
    [(0x60030000, .nop ⟨6, 0⟩ 3), (0x781009A2, .b ⟨7, 1⟩ 2466), (0x80261400, .jmp ⟨8, 0⟩ 6 5), (0x9830055A, .call ⟨9, 1⟩ 1370),
      (0xA04E9400, .ret ⟨10, 0⟩ 14 37), (0xB859466C, .loop ⟨11, 1⟩ 37 1644), (0xC051ABC6, .loopRot ⟨12, 0⟩ 6 3014),
      (0xD852D336, .loopPre ⟨13, 1⟩ 11 822), (0xE050F9A2, .loopRotPre ⟨14, 0⟩ 3 2466), (0xF8690000, .lbrk ⟨15, 1⟩ 9),
      (0x10760000, .pmark ⟨1, 0⟩ 6), (0x2885E000, .pset ⟨2, 1⟩ 5 14), (0x309E5000, .pclr ⟨3, 0⟩ 14 5),
      (0x48A56B30, .pand ⟨4, 1⟩ 5 6 11 3), (0x50B6B390, .por ⟨5, 0⟩ 6 11 3 9), (0x68CB3960, .pxor ⟨6, 1⟩ 11 3 9 6),
      (0x70D39600, .pnot ⟨7, 0⟩ 3 9 6), (0x88E90000, .endTask ⟨8, 1⟩ 9), (0x90F60005, .trap ⟨9, 0⟩ 6 5),
      (0xA9050000, .rett ⟨10, 1⟩ 5), (0xB11E279A, .spec ⟨11, 0⟩ 14 10138), (0xC9250000, .specx ⟨12, 1⟩ 5),
      (0xD1360000, .dcpl ⟨13, 0⟩ 6), (0xE94B0000, .rjn ⟨14, 1⟩ 11)] = true := by decide +kernel

theorem test_control_words_decode_2 : decodesTo .br
    [(0xF1532410, .sread ⟨15, 0⟩ 3 9 16), (0x19595855, .sreadWm ⟨1, 1⟩ 9 22 5), (0x21561436, .sreadSrec ⟨2, 0⟩ 6 5 6),
      (0x39553869, .sreadSat ⟨3, 1⟩ 5 14 1), (0x416E9410, .swrite ⟨4, 0⟩ 14 37 16), (0x59651800, .swriteTstat ⟨5, 1⟩ 5 6),
      (0x61662C01, .swriteTpc ⟨6, 0⟩ 6 11), (0x796B0C03, .swriteIsav ⟨7, 1⟩ 11 3), (0x81632436, .swriteSrec ⟨8, 0⟩ 3 9 6),
      (0x99695855, .swriteWm ⟨9, 1⟩ 9 22 5), (0xA1661458, .swriteMtol ⟨10, 0⟩ 6 5), (0xB965385A, .swriteLstat ⟨11, 1⟩ 5 14),
      (0xC16E9469, .swriteSat ⟨12, 0⟩ 14 37 1), (0xD975066C, .bkpt ⟨13, 1⟩ 5 1644)] = true := by decide +kernel

theorem test_scalar_words_decode_1 : decodesTo .sc
    [(0x60000000, .nopSlot .sc ⟨6, 0⟩), (0x78125614, .add ⟨7, 1⟩ 9 22 5), (0x80258538, .sub ⟨8, 0⟩ 22 5 14),
      (0x98314E94, .mul ⟨9, 1⟩ 5 14 37), (0xA043A518, .mulh ⟨10, 0⟩ 14 37 6), (0xB859462C, .mulhz ⟨11, 1⟩ 37 6 11),
      (0xC0618B0C, .div ⟨12, 0⟩ 6 11 3), (0xD872C324, .divz ⟨13, 1⟩ 11 3 9), (0xE080C958, .rem ⟨14, 0⟩ 3 9 22),
      (0xF8925614, .remz ⟨15, 1⟩ 9 22 5), (0x10A58538, .and ⟨1, 0⟩ 22 5 14), (0x28B14E94, .or ⟨2, 1⟩ 5 14 37),
      (0x30C3A518, .xor ⟨3, 0⟩ 14 37 6), (0x48D9462C, .andn ⟨4, 1⟩ 37 6 11), (0x50E18B0C, .shl ⟨5, 0⟩ 6 11 3),
      (0x68F2C324, .shr ⟨6, 1⟩ 11 3 9), (0x7100C958, .sar ⟨7, 0⟩ 3 9 22), (0x89125614, .rol ⟨8, 1⟩ 9 22 5),
      (0x91258538, .min ⟨9, 0⟩ 22 5 14), (0xA9314E94, .max ⟨10, 1⟩ 5 14 37), (0xB143A518, .minz ⟨11, 0⟩ 14 37 6),
      (0xC959462C, .maxz ⟨12, 1⟩ 37 6 11), (0xD1618B00, .clz ⟨13, 0⟩ 6 11), (0xE972C300, .ctz ⟨14, 1⟩ 11 3)] = true := by decide +kernel

theorem test_scalar_words_decode_2 : decodesTo .sc
    [(0xF180C900, .popc ⟨15, 0⟩ 3 9), (0x1999B15C, .sel ⟨1, 1⟩ 9 22 5 14), (0x21A5850E, .addi ⟨2, 0⟩ 22 5 14),
      (0x39B14E25, .andi ⟨3, 1⟩ 5 14 37), (0x41C3A506, .ori ⟨4, 0⟩ 14 37 6), (0x59D9460B, .xori ⟨5, 1⟩ 37 6 11),
      (0x61E18B03, .shli ⟨6, 0⟩ 6 11 3), (0x79F2C309, .shri ⟨7, 1⟩ 11 3 9), (0x8200C916, .sari ⟨8, 0⟩ 3 9 22),
      (0x9A12578C, .li ⟨9, 1⟩ 9 6028), (0xA225855A, .lih ⟨10, 0⟩ 22 1370), (0xBA356946, .cmp ⟨11, 1⟩ 5 6 37 6),
      (0xC24EA30B, .cmpi ⟨12, 0⟩ 14 5 6 11), (0xDA5946C3, .ldB ⟨13, 1⟩ 37 6 3 3), (0xE2618BC9, .ldBz ⟨14, 0⟩ 6 11 3 9),
      (0xFA72C356, .ldH ⟨15, 1⟩ 11 3 1 22), (0x1280C985, .ldHz ⟨1, 0⟩ 3 9 2 5), (0x2A92564E, .ldW ⟨2, 1⟩ 9 22 1 14),
      (0x32A585A5, .ldWz ⟨3, 0⟩ 22 5 2 37), (0x4AB14E46, .ldD ⟨4, 1⟩ 5 14 1 6), (0x52C3A58B, .stB ⟨5, 0⟩ 14 37 2 11),
      (0x6AD946C3, .stH ⟨6, 1⟩ 37 6 3 3), (0x72E18BC9, .stW ⟨7, 0⟩ 6 11 3 9), (0x8AF2C356, .stD ⟨8, 1⟩ 11 3 1 22)] = true := by decide +kernel

theorem test_scalar_words_decode_3 : decodesTo .sc
    [(0x93019305, .ldh ⟨9, 0⟩ 3 9 2 5), (0xAB14AC8E, .sth ⟨10, 1⟩ 9 22 1 14), (0xB32B0A00, .hmk ⟨11, 0⟩ 22 5),
      (0xCB329CA0, .hset ⟨12, 1⟩ 5 14 5), (0xD3474AC0, .hget ⟨13, 0⟩ 14 37 6), (0xEB571600, .stg ⟨14, 1⟩ 1 6 11),
      (0xF3618B0C, .rng ⟨15, 0⟩ 6 11 3), (0x1B72C35D, .cvt ⟨1, 1⟩ 11 3 11 2 1), (0x2380C958, .faddS ⟨2, 0⟩ 3 9 22),
      (0x3B925614, .fmulS ⟨3, 1⟩ 9 22 5), (0x43A58538, .ffmaS ⟨4, 0⟩ 22 5 14), (0x5BB56946, .fcmp ⟨5, 1⟩ 5 6 37 6),
      (0x63C3A51B, .amoAdd ⟨6, 0⟩ 14 37 6 3), (0x7BD9462F, .amoAnd ⟨7, 1⟩ 37 6 11 3), (0x83E18B0D, .amoOr ⟨8, 0⟩ 6 11 3 1),
      (0x9BF2C326, .amoXor ⟨9, 1⟩ 11 3 9 2), (0xA400C959, .amoMax ⟨10, 0⟩ 3 9 22 1), (0xBC125616, .amoMin ⟨11, 1⟩ 9 22 5 2),
      (0xC4258539, .amoXchg ⟨12, 0⟩ 22 5 14 1), (0xDC314E96, .amoCas ⟨13, 1⟩ 5 14 37 2), (0xE443A51B, .amob ⟨14, 0⟩ 14 37 6 3),
      (0xFC59462F, .amoAddR ⟨15, 1⟩ 37 6 11 3), (0x14618B0D, .amoAndR ⟨1, 0⟩ 6 11 3 1), (0x2C72C326, .amoOrR ⟨2, 1⟩ 11 3 9 2)] = true := by decide +kernel

theorem test_scalar_words_decode_4 : decodesTo .sc
    [(0x3480C959, .amoXorR ⟨3, 0⟩ 3 9 22 1), (0x4C925616, .amoMaxR ⟨4, 1⟩ 9 22 5 2), (0x54A58539, .amoMinR ⟨5, 0⟩ 22 5 14 1),
      (0x6CB14E96, .amoXchgR ⟨6, 1⟩ 5 14 37 2), (0x74C3A51B, .amoCasR ⟨7, 0⟩ 14 37 6 3), (0x8CD9462F, .amobR ⟨8, 1⟩ 37 6 11 3)] = true := by decide +kernel

theorem test_array_words_decode : decodesTo .ar
    [(0x60000000, .nopSlot .ar ⟨6, 0⟩), (0x7814ACE0, .apush ⟨7, 1⟩ 9 22 1 6), (0x80200006, .ashf ⟨8, 0⟩ 6),
      (0x98329CE0, .aacc ⟨9, 1⟩ 5 14 1 6), (0xA0474A60, .adrn ⟨10, 0⟩ 14 37 6), (0xB8528D80, .alds ⟨11, 1⟩ 5 6 3),
      (0xC0680000, .aswp ⟨12, 0⟩ 2), (0xD87C0000, .asel ⟨13, 1⟩ 3), (0xE0864800, .acfg ⟨14, 0⟩ 3 9),
      (0xF882078C, .acfgImm ⟨15, 1⟩ 1 908), (0x109C0000, .azr ⟨1, 0⟩ 6), (0x28A5AC00, .afac ⟨2, 1⟩ 5 2 5 1),
      (0x30BD2800, .awm ⟨3, 0⟩ 6 37)] = true := by decide +kernel

theorem test_vector_words_decode_1 : decodesTo .ve
    [(0x60000000, .nopSlot .ve ⟨6, 0⟩), (0x7814D8A0, .vadd ⟨7, 1⟩ 9 22 5), (0x802B15C0, .vsub ⟨8, 0⟩ 22 5 14),
      (0x9832B8A0, .vmul ⟨9, 1⟩ 5 14 5), (0xA04714CB, .vfma ⟨10, 0⟩ 14 5 6 11), (0xB8529963, .vfms ⟨11, 1⟩ 5 6 11 3),
      (0xC0632C60, .vmax ⟨12, 0⟩ 6 11 3), (0xD8758D20, .vmin ⟨13, 1⟩ 11 3 9), (0xE081A400, .vabs ⟨14, 0⟩ 3 9),
      (0xF894D800, .vneg ⟨15, 1⟩ 9 22), (0x10AB15C5, .vclamp ⟨1, 0⟩ 22 5 14 5), (0x28B2B800, .vexp ⟨2, 1⟩ 5 14),
      (0x30C71400, .vexp2 ⟨3, 0⟩ 14 5), (0x48D29800, .vlog2 ⟨4, 1⟩ 5 6), (0x50E32C00, .vrcp ⟨5, 0⟩ 6 11),
      (0x68F58C00, .vrsq ⟨6, 1⟩ 11 3), (0x7101A400, .vsqrt ⟨7, 0⟩ 3 9), (0x8914D800, .vtanh ⟨8, 1⟩ 9 22),
      (0x912B1400, .vsigm ⟨9, 0⟩ 22 5), (0xA932B8A6, .vcmp ⟨10, 1⟩ 5 14 5 6), (0xB14714CB, .vsel ⟨11, 0⟩ 14 5 6 11),
      (0xC9529960, .vand ⟨12, 1⟩ 5 6 11), (0xD1632C60, .vor ⟨13, 0⟩ 6 11 3), (0xE9758D20, .vxor ⟨14, 1⟩ 11 3 9)] = true := by decide +kernel

theorem test_vector_words_decode_2 : decodesTo .ve
    [(0xF181A6C0, .vshl ⟨15, 0⟩ 3 9 22), (0x1994D8A0, .vshr ⟨1, 1⟩ 9 22 5), (0x21AB1410, .vcvt ⟨2, 0⟩ 22 5 2),
      (0x39B2B808, .vqnt ⟨3, 1⟩ 5 14 1), (0x41C71400, .vdqnt ⟨4, 0⟩ 14 5), (0x59D29800, .vcbk ⟨5, 1⟩ 5 6),
      (0x61E32C00, .vsum ⟨6, 0⟩ 6 11), (0x79F58C00, .vmaxr ⟨7, 1⟩ 11 3), (0x8201A400, .vminr ⟨8, 0⟩ 3 9),
      (0x9A14D800, .vscan ⟨9, 1⟩ 9 22), (0xA22B15C0, .vperm ⟨10, 0⟩ 22 5 14), (0xBA329C00, .vbcast ⟨11, 1⟩ 5 14),
      (0xC2474A00, .viota ⟨12, 0⟩ 14 37), (0xDA529800, .vpopc ⟨13, 1⟩ 5 6), (0xE2632C60, .vcmpr ⟨14, 0⟩ 6 11 3),
      (0xFA758D20, .vexpd ⟨15, 1⟩ 11 3 9), (0x1281A400, .vmov ⟨1, 0⟩ 3 9), (0x2A94AC28, .vrng ⟨2, 1⟩ 9 22 5)] = true := by decide +kernel

theorem test_matrix_words_decode : decodesTo .mx
    [(0x60000000, .nopSlot .mx ⟨6, 0⟩), (0x7819B000, .mld ⟨7, 1⟩ 9 22), (0x80262800, .mst ⟨8, 0⟩ 6 5), (0x98350000, .mzr ⟨9, 1⟩ 5),
      (0xA04E5000, .mcpy ⟨10, 0⟩ 14 5), (0xB8556B00, .mmul ⟨11, 1⟩ 5 6 11), (0xC066B300, .madd ⟨12, 0⟩ 6 11 3),
      (0xD87B0C00, .mscl ⟨13, 1⟩ 11 3), (0xE0839000, .mrcmp ⟨14, 0⟩ 3 9), (0xF8996000, .mdns ⟨15, 1⟩ 9 6),
      (0x10A651C0, .mfac ⟨1, 0⟩ 6 5 14), (0x28B5E000, .mtrn ⟨2, 1⟩ 5 14), (0x30CE9400, .mrnk ⟨3, 0⟩ 14 37),
      (0x48D51800, .mocc ⟨4, 1⟩ 5 6), (0x50E32CC0, .mapl ⟨5, 0⟩ 6 11 3)] = true := by decide +kernel

theorem test_copy_words_decode : decodesTo .cp
    [(0x60000000, .nopSlot .cp ⟨6, 0⟩), (0x7819B140, .cpy ⟨7, 1⟩ 9 22 5), (0x80262B80, .cpt ⟨8, 0⟩ 6 5 14),
      (0x983D7160, .cpq ⟨9, 1⟩ 13 14 5 2), (0xA04E29B0, .cpqs ⟨10, 0⟩ 14 5 6 3), (0xB85532C0, .cpz ⟨11, 1⟩ 5 6 11),
      (0xC06658C0, .cpx ⟨12, 0⟩ 6 11 3), (0xD87B1A40, .cpk ⟨13, 1⟩ 11 3 9), (0xE0833600, .cpbs ⟨14, 0⟩ 3 1 22),
      (0xF8990000, .cpw ⟨15, 1⟩ 9), (0x10A60000, .cpab ⟨1, 0⟩ 6), (0x28B57000, .cpf ⟨2, 1⟩ 5 14), (0x30CE2980, .cpr ⟨3, 0⟩ 14 5 6)] = true := by decide +kernel

theorem test_sparse_words_decode : decodesTo .sp
    [(0x60000000, .nopSlot .sp ⟨6, 0⟩), (0x7814D8A0, .gth ⟨7, 1⟩ 9 22 5), (0x802B15C0, .sct ⟨8, 0⟩ 22 5 14),
      (0x9832B8A0, .scta ⟨9, 1⟩ 5 14 5), (0xA04714C0, .flt ⟨10, 0⟩ 14 5 6), (0xB8529960, .bmk ⟨11, 1⟩ 5 6 11),
      (0xC0619600, .cnt ⟨12, 0⟩ 6 11), (0xD8702C60, .dfr ⟨13, 1⟩ 11 3), (0xE081A400, .dfd ⟨14, 0⟩ 3 9)] = true := by decide +kernel

theorem test_sync_words_decode_1 : decodesTo .sy
    [(0x60000000, .nopSlot .sy ⟨6, 0⟩), (0x78120000, .phase ⟨7, 1⟩ 1), (0x80258000, .bara ⟨8, 0⟩ 22), (0x98314000, .barw ⟨9, 1⟩ 5),
      (0xA0438000, .bar ⟨10, 0⟩ 14), (0xB8528000, .pub ⟨11, 1⟩ 5), (0xC06C0000, .fence ⟨12, 0⟩ 6), (0xD8700000, .xbeg ⟨13, 1⟩),
      (0xE0800000, .xend ⟨14, 0⟩), (0xF8900000, .xabt ⟨15, 1⟩), (0x10A01600, .collAr ⟨1, 0⟩ 22), (0x28A10500, .collRs ⟨2, 1⟩ 5),
      (0x30A20E00, .collAg ⟨3, 0⟩ 14), (0x48A32500, .collA2a ⟨4, 1⟩ 37), (0x50A40600, .collBc ⟨5, 0⟩ 6),
      (0x68B00B00, .cwt ⟨6, 1⟩ 11), (0x70CCD800, .plan ⟨7, 0⟩ 822), (0x88D68800, .pexec ⟨8, 1⟩ 418), (0x90EE3000, .pwait ⟨9, 0⟩ 908),
      (0xA8F56800, .hint ⟨10, 1⟩ 346), (0xB10BF000, .pin ⟨11, 0⟩ 764), (0xC91E6800, .unpin ⟨12, 1⟩ 922),
      (0xD121AF18, .statr ⟨13, 0⟩ 6 3014), (0xE9302F18, .statw ⟨14, 1⟩ 3014)] = true := by decide +kernel

theorem test_sync_words_decode_2 : decodesTo .sy
    [(0xF1403000, .evs ⟨15, 0⟩ 3), (0x19509000, .evw ⟨1, 1⟩ 9), (0x21600000, .yld ⟨2, 0⟩)] = true := by decide +kernel

/-! Ill-formed terms, one or more for each check of WellFormed (R16, R63, R65, R69, R70, R111), and what the decoder says of their
words (Table 5-12). -/

theorem test_guard_zero_negated_is_ill_formed : (Instr.add ⟨0, 1⟩ 1 2 3).wf = false := by decide
theorem test_nop_of_br_is_no_slot_nop : (Instr.nopSlot .br ⟨0, 0⟩).wf = false := by decide
theorem test_sread_of_own_row_is_ill_formed : (Instr.sread ⟨0, 0⟩ 0 1 0x30).wf = false := by decide
theorem test_sread_unassigned_is_ill_formed : (Instr.sread ⟨0, 0⟩ 0 1 0x05).wf = false := by decide
theorem test_swrite_of_own_row_is_ill_formed : (Instr.swrite ⟨0, 0⟩ 0 1 0x58).wf = false := by decide
theorem test_swrite_unassigned_is_ill_formed : (Instr.swrite ⟨0, 0⟩ 0 1 0x3FF).wf = false := by decide
theorem test_cmp_code_ten_is_ill_formed : (Instr.cmp ⟨0, 0⟩ 1 10 2 3).wf = false := by decide
theorem test_fcmp_code_eight_is_ill_formed : (Instr.fcmp ⟨0, 0⟩ 1 8 2 3).wf = false := by decide
theorem test_vcmp_code_ten_is_ill_formed : (Instr.vcmp ⟨0, 0⟩ 1 2 3 10).wf = false := by decide
theorem test_cvt_codebook_format_is_ill_formed : (Instr.cvt ⟨0, 0⟩ 1 2 16 0 0).wf = false := by decide
theorem test_mfac_cap_above_64_is_ill_formed : (Instr.mfac ⟨0, 0⟩ 1 2 65).wf = false := by decide
theorem test_cpq_channel_14_is_ill_formed : (Instr.cpq ⟨0, 0⟩ 14 1 2 0).wf = false := by decide
theorem test_cpqs_channel_13_is_ill_formed : (Instr.cpqs ⟨0, 0⟩ 13 1 2 0).wf = false := by decide

/-- Does every word of the list fail to decode in its slot, and for this reason? -/
def refusesAll (l : List (Slot × BitVec 32 × DecodeError)) : Bool :=
  l.all fun x => match decodeWord x.1 x.2.1 with | .ok _ => false | .error e => e == x.2.2

/-- Guard 0 with N = 1, unassigned opcodes and codes (step 4), res0 bits (step 5), a format (step 6) and operand values (step
7) of Table 5-12, each by a word of its own. -/
theorem test_refused_words : refusesAll
    [(.sc, 0x08104308, .undefined), (.br, 0x02000000, .undefined), (.mx, 0x00F00000, .undefined), (.br, 0x01500405, .undefined),
      (.sc, 0x0231A083, .undefined), (.br, 0x00600001, .reserved), (.sc, 0x03540C01, .reserved), (.sp, 0x00000001, .reserved),
      (.ve, 0x00000001, .reserved), (.sc, 0x03704280, .format), (.mx, 0x00A12820, .operand), (.cp, 0x003E4080, .operand),
      (.cp, 0x004D4880, .operand)] = true := by decide +kernel

/-- The words that chapters 7 to 9 write beside their instructions. -/
theorem test_example_words : decodesTo .ar
    [(0x0080045B, .acfgImm ⟨0, 0⟩ 0 0x05B), (0x00510000, .alds ⟨0, 0⟩ 2 0 0), (0x00600000, .aswp ⟨0, 0⟩ 0),
      (0x00108000, .apush ⟨0, 0⟩ 1 0 0 0), (0x0020000E, .ashf ⟨0, 0⟩ 14), (0x00418000, .adrn ⟨0, 0⟩ 3 0 0)]
  && decodesTo .mx [(0x00330000, .mzr ⟨0, 0⟩ 3), (0x00443000, .mcpy ⟨0, 0⟩ 4 3), (0x00B43000, .mtrn ⟨0, 0⟩ 4 3),
    (0x00731C00, .mscl ⟨0, 0⟩ 3 7), (0x00963000, .mdns ⟨0, 0⟩ 6 3), (0x00C31400, .mrnk ⟨0, 0⟩ 3 5), (0x00D31800, .mocc ⟨0, 0⟩ 3 6),
    (0x00631200, .madd ⟨0, 0⟩ 3 1 2), (0x00551200, .mmul ⟨0, 0⟩ 5 1 2), (0x00833000, .mrcmp ⟨0, 0⟩ 3 3)]
  && decodesTo .cp [(0x001220C0, .cpy ⟨0, 0⟩ 2 4 3), (0x00213140, .cpt ⟨0, 0⟩ 1 6 5), (0x00304080, .cpq ⟨0, 0⟩ 0 8 2 0),
    (0x004E4880, .cpqs ⟨0, 0⟩ 14 9 2 0), (0x00535080, .cpz ⟨0, 0⟩ 3 10 2), (0x00635A80, .cpx ⟨0, 0⟩ 3 11 10),
    (0x00862200, .cpbs ⟨0, 0⟩ 6 1 2), (0x00920000, .cpw ⟨0, 0⟩ 2), (0x00A20000, .cpab ⟨0, 0⟩ 2), (0x00B72000, .cpf ⟨0, 0⟩ 7 4),
    (0x00C82000, .cpr ⟨0, 0⟩ 8 4 0)]
  && decodesTo .sp [(0x001214C0, .gth ⟨0, 0⟩ 4 5 6), (0x0060CA00, .cnt ⟨0, 0⟩ 3 5), (0x007014C0, .dfr ⟨0, 0⟩ 5 6),
    (0x00821400, .dfd ⟨0, 0⟩ 4 5)]
  && decodesTo .sc [(0x02410CFF, .cmpi ⟨0, 0⟩ 1 0 25 0x7F), (0x0175CF00, .ctz ⟨0, 0⟩ 23 15), (0x02366651, .cmp ⟨0, 0⟩ 6 6 25 17),
    (0x01D616FF, .xori ⟨0, 0⟩ 24 22 0xFF), (0x03664160, .rng ⟨0, 0⟩ 25 1 24)] = true := by decide +kernel

/-- A table word runs as the first instruction after reset. -/
theorem test_table_word_of_jmp : decodeTableWord 32 0x00200400 = some (.jmp ⟨0, 0⟩ 0 1) := by decide +kernel
theorem test_table_word_runs : (match step (State.reset.withFetchWord 32 0x00E00000) with
    | .next t => t.c.ended | _ => false) = true := by decide +kernel

/-! Results that the spec's chapters work out. -/

/-- A task whose next bundle holds these words. -/
def tBundle (ws : List (BitVec 32)) : State :=
  { tRun with mem := tCells 0x1000 (ws.flatMap fun w => natLe 4 w.toNat) ++ tMem }

/-- A test on the next state of one step. -/
def afterStep (s : State) (f : State → Bool) : Bool := match step s with | .next t => f t | _ => false

/-- The bundle of Table 5-14. -/
def tWorked : State := tBundle [0x00D02100, 0x03540C00, 0, 0, 0x00123000, 0x281520C0, 0, 0]

/-- Its task, with a handler, in a context whose mask hides feature 64. -/
def tMasked : State :=
  { tWorked with
    mon := { tWorked.mon with ctxs := [(1, { tContext with recd := { tContext.recd with fmask := 0x0400010000000000 } })] }
    c := { tWorked.c with trap := { tWorked.c.trap with entry := some 0x2000 } } }

/-- "Worked encoding": the masked opcode at slot 4 raises cause 0x10 before any slot commits. -/
theorem test_masked_opcode : afterStep tMasked (fun t => t.c.trap.tstat == 0x10 && t.c.trap.tval == 0x0000000400123000
    && t.c.trap.tpc == 0x1000 && t.c.pc == 0x2000 && t.c.r.rdP 2 == false && t.c.r.rdStg 8 == 0
    && (t.ctx?.map fun c => c.masked) == some 1) = true := by decide +kernel

/-- The bundle of Table 3-6 with a region that is full: m8 to m15 dense, h6 an image of rank 1. -/
def tSplit : State :=
  { tMasked with
    mem := tMem.filter (fun c => decide (c.1 < poolHome 0x0A00)) ++ tCells (poolHome 0x0A00) [0, 1]
      ++ tMem.filter (fun c => decide (poolHome 0x0A40 ≤ c.1))
    mon := tRun.mon
    c := { tMasked.c with
      r := { tMasked.c.r with
        s := tMasked.c.r.s.set 6 3
        h := tMasked.c.r.h.set 6 (tHandle 10 [832] 0 0)
        stg := tMasked.c.r.stg.set 8 1 }
      m := Vector.ofFn fun i => if i.val < 8 then MReg.zero else ⟨true, [], [], [], [], false⟩ } }

theorem test_region_full : (match exec (.mld ⟨0, 0⟩ 2 6) (tSplit.onC fun c => { c with
      bun := { freshBundle c with undo := [⟨2, 40, 1⟩] } }) with
    | .next t => t.c.trap.tstat == 0x21040461 && t.c.trap.tpc == 0x1000 && t.c.trap.isav == 0x1020 && t.c.trap.undo == [⟨2, 40, 1⟩]
        && t.c.r.rdStg 8 == 1
    | _ => false) = true := by decide +kernel

/-- R111's example: 472.0 and 464.0 to E4M3. -/
theorem test_cvt_saturates : rndNum 4 [] 0 (fp32 0x43EC0000) = (0x7E, flagOV ||| flagSAT ||| flagNX) := by decide +kernel
theorem test_cvt_ties_to_even : rndNum 4 [] 0 (fp32 0x43E80000) = (0x7E, flagNX) := by decide +kernel

/-- "Worked contraction": 1.5 * 3 * 0.5 * 2 - 1 in run 0, with a NaN weight against a zero; then run 1. -/
theorem test_worked_contraction :
    let e4 (n : Nat) : Machine.Num := decodeNum 4 [] n
    let bf (n : Nat) : Machine.Num := decodeNum 1 [] n
    let r0 := [prod4 (e4 0x3C) (e4 0x44) (bf 0x3F00) (bf 0x4000), prod4 (e4 0xC0) (e4 0x30) (bf 0x3F00) (bf 0x4000),
      prod4 (e4 0) (e4 0x7F) (bf 0x3F00) (bf 0x4000)]
    let r1 := [prod4 (e4 0x28) (e4 0xBA) (bf 0x3F80) (bf 0x3DCD)]
    faRun 84 r0 none 0 = 448 ∧ faRun 84 r1 none (faRun 84 r0 none 0) = 0x1BC
      ∧ faDrain 84 0x1BC 1 = (0x405E, 0) ∧ faMerge 448 (faRun 84 r1 none 0) = 0x1BC
      ∧ (faDrain 84 (faRun 84 [prod4 (e4 0x38) (e4 0x7F) Machine.Num.one Machine.Num.one] none 448) 1).1 = 0x7FC0 := by decide +kernel

/-- A tile of Table 8-6: a column that is 0.5 in elements 0 to 3, times x. -/
def tRank1 (x : BitVec 32) : MReg :=
  let u := List.replicate 4 0x3F00 ++ List.replicate 124 0
  ⟨false, [x], [u], [u], [], false⟩

/-- Table 8-6: adding, and recompressing to rank 1 with s = 5.0. -/
theorem test_rank_one_updates :
    maddOf (tRank1 0x40000000) (tRank1 0x40400000) = (⟨false, [0x40000000, 0x40400000], (tRank1 0).u ++ (tRank1 0).u,
      (tRank1 0).v ++ (tRank1 0).v, [], false⟩, 0) := by decide +kernel
theorem test_rank_one_recompression :
    mrcmpOf Machine.Num.zero (maddOf (tRank1 0x40000000) (tRank1 0x40400000)).1 = (tRank1 0x40A00000, 0) := by decide +kernel
theorem test_rank_one_element :
    rndNum 1 [] 0 ((tRank1 0x40A00000).elem 3 3) = (0x3FA0, 0) ∧ ((tRank1 0x40A00000).elem 3 4).isZero = true := by decide +kernel

/-- Table 19-2: two draws of the generator. -/
theorem test_generator : rngF 0 0 = 0x4D09A03030B76C1A ∧ rngF 0 1 = 0xF0FBD122E9939414 := by decide +kernel

/-- The digits 1 to 9 of the worked copy, and the word s2 that its scalar bundles leave. -/
theorem test_crc_of_digits : crc32c ((List.range 9).map fun i => BitVec.ofNat 8 (0x31 + i)) = 0xE3069283 := by decide +kernel

/-- The collective of chapter 17: 1.0 + 2^-24 + 2^-24 is summed exactly and rounded once, 4 * 0.5 is 2.0. -/
theorem test_collective_sum :
    let sum (l : List Nat) : Nat × Flags := faDrain 0 (l.foldl (fun e c => faAdd 0 e (decodeNum 0 [] c)) 0) 0
    sum [0x3F800000, 0x33800000, 0x33800000, 0] = (0x3F800001, 0)
      ∧ sum [0x3F000000, 0x3F000000, 0x3F000000, 0x3F000000] = (0x40000000, 0) := by decide +kernel

/-- The rewrite of chapter 23: class 3 of an ld.w becomes class 0. -/
theorem test_rewrite_word :
    rewriteWord ⟨5, 0xA0A900000C0000C0, 0, 0x20000000000FFF3F, 0x0000000002900000⟩ 0x029102C2 = 0x02910202 := by decide +kernel

/-- Chapter 24's second lost core of a cluster: package index 109, whose spare is used. -/
theorem test_second_core_lost :
    let t := replaceCore 109 { tRun with health := { tRun.health with spare := 0x40, subst := tRun.health.subst.set 6 3 } }
    t.health.uavail[1] = 0xFFFFDFFFFFFFFFFF ∧ t.health.replace = true ∧ t.health.uavail[0] = BitVec.allOnes 64
      ∧ (t.health.log.map fun r => (r.kind, r.replace)) = [(1, true)] := by decide +kernel

/-- Table 15-4's first doorbell: queue 5, sequence number 8. -/
theorem test_doorbell_value : (0x0140000000000008 : Nat) / 2 ^ 54 = 5 ∧ (0x0140000000000008 : Nat) % 2 ^ 54 = 8 := by decide

/-- Integer corners of Table 6-6: a quotient by zero, and the quotient that overflows. -/
theorem test_div_by_zero : (match exec (.div ⟨0, 0⟩ 6 1 0) tRun with
    | .next t => t.c.inflight.map (fun e => (e.val, e.due)) == [((BitVec.allOnes 64).setWidth 256, 12)] | _ => false) = true := by
  decide +kernel

/-! For each statement of the slice that has hypotheses, a state and operands that meet them, clause by clause. -/

/-- A task that stopped with a publish in its sy queue. -/
def tStopped : State := tRun.onC fun c => taskGone { c with syq := [newCmd .sy (.pub ⟨0, 0⟩ 1) tRun] }

/-- An event at the door, and a slot word there. -/
theorem wit_StepTakesTheInput : (Instr.powerLoss).slot = none ∧ (Instr.yld ⟨0, 0⟩).slot.isSome = true ∧ cutShort State.reset.c = false
    ∧ ({ State.reset with inputs := [.powerLoss] } : State).inputs = [.powerLoss] ∧ cutShort tStopped.c = true
    ∧ ({ State.reset with world := [.idle] } : State).world = [.idle] := by decide +kernel

/-- Right after reset nothing can move. -/
theorem wit_StepTakesTheInput_waits : State.reset.inputs = [] ∧ State.reset.world = [] ∧ firstEnabled State.reset (coreEvents State.reset) = none
    ∧ mayIssue State.reset = false ∧ firstEnabled State.reset (engineEvents State.reset) = none := by decide +kernel

/-- A bundle that holds addi s6, s1, 5 alone. -/
def tAddi : State := tBundle [0, word ⟨0, 0⟩ 0x1A (at_ (6 : BitVec 6) 14 + at_ (1 : BitVec 6) 8 + at_ (5 : BitVec 8) 0), 0, 0, 0, 0, 0, 0]

theorem wit_StepRunsTheBundle :
    (let s := tAddi
     let w := word ⟨0, 0⟩ 0x1A (at_ (6 : BitVec 6) 14 + at_ (1 : BitVec 6) 8 + at_ (5 : BitVec 8) 0)
     let i : Instr := .addi ⟨0, 0⟩ 6 1 5
     let entry := s.onC fun c => { c with bun := freshBundle c, trap := freshTrap c }
     s.inputs.isEmpty && s.world.isEmpty && (firstEnabled s (coreEvents s)).isNone && mayIssue s && !laneFull s.c && s.c.view.isNone
      && s.c.resume.isNone && s.c.info.patch.slots.isEmpty && !s.c.trap.tstat.getLsbD 31
      && bundleWords s == Slot.all.map (fun j => (j, if j = .sc then w else 0))
      && (match decodeWord .sc w with | .ok j => j == i | .error _ => false) && !masked (fmaskOf s) .sc w && !hiddenCode s i
      && launchLimits s i && !mustWait s.c (guardName i.guard) && guardHolds .sc i.guard s
      && match exec i entry with
        | .next t => !t.c.bun.stall && !t.c.bun.stopped && t.c.emu.isNone && t.c.halted == s.c.halted
        | _ => false) = true := by decide +kernel

/-- Every register word of the sc slot may take its effect in the tests' task, unguarded and with the guard !p1 (p1 is false). -/
theorem wit_scalar_words_ready :
    ([⟨0, 0⟩, ⟨1, 1⟩].all fun g => [Instr.add g 6 1 2, .sub g 6 1 2, .mul g 6 1 2, .mulh g 6 1 2, .mulhz g 6 1 2, .div g 6 1 0, .divz g 6 1 0,
      .rem g 6 1 0, .remz g 6 1 2, .and g 6 1 2, .or g 6 1 2, .xor g 6 1 2, .andn g 6 1 2, .shl g 6 1 2, .shr g 6 1 2, .sar g 6 2 1,
      .rol g 6 1 2, .min g 6 1 2, .max g 6 1 2, .minz g 6 1 2, .maxz g 6 1 2, .clz g 0 0, .ctz g 63 0, .popc g 6 2, .sel g 1 6 1 2,
      .addi g 6 1 0x80, .andi g 6 1 0xFF, .ori g 6 1 0x7F, .xori g 6 1 0xFF, .shli g 6 1 63, .shri g 6 2 63, .sari g 6 2 63,
      .li g 6 0x2000, .lih g 6 0x3FFF, .rng g 6 1 2, .cmp g 1 9 1 2, .cmpi g 1 7 1 0x40, .fcmp g 1 7 4 4, .faddS g 6 4 4,
      .fmulS g 6 4 4, .ffmaS g 6 4 4, .cvt g 6 4 4 0 0, .hmk g 1 1, .hset g 1 1 15, .hget g 1 6 0, .stg g 3 7 1].all fun i =>
        ready .sc g i tRun && i.wf) = true := by decide +kernel

theorem wit_IntegerResults : leadingZeros 1 63 ∧ leadingZeros 0 64 ∧ trailingZeros 0 64 ∧ trailingZeros 2 1 := by
  unfold leadingZeros trailingZeros; decide +kernel

/-- A compare whose first operand waits for a pending ranked atomic (R95). -/
def tRankedCmp : State := tRun.onC fun c => { c with ranked := [⟨0, poolHome 0x2000, 1, 0, 7, none⟩] }

theorem wit_CompareResults : (ready .sc ⟨0, 0⟩ (.cmp ⟨0, 0⟩ 1 0 7 2) tRankedCmp && (rankedOn tRankedCmp.c (.s 7)).isSome
    && (rankedOn tRankedCmp.c (.s 2)).isNone && tRankedCmp.c.emu.isNone && (rankedOn tRun.c (.s 1)).isNone) = true := by decide +kernel

theorem wit_FloatResults : rndNum 8 [] 0 (fp32 0x3F800000) = (1, 0) ∧ (decodeNum 8 [] 1).ex = Machine.Num.one.ex := by decide +kernel

theorem wit_FloatResults_negative_integer :
    (match rndNum 8 [] 0 (Machine.Num.ofInt (-3)) with | (c, _) => match decodeNum 8 [] c with | .fin neg k e => neg && k == 3 && e == 0 | _ => false)
      = true := by decide +kernel

theorem wit_HandleWords : (rawDesc tRun 7).toOption.isSome = true ∧ (rawDesc tRun 4095).toOption.isSome = true
    ∧ handleField 0 = (224, 32) ∧ handleField 15 = (0, 12) := by decide +kernel

theorem wit_RegisterWordFrame : (regOnly (.cmp ⟨0, 0⟩ 1 0 1 2) && regOnly (.faddS ⟨0, 0⟩ 6 4 4) && ready .sc ⟨0, 0⟩ (.faddS ⟨0, 0⟩ 6 4 4) tRun
    && match exec (.faddS ⟨0, 0⟩ 6 4 4) tRun with | .next t => t.c.inflight.length == 1 | _ => false) = true := by decide +kernel

theorem wit_WritesLandAtLatency : (writeS .sc 63 5 12 tRun).c.inflight.length = 1 ∧ tRun.c.emu = none := by decide +kernel

/-- A result that has come due, of fixed and of variable latency. -/
def tDue (var : Bool) : State := tRun.onC fun c => { c with inflight := [⟨.s 6, 9, 0, 1, 0x1000, var⟩] }

theorem wit_ResultsLand : (dueFirst (tDue false).c).map (·.var) = some false ∧ (dueFirst (tDue true).c).map (·.var) = some true := by
  decide +kernel

/-- An active loop whose body ends at the bundle at pc, or later. -/
def tLoop (last : Word) : State := tRun.onC fun c => { c with loops := [⟨0x0FE0, last, 3, 0, 0, true, false, none⟩] }

/-- The tests' task in its trap handler. -/
def tHandler : State := tRun.onC fun c => { c with trap := { c.trap with handler := true, entry := some 0x2000 } }

/-- With a handler to go to. -/
def tArmed : State := tRun.onC fun c => { c with trap := { c.trap with entry := some 0x2000 } }

/-- Inside an emulation sequence of four bundles at its second. -/
def tEmu : State := tRun.onC fun c => { c with
  emu := some ⟨1, 0x02910202, 5, 0, 4, 1, 2, Vector.replicate 8 0, 0, Bundle.idle⟩ }

theorem wit_BranchesRedirect : ((ready .br ⟨0, 0⟩ (.b ⟨0, 0⟩ 0x80000) tRun && ready .br ⟨0, 0⟩ (.jmp ⟨0, 0⟩ 15 5) tRun
    && ready .br ⟨0, 0⟩ (.ret ⟨0, 0⟩ 0 47) tRun && ready .br ⟨1, 1⟩ (.call ⟨1, 1⟩ 0x7FFFF) tRun && tRun.c.emu.isNone && !standsLast tRun
    && !tRun.c.fused.fused)
  && (ready .br ⟨0, 0⟩ (.b ⟨0, 0⟩ 1) (tLoop 0x1000) && standsLast (tLoop 0x1000) && ready .br ⟨0, 0⟩ (.call ⟨0, 0⟩ 1) (tLoop 0x1000))
  && ready .br ⟨0, 0⟩ (.b ⟨0, 0⟩ 0xFFFFF) tEmu && ready .br ⟨0, 0⟩ (.b ⟨0, 0⟩ 3) tEmu) = true := by decide +kernel

/-- An image that bounds the loop at 0x1000 (R315), and three loops around it. -/
def tBounded : State := tRun.onC fun c => { c with info := { c.info with loopBounds := [(0x1000, 6)] } }
def tFull (n : Nat) : State := tRun.onC fun c => { c with loops := List.replicate n ⟨0x0FE0, 0x9000, 1, 0, 0, false, false, none⟩ }

theorem wit_LoopsOpen : ((ready .br ⟨0, 0⟩ (.loop ⟨0, 0⟩ 1 0xFFF) tRun && !standsLast tRun && tRun.c.loops.isEmpty
    && (loopBound tRun).isNone)
  && (ready .br ⟨0, 0⟩ (.loopRot ⟨0, 0⟩ 1 0) (tLoop 0x1000) && standsLast (tLoop 0x1000))
  && (ready .br ⟨0, 0⟩ (.loopPre ⟨0, 0⟩ 1 1) (tLoop 0x1020) && !standsLast (tLoop 0x1020)
    && (tLoop 0x1020).c.loops.head?.any fun x => decide (x.last.toNat < 0x1040))
  && ((tLoop 0x1020).c.loops.head?.all fun x => decide (0x1020 ≤ x.last.toNat))
  && (ready .br ⟨0, 0⟩ (.loopRotPre ⟨0, 0⟩ 1 0) tBounded && loopBound tBounded == some 6 && (tRun.brS 1).toNat % 2 ^ 32 == 7)
  && (ready .br ⟨0, 0⟩ (.loop ⟨0, 0⟩ 0 0) (tFull 4) && (tFull 4).c.loops.length == 4 && ready .br ⟨0, 0⟩ (.loop ⟨0, 0⟩ 1 0) (tFull 4)
    && (tFull 4).c.loops.head?.all fun x => decide (0x1020 ≤ x.last.toNat))
  && ready .br ⟨0, 0⟩ (.loop ⟨0, 0⟩ 1 0) (tFull 3) && !tRun.c.trap.handler) = true := by decide +kernel

theorem wit_PredicateWords : ([Instr.pset ⟨0, 0⟩ 0 15, .pclr ⟨0, 0⟩ 0 0, .pand ⟨0, 0⟩ 0 1 1 0, .por ⟨0, 0⟩ 0 1 1 0, .pxor ⟨0, 0⟩ 15 1 0 0,
    .pnot ⟨0, 0⟩ 0 1 0].all fun i => ready .br i.guard i tRun) = true := by decide +kernel

/-- Under a speculation, in a fused row, and with the mode that halts at bkpt. -/
def tSpec : State := tRun.onC fun c => { c with spec := some ⟨4, none, 0, [], 0x3000, c.r, [], [], [], 0⟩ }
def tFused : State := tRun.onC fun c => { c with fused := ⟨true, true, 0, 0, none, 0⟩ }
def tApart : State := tRun.onC fun c => { c with fused := ⟨false, true, 0, 0, none, 0⟩ }
def tBkpts : State := { tRun with mon := { tRun.mon with ctxs := [(1, { tContext with bkpts := true })] } }

theorem wit_ControlWords : ((ready .br ⟨0, 0⟩ (.nop ⟨0, 0⟩ 15) tRun && ready .br ⟨0, 0⟩ (.lbrk ⟨0, 0⟩ 0) (tLoop 0x1000)
    && !(tLoop 0x1000).c.trap.handler && !(tLoop 0x1000).c.loops.isEmpty && ready .br ⟨0, 0⟩ (.lbrk ⟨0, 0⟩ 0) tRun)
  && (ready .br ⟨0, 0⟩ (.pmark ⟨0, 0⟩ 0) tRun && ready .br ⟨0, 0⟩ (.pmark ⟨0, 0⟩ 0) tHandler && ready .br ⟨0, 0⟩ (.endTask ⟨0, 0⟩ 0) tRun)
  && (ready .br ⟨0, 0⟩ (.spec ⟨0, 0⟩ 4 0x8000) tHandler && ready .br ⟨0, 0⟩ (.spec ⟨0, 0⟩ 4 1) tFused && tFused.c.spec.isNone
    && ready .br ⟨0, 0⟩ (.spec ⟨0, 0⟩ 4 1) tRun && ready .br ⟨0, 0⟩ (.spec ⟨0, 0⟩ 4 1) (tLoop 0x1000))
  && (ready .br ⟨0, 0⟩ (.specx ⟨0, 0⟩ 0) tSpec && !standsLast tSpec && ready .br ⟨0, 0⟩ (.specx ⟨0, 0⟩ 0) tRun)
  && (ready .br ⟨0, 0⟩ (.dcpl ⟨0, 0⟩ 0) tFused && ready .br ⟨0, 0⟩ (.dcpl ⟨0, 0⟩ 0) tRun && ready .br ⟨0, 0⟩ (.rjn ⟨0, 0⟩ 0) tRun
    && ready .br ⟨0, 0⟩ (.rjn ⟨0, 0⟩ 0) tApart)
  && (ready .br ⟨0, 0⟩ (.bkpt ⟨0, 0⟩ 0 0xFFFF) tRun && (tRun.ctx?.map fun c => c.bkpts) == some false
    && ready .br ⟨0, 0⟩ (.bkpt ⟨0, 0⟩ 0 7) tBkpts && (tBkpts.ctx?.map fun c => c.bkpts) == some true && !tBkpts.c.bkptSkip
    && !waitsInFlight tBkpts.c)) = true := by decide +kernel

/-- An operation in each lane, and a command in each queue: channel 14 of cp. -/
def tBusy : State := tRun.onC fun c => { c with
  lanes := [[⟨.ldD ⟨0, 0⟩ 6 3 0 0, c.r, 0x0FE0, [], 0, 0, 0, 0, false, false⟩], [⟨.apush ⟨0, 0⟩ 1 0 0 0, c.r, 0x0FE0, [], 0, 0, 0, 0, false, false⟩],
    [⟨.vadd ⟨0, 0⟩ 2 1 1, c.r, 0x0FE0, [], 0, 0, 0, 0, false, false⟩]]
  mxq := [newCmd .mx (.mzr ⟨0, 0⟩ 1) tRun], cpq := [{ newCmd .cp (.cpf ⟨0, 0⟩ 14 2) tRun with chan := 14 }]
  spq := [newCmd .sp (.cnt ⟨0, 0⟩ 6 3) tRun], syq := [newCmd .sy (.fence ⟨0, 0⟩ 1) tRun] }

theorem wit_SpecialReads : ((ready .br ⟨0, 0⟩ (.sread ⟨0, 0⟩ 0 9 0x10) tRun && ready .br ⟨0, 0⟩ (.sreadWm ⟨0, 0⟩ 0 9 7) tRun
    && (laneOf tRun 1).isEmpty && ready .br ⟨0, 0⟩ (.sreadWm ⟨0, 0⟩ 0 9 0) tBusy && !(laneOf tBusy 1).isEmpty)
  && ((List.range 8).all fun r => ready .br ⟨0, 0⟩ (.sreadSrec ⟨0, 0⟩ 0 9 (BitVec.ofNat 3 r)) tRun
    && ready .br ⟨0, 0⟩ (.sreadSrec ⟨0, 0⟩ 0 9 (BitVec.ofNat 3 r)) tBusy)
  && !(laneOf tBusy 0).isEmpty && !(laneOf tBusy 2).isEmpty && !tBusy.c.mxq.isEmpty && !tBusy.c.spq.isEmpty && !tBusy.c.syq.isEmpty
  && (ready .br ⟨0, 0⟩ (.sreadSat ⟨0, 0⟩ 0 9 0) tBusy && (tBusy.c.cpq.any fun q => q.chan == 14)
    && ready .br ⟨0, 0⟩ (.sreadSat ⟨0, 0⟩ 0 9 1) tBusy && tBusy.c.cpq.all fun q => q.chan != 15)) = true := by decide +kernel

/-- A scalar operand s6 of a test. -/
def tWith (v : Word) (s : State) : State := s.onC fun c => { c with r := { c.r with s := c.r.s.set 6 v } }

/-- Values at the edges of what each register takes: SCHK, RESUME 8 and 9, a res0 bit; V of an srec; counts; a watermark; mtol as
a negative number, -0 and a NaN; a rotation position. -/
theorem wit_SpecialWrites : ((ready .br ⟨0, 0⟩ (.swrite ⟨0, 0⟩ 0 6 0x10) tRun
    && ([0x80080000, 0x80090000, 0x00000800, 0x100000000].all fun v => ready .br ⟨0, 0⟩ (.swriteTstat ⟨0, 0⟩ 0 6) (tWith v tRun))
    && ready .br ⟨0, 0⟩ (.swriteTstat ⟨0, 0⟩ 0 6) (tWith 0x80080000 tHandler) && ((tWith 5 tRun).rdS 6) == 5
    && (0x80080000 : Word) &&& 0xFFFFFFFF10F0F800 == 0)
  && ([0, 7].all fun r => [0x8000000000000000, 0x4000000000000000].all fun v =>
      ready .br ⟨0, 0⟩ (.swriteSrec ⟨0, 0⟩ 0 6 r) (tWith v tRun))
  && ([0x0000FFFFFFFFFFFF, 0x0001000000000000].all fun v => ready .br ⟨0, 0⟩ (.swriteSat ⟨0, 0⟩ 0 6 1) (tWith v tRun))
  && ([0x807F0000000000FF, 0x0000000000000100].all fun v => ready .br ⟨0, 0⟩ (.swriteWm ⟨0, 0⟩ 0 6 7) (tWith v tRun))
  && ([0x80000000, 0xBF800000, 0x7F800000, 0x7FC00000, 0x3F800000, 0x100000000].all fun v =>
      ready .br ⟨0, 0⟩ (.swriteMtol ⟨0, 0⟩ 0 6) (tWith v tRun))
  && (match fp32 0x80000000 with | .fin b m _ => b && m == 0 | _ => false)
  && (match fp32 0xBF800000 with | .fin b m _ => b && m != 0 | _ => false)
  && ([0x000000F000000000, 0x0000010000000000].all fun v => ready .br ⟨0, 0⟩ (.swriteLstat ⟨0, 0⟩ 0 6) (tWith v tRun)
    && ready .br ⟨0, 0⟩ (.swriteLstat ⟨0, 0⟩ 0 6) (tWith v (tLoop 0x2000)))) = true := by decide +kernel

theorem wit_HandlerOnlyWords : ([tRun, tHandler].all fun s => ready .br ⟨0, 0⟩ (.rett ⟨0, 0⟩ 0) s
    && ready .br ⟨0, 0⟩ (.swriteTpc ⟨0, 0⟩ 0 6) s && ready .br ⟨0, 0⟩ (.swriteIsav ⟨0, 0⟩ 0 6) s) = true
    ∧ tHandler.c.trap.handler = true ∧ tRun.c.trap.handler = false := by decide +kernel

theorem wit_TrapEntryState : trapReady tArmed = true ∧ tArmed.c.trap.entry = some 0x2000 ∧ tArmed.c.trap.handler = false
    ∧ toHandler 0x00 = true ∧ toHandler 0x34 = true := by decide +kernel

/-- A bundle whose words all fail, the lowest in slot 1, as issueFrom meets it from slot 0 and from slot 4. -/
def tBadWords : State := tBundle [0, 0x03540C01, 0, 0, 0x00F00000, 0, 0, 0]

theorem wit_TrapEntryState_of_words : ([0, 4].all fun j =>
    let ws := (bundleWords tBadWords).filter fun x => decide (j ≤ x.1.idx)
    !guardsWait tBadWords ws && (firstBad (ws.map fun x => (x, fateOf tBadWords x))).isSome) = true := by decide +kernel

theorem wit_TrapWordTaken : (ready .br ⟨0, 0⟩ (.trap ⟨0, 0⟩ 0 0xFF) tArmed && trapReady tArmed && ready .br ⟨0, 0⟩ (.trap ⟨0, 0⟩ 0 1) tRun
    && trapReady tRun && tRun.c.trap.entry.isNone && ready .br ⟨0, 0⟩ (.trap ⟨0, 0⟩ 0 1) tHandler) = true := by decide +kernel

/-- A launch whose only task is the tests' task. -/
def tLaunch : Launch :=
  ⟨0, 0, 1, ⟨1, 0, false, 1, [], 0x70000, 0, false⟩, 1, true, false, false, ⟨0, 0, false, 0, 0, 0, 0, 0, 0, [], [], false⟩,
    [⟨0, 0, false, false, false, false⟩], none, 0, PatchSet.empty, false, [], []⟩
def tLaunched : State := { tRun with fe := { tRun.fe with launches := [tLaunch] } }

theorem wit_HandlerFaultsEndTheTask : (trapReady tLaunched && tLaunched.c.trap.entry.isNone && trapReady tHandler && !toHandler 0xF0
    && (tLaunched.fe.launches[0]?.any fun l =>
      isRow tLaunched.c.info.die tLaunched.c.info.queue tLaunched.c.info.seq l && l.failed.isNone)) = true := by decide +kernel

/-- A handler at its rett, and the task that it returns to. -/
def tReturning : State := tHandler.onC fun c => { c with
  bun := { c.bun with rett := true }, trap := { c.trap with tstat := 0x20040061, tpc := 0x1000, isav := 0x1020 } }
def tResumed : State := tRun.onC fun c => { c with resume := some 4 }

theorem wit_ReturnFromTrap : tReturning.c.bun.rett = true ∧ tResumed.c.view = none ∧ tResumed.c.resume = some 4
    ∧ (∀ u ∈ [(⟨0, 6, 1⟩ : UndoEntry), ⟨4, 0, 1⟩], u.cls.toNat < 3 ∨ u.cls = 4) := by decide +kernel

/-- The end of a trip of a rotating loop: one that has more, and the last. -/
def tTrip (n : Nat) : State := tRun.onC fun c => { c with
  tripAt := some 0x1000, loops := [⟨0x0FE0, 0x1000, n, 0, 0, true, false, none⟩, ⟨0x0FC0, 0x1000, 2, 0, 0, false, false, none⟩] }

theorem wit_EndOfTripSteps : ([1, 2].all fun n => (tTrip n).c.tripAt == some 0x1000 && (tTrip n).c.loops.head?.any fun l =>
    l.last == 0x1000 && l.stop.isNone) = true ∧ (tTrip 1).c.trap.handler = false ∧ (tTrip 2).c.preempt = false := by decide +kernel

/-- Under a presented version of 3, where features 64 to 68 are hidden. -/
def tOld : State :=
  { tRun with mon := { tRun.mon with ctxs := [(1, { tContext with recd := { tContext.recd with fmask := 0x030000000000001F } })] } }

theorem wit_words_that_stand_last : (ready .br ⟨0, 0⟩ (.specx ⟨0, 0⟩ 0) (tLoop 0x1000) && standsLast (tLoop 0x1000)
    && ready .br ⟨0, 0⟩ (.rett ⟨0, 0⟩ 0) (tLoop 0x1000) && (tLoop 0x1000).c.trap.handler == false) = true := by decide +kernel

theorem wit_SpecialReads_counted : (ready .br ⟨0, 0⟩ (.sread ⟨0, 0⟩ 0 9 0x38) tOld && countedCode (fmaskOf tOld) 0x38
    && !countedCode (fmaskOf tOld) 0 && !countedCode (fmaskOf tRun) 0x38) = true := by decide +kernel

theorem tRun_MemOk : tRun.MemOk := by unfold State.MemOk; decide +kernel

/-- The home that an access reaches, with the premises of `reaches`. -/
def tReach (s : State) (k : Acc) (ea : Word) (n : Nat) : Bool :=
  ea.toNat % n == 0 && match translate s s.c.info.ctx k false ea.toNat with
    | .ok a => (isPoolHome a || !phaseHolds s) && !emptyAt s a && !poisoned s a
    | .error _ => false

/-- An instruction that runs through its effect: it answers a next state, and neither faults nor waits. -/
def tGoes (i : Instr) (s : State) : Bool :=
  match exec i s with
  | .next t => !t.c.bun.stopped && !t.c.bun.stall && t.c.lanes == s.c.lanes
  | _ => false

/-- An instruction that stops its bundle. -/
def tStops (i : Instr) (s : State) : Bool := match exec i s with | .next t => t.c.bun.stopped | _ => false

/-- A place of device memory that can be reached, for both ends of the offset's range. -/
theorem wit_LoadsReturnMemory : (([(Instr.ldB ⟨0, 0⟩ 6 3 0 31, 1), (.ldBz ⟨0, 0⟩ 6 5 0 0x20, 1), (.ldH ⟨0, 0⟩ 6 3 0 31, 2),
    (.ldHz ⟨0, 0⟩ 6 3 0 0x20, 2), (.ldW ⟨0, 0⟩ 6 3 0 31, 4), (.ldWz ⟨0, 0⟩ 6 5 0 0x20, 4), (.ldD ⟨0, 0⟩ 6 3 3 0x20, 8),
    (.ldh ⟨0, 0⟩ 20 3 0 63, 32)] : List (Instr × Nat)).all fun x => ready .sc ⟨0, 0⟩ x.1 tRun && tGoes x.1 tRun
      && match memOf x.1 tRun with | some (.read, ea, n) => n == x.2 && tReach tRun .read ea n | _ => false) = true := by decide +kernel

/-- Stream z1, bound, with two words buffered; s6 is its pop address. -/
def tStream : State := (tWith (BitVec.ofNat 64 (0xFFD * 2 ^ 40 + 8)) tRun).onC fun c => { c with
  z := c.z.set 1 { (c.z[1]) with bound := true, buf := [5, 6] } }

theorem wit_LoadsReturnMemory_stream : (ready .sc ⟨0, 0⟩ (.ldD ⟨0, 0⟩ 7 6 0 0) tStream && tStream.c.spec.isNone
    && (tStream.rdS 6 + 8 * (0 : BitVec 6).signExtend 64).toNat == 0xFFD * 2 ^ 40 + 8 * (1 : BitVec 3).toNat
    && (tStream.c.z[1]).waits.isEmpty && (tStream.c.z[1]).buf == [5, 6]) = true := by decide +kernel

/-- In a transaction, with s6 inside the descriptor table. -/
def tTxn : State := (tWith 0x10000 tRun).onC fun c => { c with txn := { c.txn with act := true } }

theorem wit_StoresChangeTheirBytes : (([Instr.stB ⟨0, 0⟩ 1 3 0 31, .stH ⟨0, 0⟩ 1 3 0 0x20, .stW ⟨0, 0⟩ 1 5 0 31, .stD ⟨0, 0⟩ 1 3 3 0x20,
    .sth ⟨0, 0⟩ 1 3 0 63].all fun i => ready .sc i.guard i tRun
      && match memOf i tRun with
        | some (.write, ea, n) => tReach tRun .write ea n && storesNow tRun ea && tGoes i tRun
        | _ => false)
  && (ready .sc ⟨0, 0⟩ (.stD ⟨0, 0⟩ 1 3 0 0) tSpec && tReach tSpec .write (tSpec.rdS 3) 8 && tSpec.c.spec.any fun sp => sp.held.length < 32)
  && ready .sc ⟨0, 0⟩ (.stD ⟨0, 0⟩ 1 6 0 0) tTxn && tReach tTxn .write (tTxn.rdS 6) 8 && tTxn.c.spec.isNone && inDescTable tTxn (tTxn.rdS 6))
    = true ∧ tRun.MemOk := ⟨by decide +kernel, tRun_MemOk⟩

/-- A misaligned address, the first address that no range maps, a range without write permission, and the first address of 2^52. -/
theorem wit_MisalignedAccessFaults : (ready .sc ⟨0, 0⟩ (.ldD ⟨0, 0⟩ 6 6 0 0) (tWith 0x70004 tRun)
    && (match memOf (.ldD ⟨0, 0⟩ 6 6 0 0) (tWith 0x70004 tRun) with | some (_, ea, n) => ea.toNat % n != 0 | none => false)
    && ([0x210000, 0x1000, 0x10000000000000].all fun a => ready .sc ⟨0, 0⟩ (.stD ⟨0, 0⟩ 1 6 0 0) (tWith a tRun)
      && match memOf (.stD ⟨0, 0⟩ 1 6 0 0) (tWith a tRun) with
        | some (k, ea, n) => ea.toNat % n == 0 && ea.toNat / 2 ^ 40 != 0xFFD
          && (match translate tRun 1 k false ea.toNat with | .error f => f.perm == (a == 0x1000) | .ok _ => false)
        | none => false)) = true := by decide +kernel

theorem wit_AtomicsActAtHome : ([Instr.amoAdd ⟨0, 0⟩ 6 3 1 0, .amoAnd ⟨0, 0⟩ 6 3 1 0, .amoOr ⟨0, 0⟩ 6 3 1 0, .amoXor ⟨0, 0⟩ 6 3 1 0,
    .amoMax ⟨0, 0⟩ 6 3 2 0, .amoMin ⟨0, 0⟩ 6 3 2 0, .amoXchg ⟨0, 0⟩ 6 3 3 0, .amoCas ⟨0, 0⟩ 6 3 1 0, .amob ⟨0, 0⟩ 6 5 1 0].all fun i =>
      ready .sc ⟨0, 0⟩ i tRun && tReach tRun .atomic (tRun.rdS 3) 8 && tReach tRun .atomic (tRun.rdS 5) 8 && !tRun.c.txn.act
      && tRun.c.txn.acts.isEmpty && tGoes i tRun) = true := by decide +kernel

/-- With the most ranked atomics that a task may have pending (Table 7-3). -/
def tRanked (n : Nat) : State := tRun.onC fun c => { c with ranked := List.replicate n ⟨0, poolHome 0x2000, 1, 0, 9, none⟩ }

theorem wit_RankedAtomicsWait : ([Instr.amoAddR ⟨0, 0⟩ 6 3 1 0, .amoAndR ⟨0, 0⟩ 6 3 1 0, .amoOrR ⟨0, 0⟩ 6 3 1 0, .amoXorR ⟨0, 0⟩ 6 3 1 0,
    .amoMaxR ⟨0, 0⟩ 6 3 2 0, .amoMinR ⟨0, 0⟩ 6 3 2 0, .amoXchgR ⟨0, 0⟩ 6 3 3 0, .amoCasR ⟨0, 0⟩ 6 3 1 0, .amobR ⟨0, 0⟩ 6 5 1 0].all fun i =>
      ([tRanked 0, tRanked 63, tRanked 64, tTxn].all fun s => ready .sc ⟨0, 0⟩ i s && tReach s .atomic (s.rdS 3) 8
        && tReach s .atomic (s.rdS 5) 8) && tGoes i (tRanked 63) && tStops i (tRanked 64) && tStops i tTxn) = true := by decide +kernel

theorem wit_MemoryReadsBack : tRun.MemOk ∧ (tRun.write (cellsAt 0x70000 [1, 0])).MemOk :=
  ⟨tRun_MemOk, by unfold State.MemOk; decide +kernel⟩

theorem wit_StepKeepsMemoryCanonical : tAddi.MemOk ∧ (match step tAddi with | .next _ => true | _ => false) = true :=
  ⟨by unfold State.MemOk; decide +kernel, by decide +kernel⟩

theorem wit_WordsKeepHandlerMode : tHandler.c.trap.handler = true ∧ tHandler.c.bun.rett = false
    ∧ ([Instr.rett ⟨0, 0⟩ 0, .trap ⟨0, 0⟩ 0 1, .endTask ⟨0, 0⟩ 0].all fun i => i.slot.isSome && match exec i tHandler with
      | .next t => t.c.trap.handler | _ => false) = true := by decide +kernel

/-- A premise that some value is read, and what holds of it. -/
def okB {ε α : Type} (r : Except ε α) (f : α → Bool) : Bool := match r with | .ok a => f a | .error _ => false

/-- Plane 0 active with 2 columns, row 1 of h1 pushed last, and two matrix registers: m1 a factor form of rank 1, m2 dense. -/
def tArr : State := tRun.onC fun c => { c with
  arr := { c.arr with
    planes := c.arr.planes.set 0 ⟨32, 2, 0, List.replicate 32 [Machine.Num.one, Machine.Num.zero], List.replicate 32 [Machine.Num.one, Machine.Num.one]⟩
    last := some ⟨1, c.r.rdH 1, 0, 3, 0⟩ }
  m := (c.m.set 1 ⟨false, [0x3F800000], [List.replicate 128 0x3F80], [List.replicate 128 0x3F80], [], false⟩).set 2 ⟨true, [], [], [], [], false⟩ }

/-- Scalar s6 as a row offset: the first row and the last. -/
theorem wit_RowOperationSums : (([0, 1] : List Word).all fun v => [Instr.apush ⟨0, 0⟩ 1 6 0 7, .aacc ⟨0, 0⟩ 1 6 0 7].all fun i =>
    let s := tWith v tArr
    ready .ar ⟨0, 0⟩ i s && SMap.risesFrom 0 s.c.arr.acc && decide ((activePlane s.c.arr (latchOf s 0)).n ≤ 128) && tGoes i s
    && okB (useTens s 1 none) fun fx => okB (pushCheck fx (latchOf s 0) v.toNat s) fun _ => okB (useTens s 1 (some false)) fun x =>
      okB (pipeReads s x false (pushIdxs x (latchOf s 0) v.toNat s)) fun _ => okB (rowActivations s x (latchOf s 0) v.toNat) fun xs =>
        xs.length == 2) = true := by decide +kernel

/-- A drain with an anchor, through no scale and through a factor scale. -/
def tScaled : State := tArr.onC fun c => { c with arr := { c.arr with fscale := c.arr.fscale.set 7 (some [0x3F800000]) } }

theorem wit_ArrayWords_drain : ([tArr, tScaled].all fun s => ready .ar ⟨0, 0⟩ (.adrn ⟨0, 0⟩ 2 0 7) s && s.c.spec.isNone
    && tGoes (.adrn ⟨0, 0⟩ 2 0 7) s
    && okB (useTens s 2 none) fun x => okB (drainCheck x 0 s) fun _ => okB (pipeWrites s x (drainIdxs x 0)) fun _ =>
      okB (regionCells s x ((drainIdxs x 0).zip [1, 2])) fun cells => cells.length == 8 && !partialPoison s cells) = true := by
  decide +kernel

/-- ashf of one row after a push of row 0, and after a drain of it. -/
def tDrained : State := tArr.onC fun c => { c with arr := { c.arr with last := some ⟨4, c.r.rdH 2, 0, 7, 0⟩ } }

theorem wit_ArrayWords_shift : ([tArr, tDrained].all fun s => ready .ar ⟨0, 0⟩ (.ashf ⟨0, 0⟩ 0) s && tGoes (.ashf ⟨0, 0⟩ 0) s
    && match s.c.arr.last with
      | none => false
      | some r => okB (resolve s r.hv none) fun x =>
        okB (if r.op = 4 then drainCheck x 1 s else pushCheck x (latchOf s r.l) 1 s) fun _ =>
        okB (resolve s r.hv (if r.op = 4 then none else some false)) fun y =>
        okB (if r.op = 4 then pipeWrites s y (drainIdxs y 1) else pipeReads s y false (pushIdxs y (latchOf s r.l) 1 s)) fun _ =>
        okB (repeatRows y r (latchOf s r.l) 1 1 s) fun _ => true) = true := by decide +kernel

theorem wit_ArrayWords : (ready .ar ⟨0, 0⟩ (.ashf ⟨0, 0⟩ 15) tRun && tRun.c.arr.last.isNone
    && ([0, 1].all fun o => ready .ar ⟨0, 0⟩ (.alds ⟨0, 0⟩ 14 6 3) (tWith (BitVec.ofNat 64 o) tRun)
      && tGoes (.alds ⟨0, 0⟩ 14 6 3) (tWith (BitVec.ofNat 64 o) tRun)
      && okB (useTens tRun 14 none) fun fx => okB (rowIn fx o) fun _ =>
        okB (rowsReach tRun .read true fx ((List.range (2 - o)).flatMap fun i => sliceRows fx (o + i) 2)) fun _ =>
        okB (twoDim fx) fun _ => okB (useTens tRun 14 (some true)) fun x =>
        okB (pipeReads tRun x true ((List.range (2 - o)).flatMap fun i => (List.range 2).map fun j => [o + i, j])) fun _ =>
        okB ((List.range (2 - o)).mapM fun i => mapRead (fun c => do
          let code ← codeAt tRun x c
          let v ← scaleAt tRun x.d x.scale true (coords x c)
          .ok (valOfCode x code, v)) ((List.range 2).map fun j => [o + i, j])) fun ws => ws.length == 2 - o)
    && ([Instr.aswp ⟨0, 0⟩ 0, .aswp ⟨0, 0⟩ 3, .asel ⟨0, 0⟩ 3, .acfg ⟨0, 0⟩ 7 2, .acfgImm ⟨0, 0⟩ 0 0x3FF, .azr ⟨0, 0⟩ 7, .awm ⟨0, 0⟩ 7 1].all fun i =>
      ready .ar ⟨0, 0⟩ i tArr && tGoes i tArr)
    && ([0, 1].all fun p => ready .ar ⟨0, 0⟩ (.afac ⟨0, 0⟩ 1 0 7 p) tArr && tGoes (.afac ⟨0, 0⟩ 1 0 7 p) tArr
      && ready .ar ⟨0, 0⟩ (.afac ⟨0, 0⟩ 0 0 7 p) tArr && ready .ar ⟨0, 0⟩ (.afac ⟨0, 0⟩ 2 0 7 p) tArr)
    && !(tArr.c.m[1]).dense && !(tArr.c.m[1]).s.isEmpty && (tArr.c.m[0]).s.isEmpty && (tArr.c.m[2]).dense) = true := by decide +kernel

/-- m1 poisoned, and m1 the destination of a command issued earlier. -/
theorem wit_ArrayWords_waits : (
    (let s := tArr.onC fun c => { c with m := c.m.set 1 { (c.m[1]) with poison := true } }
     ready .ar ⟨0, 0⟩ (.afac ⟨0, 0⟩ 1 0 7 0) s && (s.c.m[1]).poison && tStops (.afac ⟨0, 0⟩ 1 0 7 0) s)
    && (let s := tArr.onC fun c => { c with cmdNo := 2, mxq := [{ newCmd .mx (.mzr ⟨0, 0⟩ 1) tRun with no := 1 }] }
        ready .ar ⟨0, 0⟩ (.afac ⟨0, 0⟩ 1 0 7 0) s && (s.c.mxq.any fun q => mxDst q.i == some (1 : BitVec 4) && decide (q.no < s.c.cmdNo))))
      = true := by decide +kernel

/-- The last premises of a ve word: the cells of its result, none of them in part of a poisoned block, and the sources' flags. -/
def tLands (s : State) (d : Tens) (outs : List (Nat × Flags)) (ts : List Tens := []) : Bool :=
  okB (regionCells s d ((allIdx d.ext).zip (outs.map (·.1)))) fun cells => !partialPoison s cells && s.c.spec.isNone
    && okB (sourceNv s ts) fun _ => true

/-- The premises of a ve word over whole tensors up to its elements, each operand read for the use that its rule gives. -/
def tVec (i : Instr) (d : BitVec 5) (use : Option Bool) (xs : List (BitVec 5 × Option Bool)) (s : State)
    (f : Tens → List Tens → Bool) : Bool :=
  ready .ve i.guard i s && okB (wholeTensor s .write true d use) fun td =>
    okB (xs.mapM fun x => wholeTensor s .read true x.1 x.2) fun ts => okB (vecShape td ts) fun _ => okB (vecReach s td ts) fun _ => f td ts

theorem wit_VectorArithmetic : ([Instr.vadd ⟨0, 0⟩ 2 1 1, .vmul ⟨0, 0⟩ 2 1 8, .vfms ⟨0, 0⟩ 17 1 1 1, .vneg ⟨0, 0⟩ 2 1].all fun i =>
      match vecHandles i with
      | none => false
      | some (d, xs) => (elemExact i (List.replicate xs.length Machine.Num.one)).isSome && okB (vecTens tRun d xs) fun _ =>
        tVec i d (some false) (xs.map fun x => (x, some false)) tRun fun td ts => okB (perIndex (allIdx td.ext) fun idx => do
          let vs ← ts.mapM fun x => srcVal tRun td x idx
          match elemExact i vs with
          | some (x, f1) => do
            let (c, f2) ← outCode tRun td 0 idx x
            .ok (c, f1 ||| f2)
          | none => .error ⟨false, 0⟩) fun outs => outs.length == 4 && tLands tRun td outs ts) = true := by decide +kernel

theorem wit_VectorArithmetic_shape : (ready .ve ⟨0, 0⟩ (.vabs ⟨0, 0⟩ 19 1) tRun && ready .ve ⟨0, 0⟩ (.vadd ⟨0, 0⟩ 20 1 16) tRun
    && tStops (.vabs ⟨0, 0⟩ 19 1) tRun && tStops (.vadd ⟨0, 0⟩ 20 1 16) tRun
    && okB (vecTens tRun 19 [1]) (fun x => count x.1.ext == 16385)
    && okB (vecTens tRun 20 [1, 16]) fun x => count x.1.ext == 16384 && x.2.any fun y => y.ext != x.1.ext && count y.ext != 1) = true := by
  decide +kernel

theorem wit_VectorElementWords_functions : (([(.vexp ⟨0, 0⟩ 2 1, .exp), (.vexp2 ⟨0, 0⟩ 2 1, .exp2), (.vlog2 ⟨0, 0⟩ 2 1, .log2),
    (.vrcp ⟨0, 0⟩ 2 1, .rcp), (.vrsq ⟨0, 0⟩ 2 1, .rsq), (.vsqrt ⟨0, 0⟩ 2 1, .sqrt), (.vtanh ⟨0, 0⟩ 2 1, .tanh),
    (.vsigm ⟨0, 0⟩ 2 1, .sigm)] : List (Instr × TransFn)).all fun x => tVec x.1 2 none [(1, some false)] tRun fun td ts => match ts with
      | [ta] => decide (td.d.fmt ≤ 1) && okB (perIndex (allIdx td.ext) fun idx => do
          let v ← srcVal tRun td ta idx
          .ok (trans x.2 td.d.fmt v)) fun outs => outs.length == 4 && tLands tRun td outs ts
      | _ => false) = true := by decide +kernel

/-- Values of one compare, an element form on formats outside the numbers that have an order. -/
theorem wit_VectorElementWords_compare : (([(1, 1, 7), (17, 17, 9), (17, 5, 3)] : List (BitVec 5 × BitVec 5 × BitVec 4)).all fun (a, b, c) =>
    let i : Instr := .vcmp ⟨0, 0⟩ 17 a b c
    tGoes i tRun && okB (wholeTensor tRun .read true a) fun fa =>
      let raw := decide (6 < fa.d.fmt) && [4, 5, 8, 9].contains c.toNat
      let use := if raw then none else some false
      decide (fa.d.fmt ≤ 6 → c.toNat < 8) && tVec i 17 (some false) [(a, use), (b, use)] tRun fun td ts => match ts with
        | [ta, tb] => okB (perIndex (allIdx td.ext) fun idx => do
            let x ← srcVal tRun td ta idx
            let y ← srcVal tRun td tb idx
            let p ← srcCode tRun td ta idx
            let q ← srcCode tRun td tb idx
            outCode tRun td 0 idx (if (if fa.d.fmt ≤ 6 then condNum c.toNat x y else condElem c.toNat x y p q) then Machine.Num.one else Machine.Num.zero))
            fun outs => tLands tRun td outs ts
        | _ => false) = true := by decide +kernel

theorem wit_VectorElementWords_bits : (([Instr.vand ⟨0, 0⟩ 2 1 1, .vor ⟨0, 0⟩ 2 1 1, .vxor ⟨0, 0⟩ 2 1 1].all fun i =>
    tVec i 2 none [(1, none), (1, none)] tRun fun td ts => ts.all (fun x => x.d.fmt == td.d.fmt) && tLands tRun td [] ts)
  && tStops (.vxor ⟨0, 0⟩ 2 1 17) tRun && tVec (.vxor ⟨0, 0⟩ 2 1 17) 2 none [(1, none), (17, none)] tRun (fun td ts =>
    ts.any fun y => y.d.fmt != td.d.fmt)
  && [Instr.vshl ⟨0, 0⟩ 2 1 17, .vshr ⟨0, 0⟩ 2 1 17].all fun i => tVec i 2 none [(1, none), (17, none)] tRun fun td ts => match ts with
      | [ta, tb] => decide (7 ≤ tb.d.fmt) && decide (tb.d.fmt ≤ 13) && ta.d.fmt == td.d.fmt && okB (perIndex (allIdx td.ext) fun idx => do
          let x ← srcCode tRun td ta idx
          let y ← srcCode tRun td tb idx
          .ok (x + y, (0 : Flags))) fun xs => tLands tRun td xs ts
      | _ => false) = true := by decide +kernel

/-- A new format for each of the words, and the refusal of vdqnt. -/
theorem wit_VectorElementWords_formats : ((([(.vcvt ⟨0, 0⟩ 5 1 3, 5, some false, 1, some false), (.vdqnt ⟨0, 0⟩ 2 5, 2, none, 5, some false),
    (.vcbk ⟨0, 0⟩ 2 8, 2, none, 8, none), (.vmov ⟨0, 0⟩ 2 17, 2, some false, 17, some false), (.vmov ⟨0, 0⟩ 2 1, 2, none, 1, none)] :
      List (Instr × BitVec 5 × Option Bool × BitVec 5 × Option Bool)).all fun (i, d, u, a, v) =>
      tVec i d u [(a, v)] tRun fun td ts => match ts with
        | [ta] => okB (perIndex (allIdx td.ext) fun idx => do
            let v ← srcVal tRun td ta idx
            outCode tRun td 0 idx v) fun outs => tLands tRun td outs ts
        | _ => false)
  && okB (useTens tRun 2 none) (fun t => t.d.fmt == 0) && okB (useTens tRun 1 none) (fun t => t.d.fmt == 0)
  && okB (useTens tRun 17 none) (fun t => t.d.fmt == 8) && okB (useTens tRun 8 none) (fun t => t.d.fmt == 16)
  && tStops (.vdqnt ⟨0, 0⟩ 17 5) tRun && tVec (.vdqnt ⟨0, 0⟩ 17 5) 17 none [(5, some false)] tRun fun td _ => decide (2 < td.d.fmt)) = true := by
  decide +kernel

/-- The premises of a row word up to the values of its sources' rows, hd [2, 1] or [2, 2]. -/
def tRow (i : Instr) (d : BitVec 5) (u : Option Bool) (xs : List (BitVec 5 × Option Bool)) (ext : List Nat) (s : State := tRun) : Bool :=
  ready .ve ⟨0, 0⟩ i s && okB (wholeTensor s .write true d u) fun td => td.ext == ext && decide (count td.ext ≤ 16384)
    && okB (xs.mapM fun x => wholeTensor s .read true x.1 x.2) fun ts => okB (vecReach s td ts) fun _ => !s.c.upsets.contains 3
    && okB (ts.mapM fun t => perIndex (rowsOf t.ext) fun r => (List.range (rowLen t.ext)).mapM fun j => valAt s t false (r ++ [j]))
        fun _ => okB (perIndex (allIdx td.ext) fun idx => outCode s td 0 idx Machine.Num.one) fun outs => tLands s td outs ts

theorem wit_VectorRowWords : ((([(.vsum ⟨0, 0⟩ 16 1, 16, none), (.vmaxr ⟨0, 0⟩ 16 1, 16, some false), (.vminr ⟨0, 0⟩ 16 1, 16, some false),
    (.vpopc ⟨0, 0⟩ 16 1, 16, some false)] : List (Instr × BitVec 5 × Option Bool)).all fun (i, d, u) => tRow i d u [(1, some false)] [2, 1])
  && (([(.vscan ⟨0, 0⟩ 2 1, none, [(1, some false)]), (.vcmpr ⟨0, 0⟩ 2 1 17, some false, [(1, some false), (17, some false)]),
    (.vexpd ⟨0, 0⟩ 2 16 17, some false, [(16, some false), (17, some false)]),
    (.vperm ⟨0, 0⟩ 2 1 17, some false, [(1, some false), (17, none)]), (.vbcast ⟨0, 0⟩ 2 4, some false, []), (.viota ⟨0, 0⟩ 2 2, some false, []),
    (.vrng ⟨0, 0⟩ 2 1 2, none, [])] : List (Instr × Option Bool × List (BitVec 5 × Option Bool))).all fun (i, u, xs) => tRow i 2 u xs [2, 2])
  && okB (useTens tRun 16 none) (fun t => t.d.fmt == 0 && t.ext == [2, 1]) && okB (useTens tRun 1 none) (fun t => t.ext == [2, 2])
  && okB (useTens tRun 17 none) (fun t => t.d.fmt == 8 && t.ext == [2, 2])
  && okB (useTens tRun 2 none) (fun td => okB (useTens tRun 1 none) fun ta => okB (useTens tRun 17 none) fun tb => okB (vecShape td [ta, tb]) fun _ => true)) =
    true := by decide +kernel

/-- The scales that vqnt writes. -/
theorem wit_VectorRowWords_scales : (ready .ve ⟨0, 0⟩ (.vqnt ⟨0, 0⟩ 5 1 2) tRun && tGoes (.vqnt ⟨0, 0⟩ 5 1 2) tRun
    && okB (wholeTensor tRun .write true 5 (some false)) fun td => okB (wholeTensor tRun .read true 1 (some false)) fun ta =>
    okB (vecShape td [ta]) fun _ => decide (3 ≤ td.d.fmt) && match td.scale with
      | some sc => okB (homesOf (elemHomes tRun .write sc) ((allIdx td.ext).map fun i => scaleCoords td.d false (coords td i)).eraseDups) fun homes =>
          !homes.any (emptyAt tRun) && okB (vecReach tRun { td with scale := none } [ta]) fun _ => okB (sourceNv tRun [ta]) fun _ =>
          okB (perIndex (allIdx td.ext) (srcVal tRun td ta)) fun xs =>
            let scales := runScales td false ((allIdx td.ext).zip xs)
            let outs := quantCodes td false 2 scales ((allIdx td.ext).zip xs)
            okB (regionCells tRun td ((allIdx td.ext).zip (outs.map (·.1)))) fun c1 => okB (codeCells tRun sc scales) fun c2 =>
              !partialPoison tRun (c1 ++ c2)
      | none => false) = true := by decide +kernel

theorem wit_VectorFrame : ready .ve ⟨0, 0⟩ (.vadd ⟨0, 0⟩ 2 1 1) tRun = true ∧ tRun.MemOk ∧ tGoes (.vadd ⟨0, 0⟩ 2 1 1) tRun = true
    ∧ tRun.c.spec = none ∧ tRun.c.info.patch.slots = [] ∧ tRun.c.emu = none ∧ okB (useTens tRun 2 none) (fun td =>
      (allIdx td.ext).all fun idx => okB (wordHomes tRun .write (elemAt td.d (coords td idx)).1) fun hs =>
        !hs.isEmpty && hs.all fun a => sameKey tRun.keyed a) = true :=
  ⟨by decide +kernel, tRun_MemOk, by decide +kernel, by decide +kernel, by decide +kernel, by decide +kernel, by decide +kernel⟩

/-- Command q stands at the head of the queue of its slot, with no failure and no speculation. -/
def headB (s : State) (q : Cmd) : Bool :=
  s.c.failing.isNone && s.c.spec.isNone && q.slot != 5 && (queueOf q.slot s.c).head? == some q && !laneHolds s q && !writesBehind s q

/-- The mx commands of R152 to R157 on the registers of tArr. -/
def tMx : List Instr := [.mzr ⟨0, 0⟩ 3, .mcpy ⟨0, 0⟩ 3 1, .mtrn ⟨0, 0⟩ 3 2, .mscl ⟨0, 0⟩ 1 4, .mdns ⟨0, 0⟩ 3 1, .madd ⟨0, 0⟩ 3 1 2,
  .mmul ⟨0, 0⟩ 3 1 1, .mrcmp ⟨0, 0⟩ 3 1, .mfac ⟨0, 0⟩ 3 2 64]

/-- An undecided rank ahead, a poisoned source, a pool that is full, and a queue that is full. -/
def tUndecided : State := tArr.onC fun c => { c with mxq := [newCmd .mx (.mfac ⟨0, 0⟩ 3 2 1) tArr] }
def tPoisoned : State := tArr.onC fun c => { c with m := c.m.set 1 { (c.m[1]) with poison := true } }
def tNoRoom : State := tArr.onC fun c => { c with info := { c.info with part := 0 } }
def tQueueFull : State := tArr.onC fun c => { c with mxq := List.replicate 16 (newCmd .mx (.mzr ⟨0, 0⟩ 0) tArr) }

theorem wit_MatrixIssue : ((tMx.all fun i => ready .mx ⟨0, 0⟩ i tArr && tGoes i tArr)
    && !(tArr.c.mxq.any decides) && tUndecided.c.mxq.any decides && ready .mx ⟨0, 0⟩ (.mzr ⟨0, 0⟩ 0) tUndecided
    && ready .mx ⟨0, 0⟩ (.mcpy ⟨0, 0⟩ 3 1) tPoisoned && (predReg tPoisoned.c 1).2.2 && tStops (.mcpy ⟨0, 0⟩ 3 1) tPoisoned
    && ready .mx ⟨0, 0⟩ (.mrcmp ⟨0, 0⟩ 3 2) tArr && (predReg tArr.c 2).1 && tStops (.mrcmp ⟨0, 0⟩ 3 2) tArr
    && ready .mx ⟨0, 0⟩ (.mfac ⟨0, 0⟩ 3 1 1) tArr && !(predReg tArr.c 1).1 && tStops (.mfac ⟨0, 0⟩ 3 1 1) tArr
    && ready .mx ⟨0, 0⟩ (.mfac ⟨0, 0⟩ 3 2 65) tArr && tStops (.mfac ⟨0, 0⟩ 3 2 65) tArr
    && ready .mx ⟨0, 0⟩ (.mdns ⟨0, 0⟩ 3 1) tNoRoom && tStops (.mdns ⟨0, 0⟩ 3 1) tNoRoom
    && freeGranules tNoRoom + occOf (predReg tNoRoom.c 3).1 (predReg tNoRoom.c 3).2.1 == 0
    && ready .mx ⟨0, 0⟩ (.mzr ⟨0, 0⟩ 3) tQueueFull && !(tQueueFull.c.mxq.any decides) && tQueueFull.c.mxq.length == 16) = true := by
  decide +kernel

/-- The image tensor h10 with a header: rank 0, a form of 2, and rank 2, which does not fit. -/
def tImage (bs : List Byte) : State := { tArr with mem := tMemOf bs }

theorem wit_MatrixMemoryIssue_load : (([[0, 0], [2, 0], [0, 2]] : List (List Byte)).all fun bs =>
    let s := tImage bs
    ready .mx ⟨0, 0⟩ (.mld ⟨0, 0⟩ 3 10) s && decide ((queueOf Slot.mx.idx s.c).length < 16) && !(s.c.mxq.any decides)
    && okB (imageTens .read 10 s) fun t => decide (64 ≤ ext0 t) && okB (engReads s t false (span 0 64)) fun hh =>
      okB (engHold s hh) fun _ => !(hh.any (emptyAt s)) && !(hh.any (poisoned s)) && okB (mapRead (codeAt s t) (span 0 64)) fun hdr =>
        let dense := (hdr[0]?).getD 0 == 1
        let k := (hdr[1]?).getD 0
        if bs = [2, 0] then badHeader hdr && tStops (.mld ⟨0, 0⟩ 3 10) s
        else if bs = [0, 2] then !badHeader hdr && decide (ext0 t < imageSize dense k) && tStops (.mld ⟨0, 0⟩ 3 10) s
        else !badHeader hdr && okB (engReads s t false (span 64 (imageSize dense k))) fun rest => okB (engHold s rest) fun _ =>
          decide (imageSize dense k ≤ ext0 t) && decide (occOf dense k ≤ freeGranules s + occOf (predReg s.c 3).1 (predReg s.c 3).2.1))
      = true := by decide +kernel

/-- The tile of the image empty, and its block poisoned. -/
def tEmptyTile : State := tArr.onC fun c => { c with counts := [(tileOf (poolHome 0xA00), 1)] }
def tPoisonTile : State := poisonHomes ((List.range 64).map fun i => poolHome (0xA00 + i)) tArr

theorem wit_MatrixMemoryIssue_mark : ([tEmptyTile, tPoisonTile].all fun s => ready .mx ⟨0, 0⟩ (.mld ⟨0, 0⟩ 3 10) s
    && okB (imageTens .read 10 s) fun t => okB (engReads s t false (span 0 64)) fun hh => okB (engHold s hh) fun _ =>
      okB (mapRead (codeAt s t) (span 0 64)) fun _ => hh.any (emptyAt s) || hh.any (poisoned s)) = true := by decide +kernel

theorem wit_MatrixMemoryIssue : (ready .mx ⟨0, 0⟩ (.mst ⟨0, 0⟩ 0 10) tArr && tGoes (.mst ⟨0, 0⟩ 0 10) tArr
    && ready .mx ⟨0, 0⟩ (.mst ⟨0, 0⟩ 2 10) tArr && tStops (.mst ⟨0, 0⟩ 2 10) tArr
    && okB (imageTens .write 10 tArr) (fun t => decide (imageSize false 1 ≤ ext0 t) && decide (ext0 t < imageSize true 0)
      && okB (engWrites tArr t (span 0 (imageSize false 0))) fun ws => okB (engHold tArr ws) fun _ => true)
    && ready .mx ⟨0, 0⟩ (.mapl ⟨0, 0⟩ 12 11 1) tArr && tGoes (.mapl ⟨0, 0⟩ 12 11 1) tArr
    && ready .mx ⟨0, 0⟩ (.mapl ⟨0, 0⟩ 2 1 1) tArr && tStops (.mapl ⟨0, 0⟩ 2 1 1) tArr && okB (wholeTensor tArr .read false 1) (fun _ => true)
    && okB (wholeTensor tArr .write false 2) (fun _ => true)
    && okB (wholeTensor tArr .read false 11) (fun a => a.ext == [1, 128] && okB (wholeTensor tArr .write false 12) fun d =>
      d.ext == a.ext && d.d.fmt == 0 && okB (useTens tArr 11 (some false)) fun ta => okB (engWrites tArr d (allIdx d.ext)) fun ws =>
        okB (engReads tArr ta false (allIdx ta.ext)) fun rs => okB (engHold tArr (ws ++ rs)) fun _ => true)
    && ([Instr.mrnk ⟨0, 0⟩ 15 6, .mocc ⟨0, 0⟩ 0 6].all fun i => ready .mx ⟨0, 0⟩ i tArr && tGoes i tArr)) = true := by decide +kernel

/-- A command alone in the mx queue. -/
def tMxHead (q : Cmd) : State := tArr.onC fun c => { c with mxq := [q] }

theorem wit_MatrixExecute : (tMx.all fun i =>
    let q := newCmd .mx i tArr
    let s := tMxHead q
    headB s q && s.c.lanes.flatten.isEmpty) = true := by decide +kernel

/-- A command whose source is poisoned, the commands with a scalar destination, and a load. -/
theorem wit_MatrixExecute_others : (
    (let q := { newCmd .mx (.mcpy ⟨0, 0⟩ 3 1) tArr with mres := some (3, false, 1) }
     let s := (tMxHead q).onC fun c => { c with m := tPoisoned.c.m }
     headB s q && (s.c.m[1]).poison)
    && ([Instr.mrnk ⟨0, 0⟩ 1 6, .mocc ⟨0, 0⟩ 2 6].all fun i => headB (tMxHead (newCmd .mx i tArr)) (newCmd .mx i tArr))
    && okB (imageTens .read 10 tArr) fun t =>
      let q := { newCmd .mx (.mld ⟨0, 0⟩ 3 10) tArr with ts := [t], image := some (false, 0) }
      headB (tMxHead q) q && okB (engReady q (tMxHead q) t false (span 64 (imageSize false 0))) fun _ =>
        okB ((span 64 (imageSize false 0)).mapM (codeAt (tMxHead q) t)) fun _ => true) = true := by decide +kernel

theorem wit_MatrixExecute_store : (okB (imageTens .write 10 tArr) fun t =>
    let q := { newCmd .mx (.mst ⟨0, 0⟩ 0 10) tArr with ts := [t], image := some (false, 0) }
    let s := tMxHead q
    let l := (imageBytes (s.c.m[0])).zipIdx.map fun b => ([b.2], b.1)
    headB s q && !(s.c.m[0]).poison && okB (homesOf (fun i => elemHomes s .write t.d (coords t i)) (l.map (·.1))) fun _ =>
      okB (regionCells s t l) fun cells => !partialPoison s cells) = true := by decide +kernel

theorem wit_MatrixExecute_store_poisoned : (okB (imageTens .write 10 tArr) fun t =>
    let q := { newCmd .mx (.mst ⟨0, 0⟩ 1 10) tArr with ts := [t], image := some (false, 1) }
    let s := (tMxHead q).onC fun c => { c with m := tPoisoned.c.m }
    let x := s.c.m[1]
    headB s q && x.poison && okB (homesOf (fun i => elemHomes s .write t.d (coords t i))
      ((List.range (imageSize x.dense x.s.length)).map fun b => [b])) fun hs => decide (hs.length ≥ 64)) = true := by decide +kernel

theorem wit_MatrixExecute_apply : (okB (wholeTensor tArr .write false 12) fun td => okB (useTens tArr 11 (some false)) fun ta =>
    let q := { newCmd .mx (.mapl ⟨0, 0⟩ 12 11 1) tArr with ts := [td, ta] }
    let s := tMxHead q
    headB s q && !(s.c.m[1]).poison && okB (engReady q s ta false (allIdx ta.ext)) fun _ =>
      okB ((List.range (ext0 ta)).mapM fun r => (List.range 128).mapM fun k => do
        let code ← codeAt s ta [r, k]
        let sc ← scaleAt s ta.d ta.scale false (coords ta [r, k])
        .ok (valOfCode ta code, sc)) fun rows => rows.length == 1
      && okB (regionCells s td ((allIdx td.ext).zip (List.replicate 128 1))) fun cells => !partialPoison s cells
      && okB (homesOf (fun i => elemHomes s .write td.d (coords td i)) (allIdx td.ext)) fun _ => true) = true := by decide +kernel

theorem wit_MatrixExecute_forms : (!(tArr.c.m[1]).poison && !(tArr.c.m[1]).dense && (tArr.c.m[1]).arr.isEmpty && (tArr.c.m[1]).s.length == 1
    && ((tArr.c.m[1]).u ++ (tArr.c.m[1]).v).all fun c => c.length == 128) = true := by decide +kernel

/-- Staging registers of the tests' task. -/
def tStg (l : List (Fin 32 × Word)) (s : State) : State := s.onC fun c => { c with
  r := { c.r with stg := l.foldl (fun v x => v.set x.1 x.2) c.r.stg } }

def entryB (k : Slot) (s : State) : Bool := decide ((queueOf k.idx s.c).length < 16)

/-- h6 as a column-scaled tensor, the second destination of cpq. -/
def tQuant : State := tRun.onC fun c => { c with r := { c.r with h := c.r.h.set 6 (tHandle 14 [2, 2] 0 0) } }

theorem wit_CopyIssue_copy : (ready .cp ⟨0, 0⟩ (.cpy ⟨0, 0⟩ 15 2 1) tRun && entryB .cp tRun
    && okB (offsetDst tRun 2 0 (some false)) (fun td => okB (offsetSrc tRun 1 td 0 (ext0 td) (some false)) fun t0 => okB (sameCodes td t0) fun _ =>
        let ts := if td.scale = none then { t0 with scale := none } else t0
        let ps := rowPairs td.ext 0 0
        okB (engWrites tRun td (ps.map (·.1))) fun ws => okB (engReads tRun ts false (ps.map (·.2))) fun rr =>
          okB (engScaleWrites tRun td.scale (scaleKeys td false (ps.map (·.1)))) fun sw => okB (engHold tRun (ws ++ rr ++ sw)) fun _ => true)
    && okB (offsetDst tRun 17 0 (some false)) (fun fd => okB (offsetSrc tRun 1 fd 0 (ext0 fd) (some false)) fun fs => fd.d.fmt != fs.d.fmt)
    && tStops (.cpy ⟨0, 0⟩ 0 17 1) tRun) = true := by decide +kernel

theorem wit_CopyIssue_transpose : (ready .cp ⟨0, 0⟩ (.cpt ⟨0, 0⟩ 15 2 1) tRun
    && okB (wholeTensor tRun .write false 2) (fun td => okB (useTens tRun 1 none) fun ts => td.ext == [2, 2] && ts.ext == [2, 2]
      && td.d.fmt == 0 && okB (rowsReach tRun .read false ts ((List.range 2).map fun j => ([j], 0, 2))) fun _ => okB (sameCodes td ts) fun _ =>
        okB (engWrites tRun td (allIdx td.ext)) fun ws =>
        okB (engReads tRun ts false ((allIdx td.ext).map fun i => [(i[1]?).getD 0, (i[0]?).getD 0])) fun rr => okB (engHold tRun (ws ++ rr)) fun _ => true)
    && tStops (.cpt ⟨0, 0⟩ 15 14 14) tRun && tStops (.cpt ⟨0, 0⟩ 15 2 1) (tStg [(8, 1)] tRun) && tStops (.cpt ⟨0, 0⟩ 15 2 1) (tStg [(9, 1)] tRun)
    && okB (wholeTensor tRun .write false 14) (fun td => td.ext == [2, 2] && td.d.fmt == 3)) = true := by decide +kernel

theorem wit_CopyIssue_quantize : (ready .cp ⟨0, 0⟩ (.cpq ⟨0, 0⟩ 0 5 1 3) tQuant && entryB .cp tQuant
    && okB (wholeTensor tQuant .write false 5) (fun f1 => okB (wholeTensor tQuant .write false 6) fun f2 =>
      okB (offsetSrc tQuant 1 f1 0 (ext0 f1)) fun ts => f1.ext == f2.ext && f1.ext.length == 2 && decide (ts.d.fmt ≤ 2)
      && decide (3 ≤ f1.d.fmt) && f1.d.fmt == f2.d.fmt && okB (wholeTensor tQuant .write false 5 (some false)) fun t1 => okB (wholeTensor tQuant .write false 6 (some true)) fun t2 =>
        let idxs := (rowPairs t1.ext 0 0).map (·.1)
        t1.scale.isSome && t2.scale.isSome && okB (engWrites tQuant t1 idxs) fun w1 => okB (engWrites tQuant t2 idxs) fun w2 =>
          okB (engReads tQuant ts false ((rowPairs t1.ext 0 0).map (·.2))) fun rr =>
          okB (engScaleWrites tQuant t1.scale (scaleKeys t1 false idxs)) fun k1 =>
          okB (engScaleWrites tQuant t2.scale (scaleKeys t2 true idxs)) fun k2 => okB (engHold tQuant (w1 ++ w2 ++ k1 ++ k2 ++ rr)) fun _ => true)
    && ready .cp ⟨0, 0⟩ (.cpqs ⟨0, 0⟩ 0 5 1 3) tRun && tStops (.cpqs ⟨0, 0⟩ 0 2 1 3) tRun
    && okB (wholeTensor tRun .write false 5) (fun fd => okB (offsetSrc tRun 1 fd 0 (ext0 fd) (some false)) fun ts => okB (wholeTensor tRun .write false 5 (some false)) fun td => match td.scale with
      | none => false
      | some sc =>
        let ps := rowPairs td.ext 0 0
        okB (engWrites tRun td (ps.map (·.1))) fun ws => okB (engReads tRun ts false (ps.map (·.2))) fun rr =>
          okB (pipeFault .read (homesOf (elemHomes tRun .read sc) (scaleKeys td false (ps.map (·.1))))) fun kr =>
          okB (engHold tRun (ws ++ rr ++ kr)) fun _ => true)) = true := by decide +kernel

theorem wit_CopyIssue_blocks : (ready .cp ⟨0, 0⟩ (.cpz ⟨0, 0⟩ 0 9 1) tRun && ready .cp ⟨0, 0⟩ (.cpx ⟨0, 0⟩ 0 2 9) tRun
    && okB (blockTensor tRun .write 9) (fun td => okB (regionTensor tRun .read 1 0) fun ts => td.d.layout == 2 && okB (sameCodes td ts) fun _ =>
      td.ext.length == ts.ext.length && count td.ext == 4 && okB (blockReach tRun .write td) fun ws => okB (engReads tRun ts false ((rowPairs ts.ext 0 0).map (·.1))) fun rr =>
        okB (engHold tRun (ws ++ rr)) fun _ => ((rowPairs ts.ext 0 0).map (·.1)).length == 4)
    && okB (blockTensor tRun .read 9) (fun ts => okB (regionTensor tRun .write 2 0) fun td => count ts.ext == 4 && td.ext.length == ts.ext.length
      && okB (engWrites tRun td ((rowPairs td.ext 0 0).map (·.1))) fun ws => okB (blockReach tRun .read ts) fun rr =>
        okB (engHold tRun (ws ++ rr)) fun _ => true)
    && tStops (.cpz ⟨0, 0⟩ 0 2 1) tRun && tStops (.cpx ⟨0, 0⟩ 0 2 1) tRun && okB (wholeTensor tRun .write false 2) (fun td => td.d.layout == 0)
    && okB (wholeTensor tRun .read false 1) (fun td => td.d.layout == 0)) = true := by decide +kernel

/-- A transaction with fourteen actions. -/
def tTxn14 : State := tTxn.onC fun c => { c with txn := { c.txn with acts := List.replicate 14 (.bara 0 0 0) } }

theorem wit_CopyIssue_publish : (([tRun, tTxn14, tStg [(11, 0x010001)] tRun].all fun s => ready .cp ⟨0, 0⟩ (.cpk ⟨0, 0⟩ 0 7 1) s
      && decide ((s.rdStg 11).toNat % 8 < s.c.info.nlev))
    && ready .cp ⟨0, 0⟩ (.cpk ⟨0, 0⟩ 0 7 1) (tStg [(11, 2)] tRun) && tStops (.cpk ⟨0, 0⟩ 0 7 1) (tStg [(11, 2)] tRun)
    && tRun.c.info.nlev == 2 && ready .cp ⟨0, 0⟩ (.cpk ⟨0, 0⟩ 0 2 1) tRun && tStops (.cpk ⟨0, 0⟩ 0 2 1) tRun
    && okB (offsetDst tRun 7 0) (fun td => td.view == 1 && okB (offsetSrc tRun 1 td 0 (ext0 td)) fun ts => okB (sameCodes td ts) fun _ =>
      okB (engWrites tRun td ((rowPairs td.ext 0 0).map (·.1))) fun ws => okB (engReads tRun ts false ((rowPairs td.ext 0 0).map (·.2))) fun rr =>
        okB (curHome tRun td.d.id) fun cur => okB (engHold tRun (ws ++ rr ++ [cur])) fun _ => true)
    && okB (offsetDst tRun 2 0) (fun td => td.view != 1 && okB (offsetSrc tRun 1 td 0 (ext0 td)) fun _ => true)) = true := by decide +kernel

/-- The other words of the slot: channels 14 and 15 of tBusy hold a command and none. -/
theorem wit_CopyIssue : (ready .cp ⟨0, 0⟩ (.cpbs ⟨0, 0⟩ 15 7 1) (tStg [(8, 3)] tRun)
    && okB (wholeTensor tRun .read false 1) (fun ts => okB (engReads tRun ts false ((allIdx ts.ext).drop 3)) fun rr => okB (engHold tRun rr) fun _ => true)
    && ready .cp ⟨0, 0⟩ (.cpw ⟨0, 0⟩ 14) tBusy && ready .cp ⟨0, 0⟩ (.cpw ⟨0, 0⟩ 15) tBusy && ready .cp ⟨0, 0⟩ (.cpab ⟨0, 0⟩ 14) tBusy
    && tBusy.c.cpq.all (fun q => q.slot == 5) && tGoes (.cpab ⟨0, 0⟩ 14) tBusy
    && ready .cp ⟨0, 0⟩ (.cpf ⟨0, 0⟩ 0 2) tRun && tGoes (.cpf ⟨0, 0⟩ 0 2) tRun && ready .cp ⟨0, 0⟩ (.cpr ⟨0, 0⟩ 0 2 1) tRun && !phaseHolds tRun
    && tGoes (.cpr ⟨0, 0⟩ 0 2 1) tRun && ready .cp ⟨0, 0⟩ (.cpr ⟨0, 0⟩ 0 2 1) (tStg [(9, 0x8000000000000000)] tRun)
    && (tStg [(9, 0x8000000000000000)] tRun).rdStg 9 == 0x8000000000000000 && !(tRun.rdStg 9).getLsbD 63
    && okB (wholeTensor tRun .write false 2) (fun td => okB (engWrites tRun td (allIdx td.ext)) fun ws => okB (engHold tRun ws) fun _ => true)
    && okB (useTens tRun 1 none) (fun t => okB (engReads tRun t false (allIdx t.ext)) fun _ => true)
    && okB (useTens tRun 2 none) fun t => okB (engWrites tRun t (allIdx t.ext)) fun _ => true) = true := by decide +kernel

/-- A command alone on its channel, with staging registers 0, 1, 2, ... of its slot. -/
def tCpCmd (i : Instr) (ts : List Tens) (stg : List Word) : Cmd :=
  { newCmd .cp i tRun with chan := 3, ts := ts, stg := stg ++ List.replicate (8 - stg.length) 0 }

/-- The same at the head of its channel. -/
def tCp (q : Cmd) (s : State) : State := s.onC fun c => { c with cpq := [q] }

def cpHead (s : State) (q : Cmd) : Bool :=
  q.slot == 5 && s.c.failing.isNone && s.c.spec.isNone && !laneHolds s q && !writesBehind s q && s.c.cpq.find? (fun x => x.chan == q.chan) == some q && decide (q.chan < 16)

/-- Codes of a source may be read and written to a destination. -/
def tMoves (q : Cmd) (s : State) (td ts : Tens) (ps : List (List Nat × List Nat)) (f : List Nat → List Host.Cell → Bool) : Bool :=
  cpHead s q && okB (engReady q s ts false (ps.map (·.2))) fun _ => okB (ps.mapM fun p => codeAt s ts p.2) fun codes =>
    okB (regionCells s td ((ps.map (·.1)).zip codes)) fun cells => !partialPoison s cells && f codes cells

theorem wit_CopyExecute_copy : (okB (useTens tRun 2 (some false)) fun td => okB (useTens tRun 1 (some false)) fun ts =>
    let q := tCpCmd (.cpy ⟨0, 0⟩ 3 2 1) [td, ts] [1, 1]
    let p := tCpCmd (.cpt ⟨0, 0⟩ 3 2 1) [td, ts] []
    tMoves q (tCp q tRun) td ts (rowPairs td.ext 1 1) (fun _ _ => td.scale.isNone && okB (copyScales tRun td ts (rowPairs td.ext 1 1)) fun _ => true)
    && tMoves p (tCp p tRun) td ts ((allIdx td.ext).map fun i => (i, [(i[1]?).getD 0, (i[0]?).getD 0])) fun codes _ => codes.length == 4)
      = true := by decide +kernel

/-- A copy between scaled tensors, with the scales that it writes. -/
theorem wit_CopyExecute_copy_scales : (okB (useTens tRun 5 (some false)) fun td =>
    let q := tCpCmd (.cpy ⟨0, 0⟩ 3 5 5) [td, td] []
    let ps := rowPairs td.ext 0 0
    tMoves q (tCp q tRun) td td ps fun _ c1 => okB (copyScales (tCp q tRun) td td ps) fun ks => match td.scale with
      | none => false
      | some x => okB (codeCells (tCp q tRun) x ks) fun c2 => !partialPoison (tCp q tRun) (c1 ++ c2)) = true := by decide +kernel

theorem wit_CopyExecute_quantize : (okB (useTens tQuant 5 (some false)) fun t1 => okB (useTens tQuant 6 (some true)) fun t2 =>
    okB (useTens tQuant 1 (some false)) fun ts =>
      let q := tCpCmd (.cpq ⟨0, 0⟩ 3 5 1 0) [t1, t2, ts] []
      let s := tCp q tQuant
      let ps := rowPairs t1.ext 0 0
      let idxs := ps.map (·.1)
      cpHead s q && okB (engReady q s ts false (ps.map (·.2))) fun _ => okB (ps.mapM fun p => valAt s ts false p.2) fun vs =>
        let vals := idxs.zip vs
        match t1.scale, t2.scale with
        | some x1, some x2 =>
          let s1 := runScales t1 false vals
          let s2 := runScales t2 true vals
          okB (regionCells s t1 (idxs.zip ((quantCodes t1 false 0 s1 vals).map (·.1)))) fun a1 => okB (codeCells s x1 s1) fun a2 =>
          okB (regionCells s t2 (idxs.zip ((quantCodes t2 true 0 s2 vals).map (·.1)))) fun b1 => okB (codeCells s x2 s2) fun b2 =>
            !partialPoison s (a1 ++ a2 ++ (b1 ++ b2))
        | _, _ => false) = true := by decide +kernel

theorem wit_CopyExecute_fixed_scales : (okB (useTens tRun 5 (some false)) fun td => okB (useTens tRun 1 (some false)) fun ts =>
    let q := tCpCmd (.cpqs ⟨0, 0⟩ 3 5 1 1) [td, ts] []
    let s := tCp q tRun
    let ps := rowPairs td.ext 0 0
    cpHead s q && okB (engReady q s ts false (ps.map (·.2))) fun _ => okB (scaleReady q s td (ps.map (·.1))) fun _ =>
      okB (ps.mapM fun p => do
        let v ← valAt s ts false p.2
        let k ← scaleAt s td.d td.scale false (coords td p.1)
        let y := divScale v k
        let z := rndEx td.d.fmt td.d.cb 1 y.1
        .ok (z.1, y.2 ||| z.2)) fun outs => okB (regionCells s td ((ps.map (·.1)).zip (outs.map (·.1)))) fun cells =>
        !partialPoison s cells) = true := by decide +kernel

/-- A block of four FP32 codes fits in 64 bytes and not in 32. -/
theorem wit_CopyExecute_compress : (okB (useTens tRun 9 none) fun t9 => okB (useTens tRun 1 none) fun ts => [32, 64].all fun res =>
    let td := { t9 with res := res }
    let q := tCpCmd (.cpz ⟨0, 0⟩ 3 9 1) [td, ts] []
    let s := tCp q tRun
    let idxs := (rowPairs ts.ext 0 0).map (·.1)
    cpHead s q && okB (engReady q s ts false idxs) fun _ => okB (idxs.mapM fun i => codeAt s ts i) fun codes =>
      okB (byteHomes s .write (blockVa td) td.res) fun hs =>
        let blk := blockOf ts.d.fmt codes
        decide (td.res < blk.length) == (res == 32) && !partialPoison s (hs.zip blk)) = true := by decide +kernel

/-- An all-zero block of four FP32 codes, and bytes that are no block (R207). -/
theorem wit_CopyExecute_expand : (okB (useTens tRun 9 none) fun ts => okB (useTens tRun 2 none) fun td =>
    ([[0, 0, 0, 0, 4, 0, 0, 0xA1], []] : List (List Byte)).all fun bs =>
      let q := tCpCmd (.cpx ⟨0, 0⟩ 3 2 9) [td, ts] []
      let s := tCp q (tRun.write (cellsAt (poolHome 0x900) bs))
      let idxs := (rowPairs td.ext 0 0).map (·.1)
      cpHead s q && okB (byteHomes s .read (blockVa ts) ts.res) fun hs => !(hs.any (emptyBut q s)) && !(hs.any (poisoned s))
        && match expandBlock td.d.fmt idxs.length ts.res (hs.map s.readByte) with
          | none => bs.isEmpty
          | some codes => !bs.isEmpty && okB (regionCells s td (idxs.zip codes)) fun cells => !partialPoison s cells) = true := by
  decide +kernel

theorem wit_CopyExecute_fill : (okB (useTens tRun 17 none) fun td =>
    let q := tCpCmd (.cpf ⟨0, 0⟩ 3 17) [td] [0x1FF]
    cpHead (tCp q tRun) q && okB (regionCells (tCp q tRun) td ((allIdx td.ext).map fun i => (i, 0xFF))) fun cells =>
      !partialPoison (tCp q tRun) cells) = true := by decide +kernel

/-- A publish whose CRC-32C agrees, with and without an arrival at level 0, and one whose CRC does not. -/
theorem wit_CopyExecute_publish : (okB (useTens tRun 7 none) fun td => okB (useTens tRun 1 none) fun ts =>
    let crc := (crc32c (rowsBy 2 [0x3F800000, 0x40000000, 0x40400000, 0x40800000] |>.flatMap (packRow 0))).setWidth 64
    [[0, 0, crc, 0], [0, 0, crc, 0x010100], [0, 0, 0, 0]].all fun stg =>
      let q := tCpCmd (.cpk ⟨0, 0⟩ 3 7 1) [td, ts] stg
      tMoves q (tCp q tRun) td ts (rowPairs td.ext 0 0) fun codes _ => q.image.isNone && !q.joined && !(barOf tRun.c 1).arrived
        && (crc32c ((rowsBy (rowLen td.ext) codes).flatMap (packRow ts.d.fmt)) == (q.stgAt 2).setWidth 32) == (stg != [0, 0, 0, 0])) = true := by
  decide +kernel

/-- The host, with a range that may be read and written, and a node of the pod. -/
def tRemote : State := { tRun with
  links := { tRun.links with linkUp := true, ide := true, pod := some (0, 1), planes := 1 }
  mon := { tRun.mon with ctxs := [(1, { tContext with hranges := [(0, ⟨0x1000, 0x2000, true, true⟩)], job := some 5 })] } }

theorem wit_CopyExecute_remote : (okB (useTens tRun 1 none) fun t => [0x800000000000FFFF, 0xFFFF, 0x800000000000023F, 0x23F].all fun (w : Word) =>
    let q := tCpCmd (.cpr ⟨0, 0⟩ 3 2 1) [t] [0x1FF0, w]
    let s := tCp q tRemote
    cpHead s q && remoteOk s w 0x1FF0 16 && !selfTarget s w && ((remoteHomes s .write w 0x1FF0 16).isSome == (w.toNat % 65536 == 0xFFFF)) && (rowsOf t.ext).length * packLen t.d.fmt (rowLen t.ext) == 16
    && okB (engReady q s t false (allIdx t.ext)) fun _ => okB ((allIdx t.ext).mapM fun i => codeAt s t i) fun _ =>
      okB (regionCells s t ((allIdx t.ext).zip ((chunks (packLen t.d.fmt (rowLen t.ext)) (rowsOf t.ext).length
        (List.replicate 16 0)).flatMap (unpackRow t.d.fmt (rowLen t.ext))))) fun cells => !partialPoison s cells) = true := by decide +kernel

/-- A target that is the task's own package: bytes of its own context (R178). -/
theorem wit_CopyExecute_remote_own : (okB (useTens tRun 1 none) fun t => [0x8000000000000000, 0].all fun (w : Word) =>
    let q := tCpCmd (.cpr ⟨0, 0⟩ 3 2 1) [t] [0x70000, w]
    let s := tCp q tRemote
    cpHead s q && selfTarget s w && remoteOk s w 0x70000 16 && match remoteHomes s (if w = 0 then .read else .write) w 0x70000 16 with
      | none => false
      | some hs => hs.length == 16 && !partialPoison s (hs.zip (List.replicate 16 0))
        && okB (regionCells s t ((allIdx t.ext).zip ((chunks (packLen t.d.fmt (rowLen t.ext)) (rowsOf t.ext).length
          (hs.map s.readByte)).flatMap (unpackRow t.d.fmt (rowLen t.ext))))) fun cells => !partialPoison s cells) = true := by decide +kernel

/-- A publish whose arrival meets barrier 1 under way at another level. -/
theorem wit_CopyExecute_clash : (okB (useTens tRun 7 none) fun td => okB (useTens tRun 1 none) fun ts => [none, some (true, 0)].all fun y =>
    let crc := (crc32c (rowsBy 2 [0x3F800000, 0x40000000, 0x40400000, 0x40800000] |>.flatMap (packRow 0))).setWidth 64
    let q := { tCpCmd (.cpk ⟨0, 0⟩ 3 7 1) [td, ts] [0, 0, crc, 0x010100] with image := y }
    let s := (tCp q tRun).onC fun c => { c with bars := [(1, ⟨1, true, false, false⟩)] }
    cpHead s q && levelClash s.c 1 0 && tMoves q s td ts (rowPairs td.ext 0 0) fun _ _ => true) = true := by decide +kernel

/-- A bound stream at its first element, with and without a load that waits. -/
theorem wit_CopyExecute_stream : (okB (useTens tRun 1 none) fun t => [[], [((6 : BitVec 7), (0x1000 : Word))]].all fun ws =>
    let q := tCpCmd (.cpbs ⟨0, 0⟩ 3 7 1) [t] []
    let s := (tCp q tRun).onC fun c => { c with z := c.z.set 7 ⟨true, 3, some t, 0, false, 0, [], ws, none⟩ }
    chanHead s.c 3 == some q && s.c.failing.isNone && s.c.spec.isNone && !laneHolds s q && !writesBehind s q && decide (1 < count t.ext)
    && okB (engReady q s t false [((allIdx t.ext)[0]?).getD []]) fun _ => okB (codeAt s t (((allIdx t.ext)[0]?).getD [])) fun _ => true)
      = true := by decide +kernel

theorem wit_SparseIssue_rows : ((([(.gth ⟨0, 0⟩ 2 1 4, 0), (.sct ⟨0, 0⟩ 2 1 4, 1), (.scta ⟨0, 0⟩ 2 1 4, 2), (.flt ⟨0, 0⟩ 2 1 3, 3)] :
    List (Instr × Nat)).all fun (i, k) => ready .sp ⟨0, 0⟩ i tRun && entryB .sp tRun
      && okB (wholeTensor tRun .write false 2) fun td => okB (spSource tRun 1 (if k = 2 then some false else none)) fun (ta, ra) =>
        okB (spSource tRun (if k = 3 then 3 else 4) none) fun (tb, rb) => td.d.fmt == 0 && okB (sameCodes td ta) fun _ => td.ext == ta.ext
          && tb.ext.length == 1 && (if k = 3 then tb.d.fmt == 12 else tb.d.fmt == 8) && decide (2 ≤ ext0 tb)
          && okB (engWrites tRun td (allIdx td.ext)) fun ws => okB (if k = 2 then engReads tRun td false (allIdx td.ext) else .ok []) fun rd =>
            okB (engHold tRun (ws ++ ra ++ rb ++ rd)) fun _ => true)
  && ([Instr.gth ⟨0, 0⟩ 17 1 4, .scta ⟨0, 0⟩ 17 1 4, .flt ⟨0, 0⟩ 2 1 4, .gth ⟨0, 0⟩ 2 1 1].all fun i =>
    ready .sp ⟨0, 0⟩ i tRun && tStops i tRun)
  && okB (wholeTensor tRun .write false 17) (fun td => td.d.fmt == 8)) = true := by decide +kernel

theorem wit_SparseIssue : (ready .sp ⟨0, 0⟩ (.bmk ⟨0, 0⟩ 3 1 1) tRun && ready .sp ⟨0, 0⟩ (.bmk ⟨0, 0⟩ 2 1 1) tRun && tStops (.bmk ⟨0, 0⟩ 2 1 1) tRun
    && okB (wholeTensor tRun .write false 3) (fun td => okB (spSource tRun 1 (some false)) fun (ta, ra) => td.d.fmt == 12 && td.ext.length == 1
      && decide ((count ta.ext + 7) / 8 ≤ ext0 td) && okB (engWrites tRun td (span 0 ((count ta.ext + 7) / 8))) fun ws =>
        okB (engHold tRun (ws ++ ra ++ ra)) fun _ => true)
    && ready .sp ⟨0, 0⟩ (.cnt ⟨0, 0⟩ 6 3) tRun && ready .sp ⟨0, 0⟩ (.cnt ⟨0, 0⟩ 6 1) tRun && tStops (.cnt ⟨0, 0⟩ 6 1) tRun
    && okB (wholeTensor tRun .read false 3) (fun ta => ta.d.fmt == 12 && ta.ext.length == 1 && okB (engReads tRun ta false (allIdx ta.ext)) fun ra =>
      okB (engHold tRun ra) fun _ => true)
    && ready .sp ⟨0, 0⟩ (.dfr ⟨0, 0⟩ 1 3) tRun && ready .sp ⟨0, 0⟩ (.dfr ⟨0, 0⟩ 17 3) tRun && tStops (.dfr ⟨0, 0⟩ 17 3) tRun
    && okB (wholeTensor tRun .read false 1) (fun ta => okB (wholeTensor tRun .read false 3) fun tb => ta.d.fmt == 0 && tb.d.fmt == 12
      && ta.ext == [2, 2] && tb.ext == [8] && okB (engReads tRun ta false (allIdx ta.ext)) fun ra =>
        okB (engReads tRun tb false (allIdx tb.ext)) fun rb => okB (engHold tRun (ra ++ rb)) fun _ => true)
    && ready .sp ⟨0, 0⟩ (.dfd ⟨0, 0⟩ 2 13) tRun && okB (wholeTensor tRun .write false 2) (fun td => okB (wholeTensor tRun .write false 13) fun ta =>
      td.d.fmt == 0 && ta.d.fmt == 11 && td.ext == [2, 2] && ta.ext == [2] && okB (engWrites tRun td (allIdx td.ext)) fun w1 =>
        okB (engWrites tRun ta (allIdx ta.ext)) fun w2 => okB (engHold tRun (w1 ++ w2)) fun _ => true)) = true := by decide +kernel

/-- A command alone in the sp queue. -/
def tSp (i : Instr) (ts : List Tens) : Cmd := { newCmd .sp i tRun with ts := ts }
def tSpHead (q : Cmd) : State := tRun.onC fun c => { c with spq := [q] }

/-- h2, h1 and the index or mask tensor b. -/
def tThree (b : BitVec 5) (f : Tens → Tens → Tens → Bool) : Bool :=
  okB (useTens tRun 2 (some false)) fun td => okB (useTens tRun 1 (some false)) fun ta => okB (useTens tRun b none) fun tb => f td ta tb

theorem wit_SparseExecute_rows : (tThree 4 fun td ta tb =>
    ([Instr.gth ⟨0, 0⟩ 2 1 4, .sct ⟨0, 0⟩ 2 1 4, .scta ⟨0, 0⟩ 2 1 4].all fun i => headB (tSpHead (tSp i [td, ta, tb])) (tSp i [td, ta, tb]))
    && (let q := tSp (.gth ⟨0, 0⟩ 2 1 4) [td, ta, tb]
        let s := tSpHead q
        okB (engReady q s tb false (span 0 2)) fun _ => okB ((span 0 2).mapM (codeAt s tb)) fun cs =>
          cs.map (intOfCode tb.d.fmt) == [1, 0] && okB (engReady q s ta false (rowIdx ta.ext 0)) fun _ =>
          okB (engReady q s ta false (rowIdx ta.ext 1)) fun _ => okB ([1, 0].mapM fun x => (rowIdx ta.ext x).mapM (codeAt s ta)) fun rows =>
          okB (regionCells s td ((lastRows ((List.range 2).zip rows)).flatMap fun r => (rowIdx td.ext r.1).zip r.2)) fun cells =>
            !partialPoison s cells)
    && (let q := tSp (.scta ⟨0, 0⟩ 2 1 4) [td, ta, tb]
        let s := tSpHead q
        okB (engReady q s ta false (allIdx ta.ext)) fun _ => okB (engReady q s td false (allIdx td.ext)) fun _ =>
          okB ((allIdx td.ext).mapM fun i => valAt s td false i) fun _ => okB ((allIdx ta.ext).mapM fun i => valAt s ta false i) fun _ =>
          ([(1, (0 : Int)), (0, 1)] : List (Nat × Int)).all fun x => inRows td x.2 == some x.2.toNat)) = true := by decide +kernel

theorem wit_SparseExecute_filter : (tThree 3 fun td ta tb => ([td, { td with ext := [1, 2] }] : List Tens).all fun td =>
    let q := tSp (.flt ⟨0, 0⟩ 2 1 3) [td, ta, tb]
    let s := tSpHead q
    headB s q && okB (maskBits q s tb (ext0 ta)) fun bits => (bits == [true, true]) && (decide (ext0 td < 2) == (td.ext == [1, 2]))
      && ((td.ext == [1, 2]) || okB (engReady q s ta false (allIdx ta.ext)) fun _ =>
        okB ([0, 1].mapM fun i => (rowIdx ta.ext i).mapM (codeAt s ta)) fun rows =>
        okB (regionCells s td ((lastRows ((List.range 2).zip rows)).flatMap fun r => (rowIdx td.ext r.1).zip r.2)) fun cells =>
          !partialPoison s cells)) = true := by decide +kernel

theorem wit_SparseExecute_masks : (okB (useTens tRun 18 none) fun td => okB (useTens tRun 1 (some false)) fun ta => okB (useTens tRun 3 none) fun tb =>
    (let q := tSp (.bmk ⟨0, 0⟩ 18 1 1) [td, ta, ta]
     let s := tSpHead q
     headB s q && okB (engReady q s ta false (allIdx ta.ext)) fun _ => okB ((allIdx ta.ext).mapM fun i => do
       let x ← valAt s ta false i
       let y ← valAt s ta false (pick ta ta i)
       .ok (!x.isNan && !y.isNan && Machine.Num.cmp x.abs y.abs == Ordering.gt)) fun bits =>
         okB (regionCells s td (((chunks 8 (bits.length / 8 + 1) bits).map fun b =>
           (b.zipIdx.map fun x => if x.1 then 2 ^ x.2 else 0).sum).zipIdx.map fun b => ([b.2], b.1))) fun cells => !partialPoison s cells)
    && (let q := tSp (.cnt ⟨0, 0⟩ 6 3) [tb]
        headB (tSpHead q) q && okB (maskBits q (tSpHead q) tb (8 * ext0 tb)) fun bits => bits.count true == 2)
    && [0, 4094, 4095].all fun n =>
      let q := tSp (.dfr ⟨0, 0⟩ 1 3) [ta, tb]
      let s := (tSpHead q).onC fun c => { c with poste := List.replicate n ⟨0, 0, []⟩ }
      headB s q && okB (maskBits q s tb (ext0 ta)) fun bits => (bits == [true, true]) && okB (engReady q s ta false (allIdx ta.ext)) fun _ =>
        okB ([0, 1].mapM fun i => (rowIdx ta.ext i).mapM (codeAt s ta)) fun _ => decide (s.c.poste.length + 2 ≤ 4096) == (n != 4095)) = true := by
  decide +kernel

/-- A deferred row on path 0, and one on path 1. -/
theorem wit_SparseExecute_deliver : (okB (useTens tRun 2 none) fun td => okB (useTens tRun 13 none) fun ta =>
    let q := tSp (.dfd ⟨0, 0⟩ 2 13) [td, ta]
    let s := (tSpHead q).onC fun c => { c with poste := [⟨5, 1, [9]⟩, ⟨6, 0, [7, 8]⟩] }
    let got := (s.c.poste.filter fun e => e.path == 0).take (ext0 td)
    headB s q && got.length == 1 && okB (regionCells s td ((allIdx td.ext).zip [7, 8, 0, 0])) fun c1 =>
      okB (regionCells s ta ((allIdx ta.ext).zip [6, 0xFFFF])) fun c2 => !partialPoison s (c1 ++ c2)) = true := by decide +kernel

/-- Source descriptor 1 and destination 2 of a collective, in sy:0. -/
def tColl : State := tStg [(24, 0x00020001)] tRun

theorem wit_SyncIssue : (([Instr.fence ⟨0, 0⟩ 7, .evs ⟨0, 0⟩ 0xFF, .plan ⟨0, 0⟩ 0x3FF, .pexec ⟨0, 0⟩ 0, .hint ⟨0, 0⟩ 0, .pin ⟨0, 0⟩ 0, .unpin ⟨0, 0⟩ 0,
      .statr ⟨0, 0⟩ 6 0xFFF, .phase ⟨0, 0⟩ 0, .statw ⟨0, 0⟩ 0, .xbeg ⟨0, 0⟩, .xabt ⟨0, 0⟩, .cwt ⟨0, 0⟩ 0, .pwait ⟨0, 0⟩ 0, .evw ⟨0, 0⟩ 0, .yld ⟨0, 0⟩,
      .bara ⟨0, 0⟩ 63, .pub ⟨0, 0⟩ 7].all fun i => ready .sy ⟨0, 0⟩ i tRun && tGoes i tRun) && entryB .sy tRun && !tRun.c.txn.act
    && okB (statHome tRun .write 0 0) (fun _ => true) && okB (statHome tTxn .write 0 0) (fun _ => true) && (planOf tRun 0).isNone && tRun.c.failing.isNone
    && ([Instr.collAr ⟨0, 0⟩ 0, .collRs ⟨0, 0⟩ 0, .collAg ⟨0, 0⟩ 0, .collA2a ⟨0, 0⟩ 0, .collBc ⟨0, 0⟩ 0xFF].all fun i => ready .sy ⟨0, 0⟩ i tColl
      && tGoes i tColl)
    && okB (wholeTens tColl ((tColl.rdStg 24).toNat % 4096)) (fun ts => okB (wholeTens tColl ((tColl.rdStg 24).toNat / 2 ^ 16 % 4096)) fun td =>
      okB (engReads tColl ts false (allIdx ts.ext)) fun rr => okB (engWrites tColl td (allIdx td.ext)) fun ws => okB (groupPages tColl 0) fun gs => okB (engHold tColl (rr ++ ws ++ gs)) fun _ =>
        ts.d.fmt == 0 && td.d.fmt == 0)
    && (let s := tStg [(24, 0x00020011)] tRun
        ready .sy ⟨0, 0⟩ (.collAr ⟨0, 0⟩ 0) s && tStops (.collAr ⟨0, 0⟩ 0) s)) = true := by decide +kernel

/-- Barrier 1 with an arrival, issued and pending, and one that is complete; barrier 2 idle; levels 1 and 2 in sy:0. -/
def tBar (arrived : Bool) (level : Word) : State := (tStg [(24, level)] tRun).onC fun c => { c with bars := [(1, ⟨0, arrived, arrived, true⟩)] }

theorem wit_SyncIssue_barriers : (ready .sy ⟨0, 0⟩ (.bara ⟨0, 0⟩ 1) (tBar true 2) && tStops (.bara ⟨0, 0⟩ 1) (tBar true 2)
    && ready .sy ⟨0, 0⟩ (.bara ⟨0, 0⟩ 1) (tBar true 1) && tStops (.bara ⟨0, 0⟩ 1) (tBar true 1)
    && ready .sy ⟨0, 0⟩ (.bara ⟨0, 0⟩ 1) (tBar true 0) && tGoes (.bara ⟨0, 0⟩ 1) (tBar true 0)
    && ready .sy ⟨0, 0⟩ (.bara ⟨0, 0⟩ 1) tTxn && tGoes (.bara ⟨0, 0⟩ 1) tTxn && tTxn.c.txn.act
    && ready .sy ⟨0, 0⟩ (.barw ⟨0, 0⟩ 1) (tBar true 0) && arrivalPending (tBar true 0).c 1
    && ready .sy ⟨0, 0⟩ (.barw ⟨0, 0⟩ 1) (tBar false 0) && !arrivalPending (tBar false 0).c 1 && tGoes (.barw ⟨0, 0⟩ 1) (tBar false 0)
    && !(barOf tRun.c 2).issued && tStops (.barw ⟨0, 0⟩ 2) tRun && ready .sy ⟨0, 0⟩ (.barw ⟨0, 0⟩ 2) tRun
    && ready .sy ⟨0, 0⟩ (.bar ⟨0, 0⟩ 1) (tBar true 1) && tStops (.bar ⟨0, 0⟩ 1) (tBar true 1) && ready .sy ⟨0, 0⟩ (.bar ⟨0, 0⟩ 1) tTxn
    && ready .sy ⟨0, 0⟩ (.bar ⟨0, 0⟩ 1) tRun && tRun.c.barRec != some tRun.c.pc && !(barOf tRun.c 1).arrived
    && (let s := (tBar false 0).onC fun c => { c with barRec := some 0x1000 }
        ready .sy ⟨0, 0⟩ (.bar ⟨0, 0⟩ 1) s && tGoes (.bar ⟨0, 0⟩ 1) s)) = true := by decide +kernel

/-- A pub of a tensor with no writer, with a writer that failed, in a transaction; an operand without a shadow, and a level too high. -/
theorem wit_SyncIssue_pub : (([tRun, tRun.onC fun c => { c with writers := [(7, (3, true))] }, tTxn].all fun s =>
      ready .sy ⟨0, 0⟩ (.pub ⟨0, 0⟩ 7) s && tGoes (.pub ⟨0, 0⟩ 7) s && okB (useTens s 7 none) fun t => t.view == 1 && t.d.id == 7 && okB (curHome s 7) fun a => !homePoisoned s a)
    && ready .sy ⟨0, 0⟩ (.pub ⟨0, 0⟩ 1) tRun && tStops (.pub ⟨0, 0⟩ 1) tRun && okB (useTens tRun 1 none) (fun t => t.view == 0)
    && ready .sy ⟨0, 0⟩ (.pub ⟨0, 0⟩ 7) (tBar false 2) && tStops (.pub ⟨0, 0⟩ 7) (tBar false 2)) = true := by decide +kernel

/-- Transactions: in progress, with sixteen actions, with a command before it. -/
theorem wit_SyncIssue_transactions : (ready .sy ⟨0, 0⟩ (.phase ⟨0, 0⟩ 0) tTxn && tStops (.phase ⟨0, 0⟩ 0) tTxn && ready .sy ⟨0, 0⟩ (.statw ⟨0, 0⟩ 0) tTxn
    && ready .sy ⟨0, 0⟩ (.xbeg ⟨0, 0⟩) tTxn && tStops (.xbeg ⟨0, 0⟩) tTxn && ready .sy ⟨0, 0⟩ (.xbeg ⟨0, 0⟩) tBusy && !tBusy.c.syq.isEmpty
    && ready .sy ⟨0, 0⟩ (.xend ⟨0, 0⟩) tRun && tStops (.xend ⟨0, 0⟩) tRun && ready .sy ⟨0, 0⟩ (.xend ⟨0, 0⟩) tTxn14 && tGoes (.xend ⟨0, 0⟩) tTxn14
    && tTxn14.c.syq.isEmpty && tTxn14.c.cpq.isEmpty && tTxn14.c.failing.isNone && !(tTxn14.c.txn.acts.any (joinedWaits tTxn14.c))
    && tTxn14.c.txn.acts.length == 14 && ready .sy ⟨0, 0⟩ (.xabt ⟨0, 0⟩) tTxn
    && (let s := tRun.onC fun c => { c with xendRec := some 0x1000 }
        ready .sy ⟨0, 0⟩ (.xend ⟨0, 0⟩) s && !s.c.txn.act && tGoes (.xend ⟨0, 0⟩) s)
    && (let s := tBusy.onC fun c => { c with txn := tTxn.c.txn }
        ready .sy ⟨0, 0⟩ (.xend ⟨0, 0⟩) s && s.c.txn.act && !s.c.syq.isEmpty && ready .sy ⟨0, 0⟩ (.xabt ⟨0, 0⟩) s && !s.c.lanes.flatten.isEmpty)
    && (let s := (poisonHomes [0x101D8] tTxn).onC fun c => { c with txn := { c.txn with acts := [.pub 7 0] } }
        ready .sy ⟨0, 0⟩ (.xend ⟨0, 0⟩) s && (s.c.txn.acts.findSome? (joinedPoison s)).isSome && !(s.c.txn.acts.any (joinedWaits s.c))
        && s.c.failing.isNone && s.c.syq.isEmpty && s.c.cpq.isEmpty)
    && (let s := tTxn.onC fun c => { c with txn := { c.txn with acts := List.replicate 16 (.bara 0 0 0) } }
        s.c.txn.act && s.c.txn.acts.length == 16)) = true := by decide +kernel

/-- A command alone in the sy queue, in a state. -/
def tSy (i : Instr) (ts : List Tens) : Cmd := { newCmd .sy i tRun with ts := ts }
def tSyHead (q : Cmd) (s : State) : State := s.onC fun c => { c with syq := [q] }

theorem wit_SyncExecute : (([Instr.phase ⟨0, 0⟩ 0, .fence ⟨0, 0⟩ 0, .bara ⟨0, 0⟩ 1, .bar ⟨0, 0⟩ 63, .statr ⟨0, 0⟩ 6 0xFFF, .statw ⟨0, 0⟩ 0, .evs ⟨0, 0⟩ 0].all fun i =>
      let q := tSy i []
      let s := tSyHead q tRun
      headB s q && s.c.lanes.flatten.isEmpty && (earlierCmds q s.c).isEmpty && s.c.phaseAt.isNone && !(barOf s.c 1).arrived && !(barOf s.c 63).arrived
      && s.ctx?.isSome && match exec .syCommandExecute s with | .next t => t.c.failing.isNone | _ => false)
    && okB (statHome tRun .write 0 0) (fun a0 => (List.range 8).all fun w => okB (statHome tRun .write 0 w) fun a => a == a0 + 8 * w
      && (cellsAt a0 (natLe 8 0) ++ cellsAt a (natLe 8 0)).all (fun c => sameKey tRun.keyed c.1) && !homePoisoned tRun a0)
    && okB (statHome tRun .read 0xFFF 0) (fun a => !homePoisoned tRun a)
    && okB (useTens tRun 7 none) fun t => headB (tSyHead (tSy (.pub ⟨0, 0⟩ 7) [t]) tRun) (tSy (.pub ⟨0, 0⟩ 7) [t])) = true := by decide +kernel

/-- A group of one member (Table 22-2) at entry 0: the task itself. -/
def tGroup : State := tRemote.write (cellsAt 0x50000 ([1, 0, 1, 2] ++ natLe 4 1 ++ natLe 4 1 ++ natLe 4 5 ++ natLe 8 0x50400)
  ++ cellsAt 0x50400 (natLe 8 0x1000000000000))

theorem wit_SyncExecute_collective : (okB (useTens tGroup 1 none) fun ts => okB (useTens tGroup 2 none) fun td =>
    ([(.collAr ⟨0, 0⟩ 0, 0), (.collRs ⟨0, 0⟩ 0, 1), (.collAg ⟨0, 0⟩ 0, 2), (.collA2a ⟨0, 0⟩ 0, 3), (.collBc ⟨0, 0⟩ 0, 4)] : List (Instr × Nat)).all fun (i, k) =>
      let q := tSy i [td, ts]
      let s := tSyHead q tGroup
      headB s q && s.c.colls.isEmpty && okB (loadGroup s 0) fun g => memberIndex s g.1 g.2 == some 0 && ownShape k g.1.nmem 0 td ts
        && okB (engReady q s ts false (allIdx ts.ext)) fun _ => okB ((allIdx ts.ext).mapM (codeAt s ts)) fun c => c.length == 4) = true := by
  decide +kernel

/-- A pending atomic at a phase, and an arrival of barrier 1. -/
theorem wit_SyncExecute_boundary : (
    (let s := (tSyHead (tSy (.phase ⟨0, 0⟩ 0) []) (tRanked 1)).onC fun c => { c with phaseAt := some 0 }
     s.c.phaseAt == some 0 && s.c.syq.head?.isSome && match exec (.phaseBoundaryComplete ⟨[], []⟩) s with | .next t => t.c.syq.isEmpty | _ => false)
    && (barOf (tBar true 0).c 1).arrived && tRun.c.syq.isEmpty) = true := by decide +kernel

/-- A collective of three members of which the task is member 2. -/
theorem wit_SyncExecute_members : (okB (useTens tRun 1 none) fun ts => okB (useTens tRun 2 none) fun td =>
    ([(.collAr ⟨0, 0⟩ 0, 0), (.collBc ⟨0, 0⟩ 0, 4)] : List (Instr × Nat)).all fun (i, k) =>
      let q := tSy i [td, ts]
      let c : Coll := ⟨0, k, 0, 0, ts, td, [1, 2, 3, 4], [], [], 0, 3, 2⟩
      let s := (tSyHead q tRun).onC fun x => { x with colls := [c] }
      let l : List Contribution := [⟨0, 0, td.d.anchor, [1, 2, 3, 4], ts.ext⟩, ⟨1, 0, td.d.anchor, [1, 2, 3, 4], ts.ext⟩]
      collAt 0 s == some (c, q) && q.slot == 7 && !laneHolds s q && !writesBehind s q && ((List.range 3).map fun j => (0 + 1 + j) % 3).find? [2].contains == some 2
      && (match allContribs c l with
        | none => false
        | some l => (match collCodes c l with
          | .error _ => false
          | .ok outs => okB (regionCells s td ((allIdx td.ext).zip (outs.map (·.1)))) fun cells => !partialPoison s cells))
      && match exec (.collectiveComplete 0 l false) s with | .next t => t.c.syq.isEmpty && t.c.failing.isNone | _ => false) = true := by
  decide +kernel

/-- An event that takes place: it answers a next state, which has the property. -/
def tEvent (i : Instr) (s : State) (f : State → Bool) : Bool := match exec i s with | .next t => f t | _ => false

theorem wit_CoreEvents_lanes : ((([(.sc, 0), (.ar, 1), (.ve, 2)] : List (Lane × Nat)).all fun (l, n) => match laneOf tBusy n with
      | x :: rest =>
        let t := runReleased (laterTiles x.no tBusy) x (tBusy.onC fun c => { c with lanes := c.lanes.set n rest })
        !t.c.bun.stall && !t.c.bun.stopped && tEvent (.slipRelease l) tBusy fun u => u.c.lanes.flatten.length == 2
      | [] => false)
    && tBusy.c.info.patch.slots.isEmpty && tEvent (.slipWaitTimeout .ve) tBusy (fun u => u.c.ended)
    && (let s := tRun.onC fun c => { c with z := c.z.set 7 ⟨true, 3, none, 0, false, 0, [], [(6, 0x0FE0)], none⟩ }
        tEvent (.slipWaitTimeout (.stream 7)) s fun u => u.c.ended && u.c.trap.tpc == 0x0FE0)) = true := by decide +kernel

/-- The next bundle: at an address that is no multiple of 32, in no range, in a range without X, and in a poisoned block. -/
def tPcAt (a : Word) : State := tRun.onC fun c => { c with pc := a }

theorem wit_CoreEvents_fetch : (([0x1004, 0x300000, 0x70000].all fun a => active (tPcAt a) && (tPcAt a).c.tripAt.isNone && (tPcAt a).c.view.isNone
      && (tPcAt a).c.resume.isNone && trapReady (tPcAt a) && (fetchFault? (tPcAt a)).isSome && tEvent .fetchFault (tPcAt a) fun u => u.c.ended)
    && (let s := poisonHomes [0x101F] tRun
        (fetchFault? s).map (·.1) == some 0x43) && (fetchFault? tRun).isNone && tRun.c.resume.isNone) = true := by decide +kernel

/-- Two pending execution faults, and a failed command whose dead letter has a place (Table 6-4). -/
def tPending : State := tArmed.onC fun c => { c with trap := { c.trap with pend := [⟨6, 0x75, 0⟩, ⟨5, 0x72, 1⟩] } }
def tFailing : State := tBusy.onC fun c => { c with
  info := { c.info with dla := 0x70000 }, failing := some ⟨newCmd .mx (.mzr ⟨0, 0⟩ 1) tRun, 0x40, 1, 0⟩ }

theorem wit_CoreEvents_faults : ((firstPend tPending.c.trap.pend).any (fun p => p.slot == 5 && toHandler p.cause) && active tPending && atBoundary tPending
    && tPending.c.resume.isNone && !waitsInFlight tPending.c && tPending.c.spec.isNone && tPending.c.info.patch.slots.isEmpty
    && !tPending.c.trap.handler && tPending.c.trap.entry == some 0x2000 && tEvent .trapEntry tPending (fun t => t.c.pc == 0x2000)
    && tFailing.c.failing.any (fun f => !joinedFailed f tFailing) && !tFailing.c.ended
    && okB (translate tFailing 1 .write false (0x70000 + 64 * tFailing.c.trap.dlaIdx.toNat)) (fun _ => true)
    && tEvent .executionFault tFailing fun t => t.c.mxq.isEmpty && t.c.trap.pend.length == 1) = true := by decide +kernel

theorem wit_CoreEvents_speculation : ([false, true].all fun b =>
    let s := tSpec.onC fun c => { c with spec := c.spec.map fun x => { x with val := some b } }
    s.c.spec.isSome && s.c.inflight.isEmpty && atBoundary s && !s.c.txn.act && s.c.spec.any (fun x => x.infl.all fun e => decide (s.c.now < e.due))
    && tEvent .speculationResolve s fun t => t.c.pc == if b then 0x1000 else 0x3000) = true := by decide +kernel

def tEmuAt (pos issued : Nat) : State := tRun.onC fun c => { c with
  emu := some ⟨1, 0x02910202, 5, 0, 4, pos, issued, Vector.replicate 8 0, 0, Bundle.idle⟩ }

theorem wit_CoreEvents_emulation : (([tEmuAt 3 4096, tEmuAt 4 4096].all fun s => (dueFirst s.c).isNone && !waitsInFlight s.c && (awaited s.c).isEmpty
      && tEvent .emulationSequence s fun _ => true)
    && (tEmuAt 3 4096).c.emu.any (fun e => e.issued ≤ 4096 && (emuBundle e (tEmuAt 3 4096)).isSome)
    && tEvent .emulationOverrun (tEmuAt 3 4097) fun t => t.c.ended) = true := by decide +kernel

theorem wit_CoreEvents : (
    (let s := tRun.onC fun c => { c with sinceSafe := 65537 }
     active s && s.c.info.patch.slots.isEmpty && tEvent .safePointDistanceExceeded s fun t => t.c.ended)
    && ([1, 5].all fun r => tTxn.c.txn.act && tEvent (.transactionAbort r) tTxn fun t => !t.c.txn.act)
    && okB (useTens tRun 1 none) fun t => okB (useTens tRun 2 none) fun td =>
      let q := { newCmd .cp (.cpy ⟨0, 0⟩ 3 2 1) tRun with chan := 3, ts := [td, t] }
      let s := tRun.onC fun c => { c with cpq := [q], counts := [(tileOf (poolHome 0), 1)] }
      engineHead .cp 3 s.c == some q && s.c.failing.isNone && tileWaits q s && tEvent (.queueFullEmptyTimeout .cp 3) s fun t => t.c.failing.isSome)
      = true := by decide +kernel

/-- A query block of one node at 0x70000: tensor 7 takes the sum of tensor 1 and itself (Tables 14-1 to 14-3). -/
def tBlock : List Byte := natLe 64 0x010001 ++ [4, 0, 2, 0] ++ natLe 2 7 ++ natLe 2 0 ++ [0, 0] ++ natLe 2 1 ++ natLe 4 0 ++ natLe 2 1 ++ natLe 2 1

def tNode : PlanNode := ⟨4, 0, 2, 0, 7, 0, 0, 1, 0, [1, 1], []⟩

/-- Its task, in a context that has the operator registered, and with a plan on handle 3. -/
def tPlanned (hs : List (Nat × PlanHandle)) : State := { tRun with
  mem := (cellsAt 0x70000 tBlock).foldl (fun m c => memSet m c.1 c.2) tRun.mem
  mon := { tRun.mon with ctxs := [(1, { tContext with pops := [0x12], plans := hs })] } }

def tPlanCmd (i : Instr) (stg : List Word) (ts : State) : Cmd := { newCmd .sy i ts with stg := stg ++ List.replicate (8 - stg.length) 0 }

def tHandlePlan (pinned : Bool) (vers : List (Nat × Nat)) (run : Option PlanRun) : PlanHandle :=
  ⟨1, pinned, 0, 0x70000, [tNode], PlanChoice.none, vers, 0, [], run⟩

theorem wit_PlanEvents_plan : (
    let q := tPlanCmd (.plan ⟨0, 0⟩ 3) [0x70000] tRun
    let s := tSyHead q (tPlanned [])
    headB s q && s.c.lanes.flatten.isEmpty && (planOf s 3).isNone && (match loadBlock s 0x70000 with
      | .ok ns => ns == [tNode] && (buildPlan s ns [] [] [] PlanChoice.none).isSome
      | .error _ => false)
    && (let p := tPlanCmd (.plan ⟨0, 0⟩ 3) [0x70001] tRun
        let t := tSyHead p (tPlanned [])
        headB t p && match loadBlock t 0x70001 with | .ok _ => false | .error e => e.1 == 0x93)) = true := by decide +kernel

theorem wit_PlanEvents_hints : ([Instr.hint ⟨0, 0⟩ 3, .pin ⟨0, 0⟩ 3, .unpin ⟨0, 0⟩ 3].all fun i =>
    let q := tPlanCmd i [0, 0x12] tRun
    let s := tSyHead q (tPlanned [(3, tHandlePlan false [] none)])
    headB s q && headB (tSyHead q tRun) q && (planOf tRun 3).isNone && match planOf s 3 with
      | some h => (addHint h s (q.stgAt 0) (q.stgAt 1)).isSome && okB (translate s 1 .write true (tContext.recd.prbase + 1024 * 3)) fun _ => true
      | none => false) = true := by decide +kernel

/-- A pexec of a plan that is not there, of a pinned plan with a new version, and of one that runs. -/
theorem wit_PlanEvents_accept : (
    let q := tPlanCmd (.pexec ⟨0, 0⟩ 3) [] tRun
    let s := tSyHead q (tPlanned [(3, tHandlePlan true [(1, 9)] none)])
    let t := tSyHead q (tPlanned [(3, tHandlePlan false [] none)])
    [s, t].all (fun s => s.c.syq.head? == some q && s.c.failing.isNone && s.c.spec.isNone && !planConflict s [tNode])
    && (planOf tRun 3).isNone && changedVersions s (tHandlePlan true [(1, 9)] none) == [1] && changedVersions t (tHandlePlan false [] none) == []
    && slotsOf t != 0 && okB (((blockTensors [tNode]).filter fun x => (producer [tNode] x).isNone).foldlM (fun r x => readLeaf q t x r)
      ⟨q.no, q.addr, q.word, postOrder [tNode], [], [], [], [], []⟩) fun r1 => okB ([tNode].foldlM (fun r m => readOut q t m r) r1) fun r =>
        r.todo == [0] && (let h := tHandlePlan false [] (some r)
          let u := tPlanned [(3, h)]
          let x := runToBreak h r.todo r u
          let v := tPlanned [(3, tHandlePlan false [] (some x.run))]
          x.fail.isNone && x.run.todo.isEmpty && (runToBreak h [0] { r with ds := [] } u).fail.isSome && drained h r x.run == []
            && okB ([tNode].mapM (commitCells v x.run)) fun cells => !partialPoison v cells.flatten && cells.flatten.length == 16))
      = true := by decide +kernel

/-- An unpinned plan with a new version is planned anew; with no core to run on its pexec fails (0x94); a node that drains and has
a residue mismatch runs again, the third time no more. -/
theorem wit_PlanEvents_again : (
    let q := tPlanCmd (.pexec ⟨0, 0⟩ 3) [] tRun
    let s := tSyHead q (tPlanned [(3, tHandlePlan false [(1, 9)] none)])
    let dark := { s with health := { s.health with uavail := Vector.replicate 4 0 } }
    [s, dark].all (fun s => s.c.syq.head? == some q && s.c.failing.isNone && (planOf s 3).any (fun h => h.run.isNone && !h.pinned
      && changedVersions s h != [] && (buildPlan s h.block h.hints [] [] PlanChoice.none).isSome && !planConflict s h.block)
      && !slipBefore q s.c) && slotsOf s != 0 && slotsOf dark == 0
    && (let r : PlanRun := ⟨0, 0, 0, [0], [], [], [], [], []⟩
        let h := { tHandlePlan false [] (some r) with block := [{ tNode with op := 10 }] }
        drained h r { r with todo := [] } == [0] && [([] : List Nat), [0, 0]].map (fun l => decide (l.count 0 < 2)) == [true, false]))
    = true := by decide +kernel

/-- A commit into half a word of a poisoned block of memory. -/
theorem wit_PlanEvents_poison : (okB (useTens tRun 16 none) fun t =>
    let r : PlanRun := ⟨0, 0, 0, [], [(7, { t with ext := [1, 1] })], [(7, [1])], [(7, 1)], [], []⟩
    let h := tHandlePlan false [] (some r)
    let v := poisonHomes [poolHome 0x1700] (tPlanned [(3, h)])
    planOf v 3 == some h && v.c.failing.isNone && v.c.spec.isNone && okB (h.block.mapM (commitCells v r)) fun cells =>
      partialPoison v cells.flatten) = true := by decide +kernel

theorem wit_PlanEvents_binding (new : List Host.Cell) : ∃ chk, Config.bindingChecksum new ≠ chk :=
  ⟨Config.bindingChecksum new + 1, by omega⟩

/-- The last address below 2^52, and one in no range entry. -/
theorem wit_PlanEvents_walk : ([0x300000, 0xFFFFFFFFFFFFF].all fun (va : Word) => tRun.ctx?.any (fun c => c.ranges.all fun e => !rangeHolds e.2 va.toNat)
    && tRun.c.info.running && tRun.mon.tlb.isEmpty && decide (va.toNat < 2 ^ 52)) = true := by decide +kernel

/-- Queue 5 of die 0 of context 1, enabled, which has taken its packets 1 and 2. -/
def tEntry : QueueEntry := ⟨0x4000, 0x100, 0x140, 0, 1, 3, 1, 400, false, true, false⟩
def tQueue : Queue := ⟨tEntry, 2, 0x4000, 1, 0, 1, [], false, [⟨2, 0, false, 3, [], 0, 0, false⟩], 0⟩
def tPacket (type seq : Nat) : Packet := ⟨type, 0, false, seq, [], 0x70000, 0, false⟩

/-- The link up, with the queue, some letterbox entries and some launches. -/
def tQ (letters : List LetterEntry) (launches : List Launch) : State := { tRun with
  links := { tRun.links with linkUp := true, ide := true }
  fe := { tRun.fe with queues := [(5, tQueue)], letters := letters, launches := launches } }

def tIdle (type : Nat) : Launch := { tLaunch with q := 5, seq := 2, pkt := tPacket type 2, started := false, tasks := [] }

theorem wit_QueueEvents_doorbell : (([tQ [⟨0, 5, 1, false⟩] [], tQ [⟨0, 5, 1, true⟩] [], tQ (List.replicate 64 ⟨0, 6, 1, true⟩) []].all fun s =>
      s.links.linkUp && s.links.ide && s.health.power != 3 && queueAt s 5 == some tQueue && tQueue.e.en && tQueue.e.ctx == (1 : BitVec 12).toNat
      && (0x0140000000000003 : Word).toNat / 2 ^ 54 == 5 && tEvent (.doorbell 1 0 0x0140000000000003) s fun t => t.fe.letters.length == max 1 s.fe.letters.length + (if s.fe.letters == [⟨0, 5, 1, true⟩] then 1 else 0))
    && (queueAt (tQ [] []) 6).isNone && (let s := { tQ [] [] with links := { (tQ [] []).links with ide := false } }; s.links.linkUp && !s.links.ide && s.health.power != 3) && (tQ (List.replicate 64 ⟨0, 6, 1, true⟩) []).fe.letters.length == 64) = true := by
  decide +kernel

/-- A ring in host memory whose first packet has type 3 and sequence number 1 (Table 15-2). -/
def tRing : State := (tQ [⟨0, 5, 1, true⟩] []).write (cellsAt (hostHome 0x4000) ([3, 0] ++ natLe 6 0 ++ natLe 8 1))

theorem wit_QueueEvents_ring : (queueAt tRing 5 == some tQueue && tQueue.e.en && cxlUp tRing && doorbellHeld 0 5 tRing && ((ringPackets tRing 4 ⟨0x4000, 0, 1⟩)[0]?).isSome) = true := by
  decide +kernel

theorem wit_QueueEvents_letterbox : (
    (let s := tQ [⟨1, 5, 1, false⟩, ⟨0, 4, 1, true⟩, ⟨0, 5, 1, false⟩] []
     s.fe.letters.any (fun e => e.die == 0 && !e.read) && tEvent (.letterboxRead 0) s fun _ => true)
    && (let s := tQ [⟨0, 5, 2, true⟩] []
        cxlUp s && queueAt s 5 == some tQueue && (s.fe.letters.find? fun e => e.die == 0 && e.q == 5 && e.read).any (fun e => decide (e.seq ≤ tQueue.lastSeq))
        && tEvent (.letterboxRetire 0 5) s fun t => t.fe.letters.isEmpty)) = true := by decide +kernel

/-- A full launch table, a sequence number that is taken, one that leaves a gap, and the next one. -/
theorem wit_QueueEvents_launches : ((tQ [] (List.replicate 256 tLaunch)).fe.launches.length == 256 && (tPacket 1 2).seq ≤ tQueue.lastSeq
    && tQueue.lastSeq + 1 < (tPacket 1 4).seq && (tPacket 1 3).seq == tQueue.lastSeq + 1 && (packetRefusal (tQ [] []) 0 tQueue (tPacket 1 3)).isNone
    && (packetRefusal (tQ [] []) 0 tQueue (tPacket 4 3)).isNone && tEvent (.launchPortWrite 0 5 (tPacket 1 3)) (tQ [] []) (fun t => t.fe.launches.length == 1)
    && tEvent (.launchPortWrite 0 5 (tPacket 4 3)) (tQ [] []) (fun t => t.fe.launches.isEmpty)
    && (let s := { tQ [] [] with fe := { (tQ [] []).fe with queues := [(5, { tQueue with read := [tPacket 2 3] })] } }
        (queueAt s 5).any (fun x => (x.read.find? fun y => y.seq == 3) == some (tPacket 2 3) && packetRefusal s 0 x (tPacket 2 3) == some 16)
        && tEvent (.launchPortRefusalWrite 0 5 3 16) s fun _ => true)
    && !tQueue.disabling) = true := by decide +kernel

/-- A launch of an event packet, and one whose record is refused: its memory holds zeros. -/
theorem wit_SchedulerEvents_start : (([tQ [] [tIdle 3], tQ [] [tIdle 1]].all fun s => depsMet s (tIdle 1) && s.health.power == 0
      && (SMap.get? s.mon.ctxs 1).isSome)
    && launchAt (tQ [] [tIdle 3]) 0 5 2 == some (tIdle 3) && launchAt (tQ [] [tIdle 1]) 0 5 2 == some (tIdle 1)
    && (recordBytes (tQ [] [tIdle 1]) 1 0x70000).any (fun bs => recordRefusal (tQ [] [tIdle 1]) 1 (recordOf bs) == some 1)
    && tEvent (.packetStart 0 5 2) (tQ [] [tIdle 3]) (fun t => t.fe.launches.isEmpty)
    && tEvent (.packetStart 0 5 2) (tQ [] [tIdle 1]) fun t => t.fe.launches.isEmpty) = true := by decide +kernel

/-- A context with an image whose entry 0 is the bundle at 0x1000, and a launch record of one task at 0x70000 (Table 13-1). -/
def tImageRec : Image := ⟨0, 0, 0, [0x1000], some 0x2000, [0], [], [], [], 0⟩
def tRecord : List Byte := [1, 1, 0, 0] ++ natLe 4 0 ++ natLe 8 0 ++ natLe 8 0x304 ++ natLe 8 0x80000 ++ natLe 32 0 ++ natLe 8 1
def tStart (l : Launch) : State := { tQ [] [l] with
  mem := (cellsAt 0x70000 tRecord).foldl (fun m c => memSet m c.1 c.2) tRun.mem
  mon := { tRun.mon with ctxs := [(1, { tContext with images := [tImageRec], saves := [(0, 0x1000000)] })] }
  c := Core.start }

theorem wit_SchedulerEvents_bind : ((recordBytes (tStart (tIdle 1)) 1 0x70000).any fun bs => (recordRefusal (tStart (tIdle 1)) 1 (recordOf bs)).isNone
    && (placeLaunch (recordOf bs) (launchCores (tStart (tIdle 1)) 1 (recordOf bs))).isSome) = true := by decide +kernel

theorem pointMet_fastest (s : State) (l : Launch) (h : (s.fe.point.toList[l.die]?).getD 0 = 0) : pointMet s l = true := by
  unfold pointMet; rw [h]; exact decide_eq_true (Nat.zero_le _)

theorem wit_SchedulerEvents_bind_point : pointMet (tStart (tIdle 1)) (tIdle 1) = true := pointMet_fastest _ _ (by decide +kernel)

theorem wit_SchedulerEvents_bind_ready : readyLaunch (tStart (tIdle 1)) (tIdle 1) = true := by
  unfold readyLaunch; rw [wit_SchedulerEvents_bind_point]; decide +kernel

theorem wit_SchedulerEvents_bind_turn : launchTurn (tStart (tIdle 1)) (tIdle 1) = true := by
  have h : (tStart (tIdle 1)).fe.launches = [tIdle 1] := rfl
  unfold launchTurn turnAmong servedClass
  rw [h]
  simp only [List.filter_cons, wit_SchedulerEvents_bind_ready, if_true, List.filter_nil, List.map_cons, List.map_nil, List.any_cons, List.any_nil]
  decide +kernel

theorem wit_SchedulerEvents_image : imageAt (tStart (tIdle 1)) 1 0 = some tImageRec := by decide +kernel

/-- The launch of the modelled core's task, its task ended; a row of another core in the same launch. -/
def tRows : List TaskRow := [⟨0, 0, true, false, false, false⟩, ⟨1, 9, false, false, false, false⟩]
def tOwn : Launch := { tLaunch with tasks := tRows }
def tEnded : State := { tLaunched with fe := { tLaunched.fe with launches := [tOwn] } } |>.onC fun c => { c with ended := true }

theorem wit_SchedulerEvents_retire : (ownLaunch tEnded 0 0 1 && tEnded.c.info.t == 0 && mayRetire tEnded
    && tEvent (.taskRetire 0 0 1 0) tEnded (fun t => !t.c.info.running)
    && launchAt tEnded 0 0 1 == some tOwn && tOwn.started && !tOwn.saved && tRows[1]?.any (fun r => !r.retired && r.core != tEnded.me)
    && taskCause 0x50 && tEvent (.taskRetire 0 0 1 1) tEnded (fun _ => true) && tEvent (.schedulerFaultDelivery 0 0 1 1 0x50) tEnded (fun _ => true)
    && (let l := { tOwn with tasks := tRows.map fun r => { r with retired := true } }
        let s := { tEnded with fe := { tEnded.fe with launches := [l] } }
        launchAt s 0 0 1 == some l && l.tasks.all (fun r => r.retired) && tEvent (.launchComplete 0 0 1 ⟨[], []⟩) s fun _ => true)
    && tEvent (.timeSliceExpiry 0 0 1) tEnded fun _ => true) = true := by decide +kernel

/-- A launch that runs on queue 4 of a lower class, and a ready one on queue 5. -/
def tLow : Launch := { tLaunch with q := 4, seq := 9 }
def tRival : State := { tStart (tIdle 1) with fe := { (tStart (tIdle 1)).fe with
  queues := [(4, { tQueue with e := { tEntry with prio := 1 } }), (5, tQueue)], launches := [tLow, tIdle 1], owed := [(0, 3)] } }

theorem wit_SchedulerEvents_preempt_ready : readyLaunch tRival (tIdle 1) = true := by
  unfold readyLaunch; rw [pointMet_fastest _ _ (by decide +kernel)]; decide +kernel

theorem wit_SchedulerEvents_preempt : outranks tRival (tIdle 1) tLow = true ∧ launchAt tRival 0 4 9 = some tLow ∧ tLow.preempt = false
    ∧ tLow.started = true ∧ tLow.saved = false ∧ tIdle 1 ∈ tRival.fe.launches ∧ classOf tRival (tIdle 1) = (3 : BitVec 3).toNat := by
  refine ⟨?_, by decide +kernel, rfl, rfl, rfl, by decide +kernel, by decide +kernel⟩
  unfold outranks; rw [wit_SchedulerEvents_preempt_ready]; decide +kernel

/-- The slowest class, which no limit is below. -/
theorem wit_SchedulerEvents_point (s : State) (h : s.health.maxFc = 3) : max 3 (fcCap s) = (3 : BitVec 2).toNat
    ∧ ∀ n, (3 : BitVec 2).toNat ≤ max n (fcCap s) := by
  unfold fcCap; have := (Config.fcOfLimit s.health.limit).isLt; rw [h]; constructor <;> intros <;> simp <;> omega

/-- A cluster of another tenant that no launch holds. -/
theorem wit_SchedulerEvents_cluster : (
    let s := { tQ [] [tIdle 1] with fe := { (tQ [] [tIdle 1]).fe with clusters := [(0, 8)] } }
    SMap.get? s.fe.clusters 0 == some 8 && s.fe.launches.all (fun l => !keepsCluster l 0 && (List.range 16).all fun i => !holdsCore l i)
    && tEvent (.clusterSramZeroing 0 7) s fun t => SMap.get? t.fe.clusters 0 == some 7) = true := by decide +kernel

/-- A task that is asked to leave, at its safe point; a launch whose tasks lie elsewhere; a saved launch. -/
def tLeaving : State := tLaunched.onC fun c => { c with preempt := true, bun := { c.bun with safe := true } }
def tSavedTask : SavedTask := ⟨0, 5, 2, 0, tRun.c, [], tMem, []⟩
def tSavedLaunch : Launch := { tIdle 1 with
  started := true, saved := true, tasks := [⟨0, 0, false, false, true, false⟩], recd := ⟨1, 1, false, 0, 0, 0, 0x304, 0, 0, [], [⟨1, 0, 0, false⟩], false⟩ }
def tRestoring : State := { tStart tSavedLaunch with fe := { (tStart tSavedLaunch).fe with saved := [tSavedTask] } }

theorem wit_SchedulerEvents_save : (tLeaving.c.info.running && tLeaving.c.preempt && savePoint tLeaving && saveLanded tLeaving
    && tEvent (.contextSave false) tLeaving (fun t => t.fe.saved.length == 1)
    && (let s := tStart { tLow with preempt := true }
        !s.c.info.running && (s.fe.launches.find? fun l => l.started && l.preempt && !l.saved).isSome && tEvent (.contextSave false) s fun _ => true))
    = true := by decide +kernel

theorem wit_SchedulerEvents_restore_ready : readyLaunch tRestoring tSavedLaunch = true := by
  unfold readyLaunch; rw [pointMet_fastest _ _ (by decide +kernel)]; decide +kernel

theorem wit_SchedulerEvents_restore_turn : launchTurn tRestoring tSavedLaunch = true := by
  have h : tRestoring.fe.launches = [tSavedLaunch] := rfl
  unfold launchTurn turnAmong servedClass
  rw [h]
  simp only [List.filter_cons, wit_SchedulerEvents_restore_ready, if_true, List.filter_nil, List.map_cons, List.map_nil, List.any_cons, List.any_nil]
  decide +kernel

theorem wit_SchedulerEvents_restore : (launchAt tRestoring 0 5 2 == some tSavedLaunch && tSavedLaunch.saved && tRestoring.health.power == 0
    && (match placeRestore tSavedLaunch (launchCores tRestoring 1 tSavedLaunch.recd) with
      | none => false
      | some p => (p.find? fun x => x.2 == tRestoring.me && tSavedLaunch.tasks.any fun r => r.t == x.1 && !r.retired) == some (0, 0))
    && (tRestoring.fe.saved.find? fun y => isRow y.die y.q y.seq tSavedLaunch && y.t == 0) == some tSavedTask) = true := by decide +kernel

/-- A die whose mailbox serves: link, encryption, power and monitor up; with a queue, a window and a health record. -/
def tMail : State := { tRun with
  links := { tRun.links with linkUp := true, ide := true, planes := 1, ports := 1 }
  fe := { tRun.fe with queues := [(5, tQueue), (6, { tQueue with e := { tEntry with en := false } }), (7, { tQueue with done := 2 })] }
  mon := { tRun.mon with flash := { tRun.mon.flash with running := true }, windows := [(0, ⟨7, 0x200000, 0x1000, 0⟩)] }
  health := { tRun.health with log := [⟨1920, 0, false, 0, [], [], 0, [], [], [], 0⟩] } }

def tMb : Mb := ⟨0, 0x1234⟩

/-- The same with no task on the core. -/
def tMailIdle : State := { tMail with c := Core.start }

theorem wit_MailboxCommands_ready : mailReady tMb tMail ∧ mailReady tMb tMailIdle := by unfold mailReady; decide +kernel

/-- A record of a new context, its tables under key 1, its plan records and the save area of core 0 locked; context 1 stands. -/
def tNewRecord : CtxRecord := { tContext.recd with ctx := 2, ptroot := 0x700000 }
def tNewRanges : List RangeEntry :=
  [⟨0x10000, 0x100000, 0, true, true, true, false, false, false, 1, false⟩, ⟨0x100000, 0x200000, 0, true, true, false, false, true, true, 0, false⟩,
   ⟨0x1000000, 0x2000000, 0, true, false, false, false, true, true, 0, false⟩]

theorem wit_MailboxCommands_contexts : (createRefusal tMail tContext.recd [] [] == some 1
    && (createRefusal tMail tNewRecord tNewRanges [(0, 0x1000000)]).isNone && (SMap.get? tMail.mon.ctxs 9).isNone
    && (SMap.get? tMailIdle.mon.ctxs 1).isSome && tMailIdle.fe.launches.isEmpty
    && rangeRefusal tMail tContext 2 ⟨0x10000, 0x200000, 0, true, true, true, false, false, false, 0, false⟩ == some 9
    && (rangeRefusal tMail tContext 2 ⟨0x300000, 0x310000, 0, true, true, true, false, false, false, 1, false⟩).isNone) = true := by
  decide +kernel

/-- Queue 5 has a packet to finish, 6 is not enabled, 7 is drained. -/
theorem wit_MailboxCommands_queues : (queueFieldsOk tMail tEntry && !queueFieldsOk tMail { tEntry with weight := 256 }
    && (queueAt tMail 6).any (fun x => !x.e.en && !x.disabling) && (queueAt tMail 5).any (fun x => x.e.en)
    && (queueAt tMail 7).any (fun x => x.e.en && x.lastSeq == x.done) && tMail.fe.launches.isEmpty) = true := by decide +kernel

theorem wit_MailboxCommands_fmask : (!fmaskOk 0 && fmaskOk tContext.recd.fmask && ctxRuns tMail 1 && !ctxRuns tMailIdle 1) = true := by decide +kernel

/-- The first free window is 1: a range of memory of no other tenant, a misaligned one, and one beyond the memory. -/
theorem wit_MailboxCommands_windows : ((List.range 64).find? (fun w => (SMap.get? tMail.mon.windows w).isNone) == some 1
    && 0x200000 % 2 ^ 21 == 0 && physOwned tMail 7 0x400000 0x1000 && !underLocked tMail 0x400000 0x1000 && 0x1000 % 2 ^ 21 != 0
    && mapsOk tMail (withWindow 1 ⟨7, 0x400000, 0x1000, 0⟩ tMail) && !physOwned tMail 7 (2 ^ 47) 0x1000 && (SMap.get? tMail.mon.windows 0).isSome) = true := by decide +kernel

/-- Context 1 has no job yet; in tJob another context holds job 5. -/
def tJob : State := { tMail with mon := { tMail.mon with ctxs := [(1, tContext), (2, { tContext with job := some 5 })] } }

theorem wit_MailboxCommands : (tMail.mon.ctxs.all (fun x => x.1 == 1 || x.2.job != some 5) && tJob.mon.ctxs.any (fun x => x.1 != 1 && x.2.job == some 5)
    && !collOpen tMail 1 0xFF && okB (translate tMail 1 .write true (tContext.recd.cgbase + 64 * 0xFF)) (fun _ => true)
    && (latestRecord tMail).isSome && (tMail.health.log.find? fun r => r.seq % 1920 == 0).isSome && !listedOps.contains 0xA9 && !listedOps.contains 0xFFFF
    && tMail.fe.launches.all (fun l => l.pkt.type != 1) && (tQ [] [tIdle 1]).fe.launches.any (fun l => l.pkt.type == 1)
    && mailBusy 0 { tMail with mon := { tMail.mon with mail := tMail.mon.mail.set 0 ⟨0, 1, 0, 0, [], []⟩ } }
    && !mailBusy 0 { tMail with mon := { tMail.mon with flash := { tMail.mon.flash with recovery := true } } }
    && !ctxRuns tMailIdle 1 && tMail.c.view.isNone && tMail.c.emu.isNone && tMail.fe.saved.isEmpty) = true := by decide +kernel

/-- A debug grant with every right and one without any, held by the context. -/
def tGrant (rights : Nat) : DebugGrant := ⟨1, 0, rights, []⟩
def tDebug (halted : Bool) (rights : Nat) : State := { tMail with
  mon := { tMail.mon with ctxs := [(1, { tContext with grant := some (tGrant rights) })] }
  c := { tMail.c with halted := halted } }

theorem wit_DebugCommands_ready : mailReady tMb (tDebug false 0xFF) ∧ mailReady tMb (tDebug true 0xFF) ∧ mailReady tMb { tDebug true 0 with c := Core.start } := by
  unfold mailReady; decide +kernel

theorem wit_DebugCommands : ((SMap.get? tMailIdle.mon.ctxs 1).any (fun c => c.grant.isNone) && !tMailIdle.c.info.running
    && (List.range 8).all (fun op => !(tGrant 0).rights.testBit op) && (tGrant 0xFF).rights == 0xFF
    && (tDebug false 0xFF).c.info.running && (tDebug false 0xFF).c.info.ctx == 1 && atBoundary (tDebug false 0xFF) && (tDebug false 0xFF).c.inflight.isEmpty
    && !waitsInFlight (tDebug false 0xFF).c && (tDebug true 0xFF).c.halted && !(tDebug false 0xFF).c.halted
    && (SMap.get? (tDebug true 0xFF).mon.ctxs 1).any fun c => c.grant == some (tGrant 0xFF)) = true := by decide +kernel

theorem wit_LinkEvents : (tMail.health.power != 3 && tMail.mon.flash.running && !tMail.mon.flash.recovery && tMail.fe.waiting.isEmpty && tMail.links.linkUp
    && tMail.links.ide && (SMap.get? tMail.mon.windows 0).any (fun x => decide (0xF80 + 0x80 ≤ x.size) && x.pa % 64 == 0 && 0xF80 % 64 == 0 && 0x80 % 64 == 0)
    && cxlUp tMail && tMail.links.planes.getLsbD 0 && !tMail.links.planes.getLsbD 63 && tMail.links.ports.getLsbD 0 && tMail.links.ports != 0) = true := by
  decide +kernel

/-- A connection that has received packets 1 and 4 after next = 0, with one packet of its own unacknowledged. -/
def tConn : Conn := { connAt tMail 3 with job := some 5, next := 0, seen := [1, 4], unacked := [6] }

theorem wit_LinkEvents_transport : (connAt (setConn tConn tMail) 3 == tConn && tConn.id == 3 && !tConn.unacked.isEmpty && tConn.acked < 7
    && tConn.job.isSome && tConn.seen.contains 1 && !tConn.seen.contains 4096 && 4096 ≤ tConn.next + 4096 && tConn.next + 4096 < 4097
    && connAt tMail 3 == { connAt tMail 3 with id := 3 }) = true := by decide +kernel

/-- A whole message of two bytes on a connection of job 5, which context 2 has; a package of a pod. -/
def tPod : State := { tJob with links := { tJob.links with pod := some (0, 3) } }

theorem wit_LinkEvents_message : (let e := { tConn with msgs := [(9, 1, [(0, 0xAA), (1, 0xBB)], some 2)] }
    (e.msgs.find? fun m => m.1 == 9) == some (9, 1, ([(0, 0xAA), (1, 0xBB)] : List Host.Cell), some 2)
    && (match tPod.mon.ctxs.find? fun x => x.2.job.isSome && x.2.job == e.job with
      | some x => okB ((List.range 2).mapM fun i => translate tPod x.1 .write false (0x20000 + i)) fun hs => hs.length == 2
      | none => false)
    && tPod.links.pod.isSome && tPod.links.planes.getLsbD 0 && (List.replicate 256 (0 : Byte)).length == 256) = true := by decide +kernel

/-- A task of another core that is lost. -/
theorem wit_HealthEvents_other : (let s := { tMail with fe := { tMail.fe with launches := [tOwn] } }
    (9 : BitVec 8).toNat != s.me && (s.fe.launches.find? fun l => holdsCore l 9) == some tOwn
    && (tOwn.tasks.find? fun r => r.core == 9 && !r.retired).isSome) = true := by decide +kernel

/-- A core that no launch holds: another, and one whose cluster has used its spare. -/
theorem wit_HealthEvents : (tMail.health.power != 3 && tMail.fe.launches.all (fun l => !holdsCore l 255) && 255 != tMail.me
    && !tMail.health.spare.getLsbD 15 && tMail.me == (BitVec.ofNat 8 tMail.me).toNat && tMail.c.info.running && State.reset.health.power != 3
    && State.reset.mon.ctxs.isEmpty
    && (let s := { tMail with health := { tMail.health with spare := 0x8000 } }
        s.health.spare.getLsbD 15)) = true := by decide +kernel

/-- A device with an update open on slot B and a current record in place 0. -/
def tFlash : State := { tMail with mon := { tMail.mon with
  flash := { tMail.mon.flash with
    opened := some true, checked := some [1], markers := (tMail.mon.flash.markers).set 0 (some ⟨4, false, 0, [], []⟩) } } }

/-- A launch of the old patch set runs. -/
def tOldSet : State := { tMailIdle with fe := { tMailIdle.fe with launches := [{ tLaunch with patch := ⟨[], [], [1], 1⟩ }] } }

theorem wit_FirmwareEvents_ready : mailReady tMb tFlash ∧ mailReady tMb tOldSet := by unfold mailReady; decide +kernel

theorem wit_FirmwareEvents : (tMail.mon.flash.opened.isNone && tFlash.mon.flash.opened == some true && tFlash.mon.flash.checked == some [1]
    && currentMarker tFlash.mon.flash == some (0, ⟨4, false, 0, [], []⟩) && firmwareRefusal 0 [] == some 3 && patchRefusal 0 0 [] == some 3
    && tFlash.mon.flash.fails != some 0 && tFlash.mon.flash.fails != some 1 && slotImage tFlash.mon.flash true == [] && hostBytes tFlash 0 0 == [] && cxlUp tFlash && !oldSetUsed tMailIdle && oldSetUsed tOldSet
    && tMailIdle.fe.launches.all (fun l => !l.started || l.saved) && tOldSet.fe.launches.any (fun l => l.started && !l.saved)
    && bootSlot State.reset.mon.flash == none && !State.reset.mon.flash.running) = true := by decide +kernel

/-- A firmware image of one empty segment up to its signature (Table 23-7, R360). -/
def tFwBody : List Byte := natLe 4 0x53464931 ++ [1, 3] ++ natLe 2 1 ++ natLe 8 0 ++ natLe 8 5 ++ natLe 48 0 ++ natLe 8 160 ++ natLe 80 0

/-- The image, signed with Polori's key. -/
def tFwImage : List Byte := tFwBody ++ Config.signatureOf Config.imageKey tFwBody

theorem signatureOf_length (k m : List Byte) : (Config.signatureOf k m).length = 16224 := by simp [Config.signatureOf]

theorem signatureVerifies_signatureOf (k m : List Byte) : Config.signatureVerifies k m (Config.signatureOf k m) = true := by
  simp [Config.signatureVerifies]

theorem poloriSigned_append (b x : List Byte) :
    poloriSigned (b ++ (Config.signatureOf Config.imageKey b ++ x)) b.length = true := by
  unfold poloriSigned
  rw [List.take_left, List.drop_left, List.take_append_of_le_length (by simp [signatureOf_length, sigBytes]),
    List.take_of_length_le (by simp [signatureOf_length, sigBytes])]
  exact signatureVerifies_signatureOf _ _

theorem wit_FirmwareEvents_image : firmwareRefusal 5 tFwImage = none := by
  have hl : tFwBody.length = 160 := by decide +kernel
  have h72 : leAt tFwImage 72 8 = 160 := rfl
  have hok : firmwareOk tFwImage = true := by
    unfold firmwareOk headerOk
    have : decide (leAt tFwImage 72 8 ≤ tFwImage.length) = true := by rw [h72]; simp [tFwImage, hl]
    rw [this, h72]; rfl
  have hs : poloriSigned tFwImage 160 = true := by
    have := poloriSigned_append tFwBody []
    rwa [List.append_nil, hl] at this
  unfold firmwareRefusal
  rw [hok, h72, hs]; rfl

theorem wit_FirmwareEvents_boot : bootSlot { State.reset.mon.flash with slotA := tFwImage, floorFw := 5 } = some false := by
  unfold bootSlot
  show (if (firmwareRefusal 5 tFwImage).isNone then _ else _) = _
  rw [wit_FirmwareEvents_image]; rfl

theorem get_range' {f : Nat → Byte} (a j n k : Nat) (h : k ≤ j) (h' : j < k + n) :
    SMap.get? ((List.range' k n).map fun i => (a + i, f i)) (a + j) = some (f j) := by
  induction n generalizing k with
  | zero => omega
  | succ n ih =>
    simp only [List.range'_succ, List.map_cons, SMap.get?]
    split
    · next he => rw [show k = j by omega]
    · next he => exact ih (k + 1) (by omega) (by omega)

/-- A machine whose host memory holds the bytes from address 0 on. -/
def tHost (bs : List Byte) (s : State) : State :=
  { s with outer := (List.range' 0 bs.length).map fun i => (hostHome 0 + i, (bs[i]?).getD 0) }

/-- Above device memory every byte stands under the device's own key. -/
theorem homeByte_high (s : State) (a : Nat) (h : 2 ^ 48 ≤ a) (h' : a < 2 ^ 80) : homeByte s a = homeGet s a := by
  have : sameHome s a = true := by unfold sameHome homePhys; rw [Nat.mod_eq_of_lt h', Bool.or_eq_true, decide_eq_true_eq]; exact .inl h
  unfold homeByte; rw [if_pos this]

theorem hostBytes_tHost (bs : List Byte) (s : State) (hb : bs.length ≤ 2 ^ 25) : hostBytes (tHost bs s) 0 bs.length = bs := by
  apply List.ext_getElem
  · simp [hostBytes]
  · intro i h1 h2
    have := get_range' (f := fun i => (bs[i]?).getD 0) (hostHome 0) i bs.length 0 (by omega) (by omega)
    have hh : hostHome i = hostHome 0 + i := by simp [hostHome]
    simp only [hostBytes, List.getElem_map, List.getElem_range, Nat.zero_add]
    rw [homeByte_high _ _ (by unfold hostHome; omega) (by unfold hostHome; omega), hh, homeGet, tHost, this]; simp [h2]

/-- A patch-set image without entries up to its signatures (Table 23-7, R360), under the operator's approval key. -/
def tPatchBody : List Byte :=
  natLe 4 0x53464931 ++ [1, 2] ++ natLe 2 0 ++ natLe 8 0 ++ natLe 24 0 ++ Config.approvalKeyDigest ++ natLe 8 128 ++ natLe 48 0

def tPatchSigned : List Byte := tPatchBody ++ Config.signatureOf Config.imageKey tPatchBody

def tPatchImage : List Byte := tPatchSigned ++ Config.signatureOf Config.approvalKey tPatchSigned

theorem wit_FirmwareEvents_patch_image : patchRefusal 0 0 tPatchImage = none := by
  have hl : tPatchBody.length = 128 := rfl
  have hs : tPatchSigned.length = 128 + sigBytes := by simp [tPatchSigned, hl, signatureOf_length, sigBytes]
  have h72 : leAt tPatchImage 72 8 = 128 := rfl
  have hok : patchTablesOk tPatchImage = true := by
    unfold patchTablesOk headerOk
    have : decide (leAt tPatchImage 72 8 ≤ tPatchImage.length) = true := by rw [h72]; simp [tPatchImage, hs]; omega
    rw [this, h72]; rfl
  have hp : poloriSigned tPatchImage 128 = true := by
    have := poloriSigned_append tPatchBody (Config.signatureOf Config.approvalKey tPatchSigned)
    rwa [← List.append_assoc, hl] at this
  have hd : (tPatchImage.drop 40).take 32 = Config.approvalKeyDigest := rfl
  have ht : tPatchImage.take (128 + sigBytes) = tPatchSigned := by rw [← hs]; simp [tPatchImage]
  have hr : (tPatchImage.drop (128 + sigBytes)).take sigBytes = Config.signatureOf Config.approvalKey tPatchSigned := by
    rw [← hs, tPatchImage, List.drop_left]; exact List.take_of_length_le (by simp [sigBytes, signatureOf_length])
  have hn : patchSetOf tPatchImage = ⟨[], [], measureOf tPatchImage, 0⟩ := rfl
  unfold patchRefusal
  rw [hok, h72, hn]
  dsimp only
  rw [hp, hd, ht, hr, signatureVerifies_signatureOf]
  simp [show leAt tPatchImage 32 8 = 0 from rfl, show emuStoreOk [] [] = true from rfl]

theorem tHost_ready (bs : List Byte) (s : State) : mailReady tMb (tHost bs s) = mailReady tMb s := rfl

theorem wit_FirmwareEvents_patch (bs : List Byte) (hb : bs.length ≤ 2 ^ 25) : bs = hostBytes (tHost bs tFlash) 0 bs.length
    ∧ (tHost bs tFlash).mon.flash.floorPs = 0 ∧ (tHost bs tFlash).mon.flash.fwver = 0
    ∧ mailReady tMb (tHost bs tFlash) ∧ cxlUp (tHost bs tFlash) = true
    ∧ currentMarker (tHost bs tFlash).mon.flash = some (0, ⟨4, false, 0, [], []⟩)
    ∧ oldSetUsed (tHost bs tFlash) = false ∧ oldSetUsed (tHost bs tOldSet) = true :=
  ⟨(hostBytes_tHost _ _ hb).symm, rfl, rfl, by rw [tHost_ready]; exact wit_FirmwareEvents_ready.1, rfl, rfl, rfl, rfl⟩

theorem wit_FirmwareEvents_patch_length : tPatchImage.length ≤ 2 ^ 20 := by
  have : tPatchBody.length = 128 := rfl
  simp [tPatchImage, tPatchSigned, this, signatureOf_length]

theorem mapM_some {α β : Type} (f : α → Option β) (g : α → β) (l : List α) (h : ∀ x ∈ l, f x = some (g x)) :
    l.mapM f = some (l.map g) := by
  induction l with
  | nil => rfl
  | cons a l ih =>
    rw [List.mapM_cons, h a (by simp), ih fun x hx => h x (by simp [hx])]; rfl

/-- A machine whose cluster SRAM holds the bytes from its first one on. -/
def tCluster (bs : List Byte) (s : State) : State :=
  { s with outer := (List.range' 0 bs.length).map fun i => (clusterHome 0 + i, (bs[i]?).getD 0) }

/-- The bytes n of an image at the cluster window are those that the SRAM holds. -/
theorem tCluster_bytes (bs : List Byte) (s : State) (n : Nat) (hn : n ≤ bs.length) (hb : bs.length ≤ 2 ^ 25) :
    (((List.range n).mapM fun i => (translate (tCluster bs s) 1 .read false (0xFFE * 2 ^ 40 + 0 + i)).toOption).map
      fun hs => hs.map (homeByte (tCluster bs s))) = some (bs.take n) := by
  rw [mapM_some _ (fun i => clusterHome 0 + i)]
  · simp only [Option.map_some, List.map_map, Option.some.injEq]
    apply List.ext_getElem
    · simp [hn]
    · intro i h1 h2
      simp only [List.length_map, List.length_range] at h1
      have := get_range' (f := fun i => (bs[i]?).getD 0) (clusterHome 0) i bs.length 0 (by omega) (by omega)
      simp only [List.getElem_map, List.getElem_range, Function.comp, List.getElem_take]
      rw [homeByte_high _ _ (by unfold clusterHome; omega) (by unfold clusterHome; omega), homeGet, tCluster, this, Option.getD_some]
      rw [List.getElem?_eq_getElem (by omega), Option.getD_some]
  · intro i hi
    have hi : i < 2 ^ 25 := by have := List.mem_range.mp hi; omega
    unfold Machine.translate
    have h1 : ¬ 2 ^ 52 ≤ 0xFFE * 2 ^ 40 + 0 + i := by omega
    have h2 : (0xFFE * 2 ^ 40 + 0 + i) / 2 ^ 40 = 0xFFE := by omega
    have h3 : (0xFFE * 2 ^ 40 + 0 + i) % 2 ^ 40 = i := by omega
    rw [if_neg h1, h2, h3]
    have hi' : i < 33554432 := hi
    simp [hi', clusterHome, Except.toOption]

theorem imageSource_tCluster (bs : List Byte) (s : State) (h : bs.length = leAt bs 64 8 + sigBytes) (h' : 128 ≤ bs.length)
    (hb : bs.length ≤ 2 ^ 25) : imageSource (tCluster bs s) 1 (0xFFE * 2 ^ 40) = some bs := by
  have hl : leAt (bs.take 128) 64 8 = leAt bs 64 8 := by
    unfold leAt; rw [List.drop_take, List.take_take]; rfl
  unfold imageSource
  dsimp only
  rw [tCluster_bytes bs s 128 h' hb]
  dsimp only
  rw [hl, ← h, tCluster_bytes bs s _ (Nat.le_refl _) hb, List.take_length]

/-- An image of one bundle of `nop` words and one entry point (Tables 16-8 and 16-9), up to its signature. -/
def tAdmitBody : List Byte :=
  natLe 4 0x49424C4F ++ [1, 4, 0, 0] ++ natLe 2 1 ++ natLe 2 1 ++ natLe 4 0 ++ natLe 48 0 ++ natLe 8 200 ++ natLe 56 0
    ++ natLe 8 0 ++ natLe 8 168 ++ natLe 4 32 ++ natLe 12 0 ++ natLe 8 0 ++ natLe 32 0

/-- The image, signed with the key of context 1. -/
def tAdmit : List Byte := tAdmitBody ++ Config.signatureOf tContext.recd.tpk tAdmitBody

theorem wit_MailboxCommands_image_source : imageSource (tCluster tAdmit tMail) 1 (0xFFE * 2 ^ 40) = some tAdmit := by
  have hl : tAdmitBody.length = 200 := rfl
  have h : leAt tAdmit 64 8 = 200 := rfl
  have : tAdmit.length = 200 + sigBytes := by simp [tAdmit, hl, signatureOf_length, sigBytes]
  apply imageSource_tCluster <;> simp [this, h, sigBytes]

theorem admitWord_tCluster (x : List Byte) (s : State) (n : Nat) (k : Slot) (f : BitVec 32) :
    admitWord (asTask (tCluster x s) n) k f = admitWord (asTask s n) k f := by
  have h1 : fmaskOf (asTask (tCluster x s) n) = fmaskOf (asTask s n) := rfl
  have h2 (i) : hiddenCode (asTask (tCluster x s) n) i = hiddenCode (asTask s n) i := rfl
  have h3 : decodeSlot f k.idx (asTask (tCluster x s) n) = decodeSlot f k.idx (asTask s n) := rfl
  unfold admitWord
  rw [h1, h3]
  simp only [h2]

theorem filter_memSet (m : List Host.Cell) (p : Host.Cell → Bool) (a : Nat) (b : Byte) (h : ∀ v, p (a, v) = false) :
    (memSet m a b).filter p = m.filter p := by
  have hn (v : Byte) : ¬ p (a, v) = true := by rw [h]; exact Bool.false_ne_true
  unfold memSet
  induction m with
  | nil => split <;> simp [SMap.del, SMap.put, h]
  | cons c m ih =>
    obtain ⟨k, v⟩ := c
    split at ih <;> rename_i hb
    · rw [if_pos hb]; unfold SMap.del
      split
      · next hk => rw [hk, List.filter_cons_of_neg (hn v)]
      · rw [List.filter_cons, List.filter_cons, ih]
    · rw [if_neg hb]; unfold SMap.put
      split
      · rw [List.filter_cons_of_neg (hn b)]
      · split
        · next hk => rw [← hk, List.filter_cons_of_neg (hn b), List.filter_cons_of_neg (hn v)]
        · rw [List.filter_cons, List.filter_cons, ih]

theorem filter_memSetAll (l m : List Host.Cell) (p : Host.Cell → Bool) (h : ∀ c ∈ l, ∀ v, p (c.1, v) = false) :
    (memSetAll l m).filter p = m.filter p := by
  unfold memSetAll
  induction l generalizing m with
  | nil => rfl
  | cons c l ih =>
    rw [List.foldl_cons, ih _ fun x hx => h x (List.mem_cons_of_mem _ hx), filter_memSet _ _ _ _ (h c (List.mem_cons_self ..))]

theorem tCluster_outer (x : List Byte) (s : State) : ∀ c ∈ (tCluster x s).outer, 2 ^ 48 ≤ c.1 := by
  intro c hc
  obtain ⟨i, -, rfl⟩ := List.mem_map.mp hc
  exact Nat.le_add_right _ _

/-- The page tables of the tests' context map nothing, whatever the cluster's SRAM holds. -/
theorem tCluster_root (x : List Byte) : tableIdx (homeMem (tCluster x tMail)) 0x600000 8192 = [] := by
  unfold tableIdx homeMem
  rw [filter_memSetAll _ _ _ fun c hc v => by have := tCluster_outer x tMail c hc; simp; omega]
  show ((tMail.mem.filter _).map _).eraseDups = []
  decide +kernel

theorem tCluster_pte (x : List Byte) (a : Nat) (h : a + 8 ≤ 2 ^ 48) : pteAt (homeMem (tCluster x tMail)) a = pteAt tMail.mem a := by
  unfold pteAt memBytes homeMem
  congr 1
  apply List.map_congr_left
  intro i hi
  have := List.mem_range.mp hi
  exact memGet_memSetAll_other _ (show Memory.wf tMail.mem = true by decide +kernel) _
    fun c hc => by have := tCluster_outer x tMail c hc; omega

theorem walkLevel_zero {m : List Host.Cell} {va lvl table : Nat} {f : Nat → Option (Nat × Nat × Nat)} {idx : Nat}
    (hi : va / 2 ^ (12 + 9 * lvl) % (if lvl = 3 then 8192 else 512) = idx) (h : pteAt m (table + 8 * idx) = 0) :
    walkLevel m va lvl table f = none := by
  unfold walkLevel
  dsimp only
  rw [hi, h, if_pos (Or.inl (by decide))]

theorem tCluster_walk (x : List Byte) : walkFrom (homeMem (tCluster x tMail)) 0x1000000 3 0x600000 = none := by
  unfold walkFrom
  refine walkLevel_zero (idx := 0) (by decide) ?_
  rw [tCluster_pte x _ (by decide)]
  decide +kernel

theorem tCluster_segs (x : List Byte) (p : ImageParts) (h : (mappedSegs p).map (segPages 0x1000000) = [(0x1000000, 0x1001000)]) :
    segsClash (tCluster x tMail) tContext 0x1000000 p = false := by
  have hr : (List.range ((0x1001000 - 0x1000000) / 4096)) = [0] := rfl
  have hw : walkFrom (homeMem (tCluster x tMail)) (0x1000000 + 4096 * 0) 3 tContext.recd.ptroot = none := tCluster_walk x
  unfold segsClash
  rw [h]
  simp only [List.any_cons, List.any_nil, hr, hw]
  decide +kernel

theorem tCluster_free (x : List Byte) (n : Nat) : physUsed (tCluster x tMail) 0x800000 n = false := by
  have ht : allTables (tCluster x tMail) = [(0x600000, 65536)] := by
    show (tableSpans (homeMem (tCluster x tMail)) 3 0x600000) ++ [] = _
    show (tableSpan 3 0x600000 :: (lowerTables (homeMem (tCluster x tMail)) 3 0x600000).flatMap _) ++ [] = _
    unfold lowerTables; rw [if_pos rfl, tCluster_root]; rfl
  have hl : leafEntries (homeMem (tCluster x tMail)) 3 0x600000 = [] := by
    show (tableIdx (homeMem (tCluster x tMail)) 0x600000 8192).flatMap _ = _
    rw [tCluster_root]; rfl
  have hc : ctxSpans (tCluster x tMail) tContext = [(0, 0x10000), (0x10000, 0x1F0000)] := by
    unfold ctxSpans
    rw [show tContext.recd.ptroot = 0x600000 from rfl, hl]; rfl
  unfold physUsed
  rw [ht, show (tCluster x tMail).mon.ctxs = [(1, tContext)] from rfl,
    show (tCluster x tMail).mon.windows = [(0, ⟨7, 0x200000, 0x1000, 0⟩)] from rfl]
  rw [show staleSpans (tCluster x tMail) = [] from rfl]
  simp only [List.any_cons, List.any_nil, hc, spansMeet]
  simp

theorem wit_MailboxCommands_image_free (x : List Byte) : pagesFree (tCluster x tMail) 1 (0xFFE * 2 ^ 40) 0x1000000 0x800000 = true := by
  unfold pagesFree
  rw [show SMap.get? (tCluster x tMail).mon.ctxs 1 = some tContext from rfl]
  cases imageSource (tCluster x tMail) 1 (0xFFE * 2 ^ 40) with
  | none => rfl
  | some bs => simp only [tCluster_free]; rfl

/-- The checks of the image look at no write of an outside agent but at page tables. -/
theorem imageRefusal_tCluster (bs x : List Byte) (s : State) (c : Context) (base : Nat)
    (h : ∀ p, imageParts bs = some p → segsClash (tCluster x s) c base p = segsClash s c base p) :
    imageRefusal (tCluster x s) c base bs = imageRefusal s c base bs := by
  have h' (n b g) : admitBundles (asTask (tCluster x s) n) b g = admitBundles (asTask s n) b g := by
    have h1 (r k) : stallCount (r, k) (asTask (tCluster x s) n) = stallCount (r, k) (asTask s n) := rfl
    unfold admitBundles
    simp only [admitWord_tCluster, h1]
  unfold imageRefusal
  cases hp : imageParts bs with
  | none => rfl
  | some p => simp only [h p hp, h']

theorem imageRefusal_signed (bs : List Byte) (h : leAt bs 64 8 = 200) (hp : imageParts bs = some ⟨4, 0, 0, 0, [], [⟨0, 0, natLe 32 0⟩], [0], [], []⟩)
    (hs : Config.signatureVerifies tContext.recd.tpk (bs.take 200) ((bs.drop 200).take sigBytes) = true) :
    imageRefusal tMail tContext 0x1000000 bs = none := by
  unfold imageRefusal
  rw [hp, h]
  dsimp only
  rw [if_neg (by simp [hs])]
  decide +kernel

theorem wit_MailboxCommands_image : (imageParts tAdmit).isSome ∧ imageRefusal (tCluster tAdmit tMail) tContext 0x1000000 tAdmit = none := by
  have hl : tAdmitBody.length = 200 := rfl
  have hL : tAdmit.length = 200 + sigBytes := by simp [tAdmit, hl, signatureOf_length, sigBytes]
  have h : leAt tAdmit 64 8 = 200 := rfl
  have hh : imageHeaderOk tAdmit = true := by
    unfold imageHeaderOk; rw [h, hL]; rfl
  have hp : imageParts tAdmit = some ⟨4, 0, 0, 0, [], [⟨0, 0, natLe 32 0⟩], [0], [], []⟩ := by
    unfold imageParts; rw [hh]; decide +kernel
  have hk : tAdmit.take 200 = tAdmitBody := by rw [← hl]; simp [tAdmit]
  have hr : (tAdmit.drop 200).take sigBytes = Config.signatureOf tContext.recd.tpk tAdmitBody := by
    rw [← hl, tAdmit, List.drop_left]; exact List.take_of_length_le (by simp [sigBytes, signatureOf_length])
  refine ⟨by rw [hp]; rfl, ?_⟩
  rw [imageRefusal_tCluster _ _ _ _ _ fun p hp' => by
    obtain rfl := Option.some.inj (hp.symm.trans hp')
    rw [tCluster_segs _ _ (by decide +kernel)]; decide +kernel]
  exact imageRefusal_signed _ h hp (by rw [hk, hr]; exact signatureVerifies_signatureOf _ _)

/-- Bytes that are no image. -/
def tNoImage : List Byte := List.replicate 16224 0

theorem wit_MailboxCommands_image_refused : imageSource (tCluster tNoImage tMail) 1 (0xFFE * 2 ^ 40) = some tNoImage
    ∧ imageRefusal (tCluster tNoImage tMail) tContext 0x1000000 tNoImage = some 1 := by
  have hL : tNoImage.length = 16224 := List.length_replicate
  have hp : imageParts tNoImage = none := by
    have : imageHeaderOk tNoImage = false := by decide +kernel
    unfold imageParts; rw [this]; rfl
  have h : leAt tNoImage 64 8 = 0 := by decide +kernel
  constructor
  · apply imageSource_tCluster <;> simp [hL, h, sigBytes]
  · unfold imageRefusal; rw [hp]

theorem wit_MailboxCommands_image_ready (bs : List Byte) : mailReady tMb (tCluster bs tMail)
    ∧ SMap.get? (tCluster bs tMail).mon.ctxs 1 = some tContext :=
  ⟨by have : mailReady tMb (tCluster bs tMail) = mailReady tMb tMail := rfl
      rw [this]; exact wit_MailboxCommands_ready.1, rfl⟩

/-- A store of 0xFD to the FMT byte of descriptor 1, and of 7. -/
theorem wit_StoresChangeTheirBytes_format : (let s := tWith (0x10000 + 64 + 44) tRun
    ready .sc ⟨0, 0⟩ (.stB ⟨0, 0⟩ 2 6 0 0) s && tReach s .write (s.rdS 6) 1 && !poisoned s (0x10000 + 64 + 44) && tStops (.stB ⟨0, 0⟩ 2 6 0 0) s
    && badFmtStore s (s.rdS 6) (natLe 1 (storedNat (.stB ⟨0, 0⟩ 2 6 0 0) s)) && !badFmtStore s (s.rdS 6) (natLe 1 (storedNat (.stB ⟨0, 0⟩ 1 6 0 0) s))) =
    true := by decide +kernel

/-- The residue of element 1 of row 0 of tile 7 does not match. -/
def tUpset : State := tArr.onC fun c => { c with arr := { c.arr with upset := [accKey 7 0 1] } }

theorem wit_ArrayWords_upset : (ready .ar ⟨0, 0⟩ (.adrn ⟨0, 0⟩ 2 0 7) tUpset && tUpset.c.mismatch.isNone && okB (useTens tUpset 2 none) fun x =>
    okB (drainCheck x 0 tUpset) fun _ => okB (pipeWrites tUpset x (drainIdxs x 0)) fun _ =>
    ((List.range (drainIdxs x 0).length).find? fun k => tUpset.c.arr.upset.contains (accKey 7 (0 % 128) k)) == some 1
    && okB (regionCells tUpset x ((drainIdxs x 0).zip [1, 2])) fun cells => !partialPoison tUpset cells) = true := by decide +kernel

/-- A plan of one node that sums the rows of tensor 1 into tensor 16, in execution. -/
def tSum : PlanNode := ⟨5, 0, 1, 0, 16, 0, 0, 0, 0, [1], []⟩

theorem wit_PlanEvents_residue : (
    let r0 : PlanRun := ⟨0, 0x1000, 0, postOrder [tSum], [], [], [], [], []⟩
    let q := tPlanCmd (.pexec ⟨0, 0⟩ 3) [] tRun
    okB (((blockTensors [tSum]).filter fun x => (producer [tSum] x).isNone).foldlM (fun r x => readLeaf q tRun x r) r0) fun r1 =>
    okB ([tSum].foldlM (fun r m => readOut q tRun m r) r1) fun r =>
      let h : PlanHandle := ⟨2, false, 0, 0x70000, [tSum], { PlanChoice.none with opcs := [0], paths := [[]] }, [], 0, [], some r⟩
      let s := (tPlanned [(3, h)]).onC fun c => { c with upsets := [7] }
      planOf s 3 == some h && s.c.failing.isNone && r.todo == [0] && s.c.upsets.contains 7
      && r.reruns.isEmpty && (let x := runToBreak h r.todo r s; x.fail.isNone && drained h r x.run == [0] && x.run.todo.isEmpty)) = true := by decide +kernel

/-- A task that a debugger asks to halt inside a speculation; a register that only reads. -/
def tAsked : State := (tDebug false 0xFF).onC fun c => { c with spec := tSpec.c.spec }

theorem wit_DebugCommands_asked : mailReady tMb tAsked ∧ tAsked.c.spec ≠ none ∧ tAsked.c.halted = false ∧ spReadOnly (BitVec.toNat (2 : BitVec 10)) = true
    ∧ (tDebug false 0xFF).c.spec = none := by
  unfold mailReady; decide +kernel

/-- The pages that a new context's tables lie in are found by their range entries. -/
theorem wit_MailboxCommands_tables : ([(tNewRecord.stbase, 2 ^ 18), (tNewRecord.prbase, 2 ^ 20)].all fun t =>
    (tNewRanges.find? fun e => e.valid && decide (e.base ≤ t.1) && decide (t.1 + t.2 ≤ e.limit)).isSome) = true := by decide +kernel


/-- A device with an update open, whose next flash write fails, or the one after it. -/
def tFails (n : Nat) : State := { tFlash with mon := { tFlash.mon with flash := { tFlash.mon.flash with fails := some n } } }

theorem wit_FirmwareEvents_fails (n : Nat) : mailReady tMb (tFails n) ∧ (tFails n).mon.flash.fails = some n
    ∧ (tFails n).mon.flash.opened = some true ∧ (tFails n).mon.flash.checked = some [1]
    ∧ currentMarker (tFails n).mon.flash = some (0, ⟨4, false, 0, [], []⟩) ∧ cxlUp (tFails n) = true
    ∧ (tFails n).mon.flash.floorPs = 0 ∧ (tFails n).mon.flash.fwver = 0 :=
  ⟨wit_FirmwareEvents_ready.1, rfl, rfl, rfl, rfl, rfl, rfl, rfl⟩

theorem wit_FirmwareEvents_fails_patch (n : Nat) (bs : List Byte) (hb : bs.length ≤ 2 ^ 25) :
    bs = hostBytes (tHost bs (tFails n)) 0 bs.length
    ∧ (tHost bs (tFails n)).mon.flash.fails = some n ∧ (tHost bs (tFails n)).mon.flash.floorPs = 0
    ∧ (tHost bs (tFails n)).mon.flash.fwver = 0 ∧ mailReady tMb (tHost bs (tFails n)) ∧ cxlUp (tHost bs (tFails n)) = true
    ∧ currentMarker (tHost bs (tFails n)).mon.flash = some (0, ⟨4, false, 0, [], []⟩) :=
  ⟨(hostBytes_tHost _ _ hb).symm, rfl, rfl, rfl, by rw [tHost_ready]; exact (wit_FirmwareEvents_fails n).1, rfl, rfl⟩

/-- Contributions of one member whose source has another shape with as many elements. -/
theorem wit_SyncExecute_shape : (okB (useTens tRun 1 none) fun ts => okB (useTens tRun 2 none) fun td =>
    let c : Coll := ⟨0, 0, 0, 0, ts, td, [1, 2, 3, 4], [], [], 0, 3, 2⟩
    decide (c.kind ≤ 1) && [4, 1, 1] != c.src.ext) = true := by decide +kernel

theorem wit_PlanEvents_third : 2 ≤ (⟨0, 0x1000, 0, [], [], [], [], [], [0, 0]⟩ : PlanRun).reruns.count 0
    ∧ (⟨0, 0x1000, 0, [], [], [], [], [], [0]⟩ : PlanRun).reruns.count 0 < 2 := by decide

/-- A bundle record that takes a branch from 0x1000 to 0x1100, out of the inner of two loops and not out of the outer. -/
def tLeaves (taken : Bool) : State := tRun.onC fun c => { c with
  bun := { c.bun with taken := taken, next := 0x1100 }
  loops := [⟨0x0FE0, 0x1040, 3, 0, 0, false, false, none⟩, ⟨0x0F00, 0x2000, 3, 0, 0, false, false, none⟩] }

theorem wit_BranchesRedirect_leave : [true, false].all (fun b =>
    let s := tLeaves b
    let left := fun l : LoopEntry => decide (l.first.toNat ≤ s.c.pc.toNat) && decide (s.c.pc.toNat ≤ l.last.toNat)
      && !(decide (l.first.toNat ≤ s.c.bun.next.toNat) && decide (s.c.bun.next.toNat ≤ l.last.toNat))
    s.c.bun.taken == b && !s.c.bun.rett && !s.c.bun.lbrk && s.c.bun.spec.isNone && !s.c.bun.abort && s.c.bun.push.isNone && !s.c.trap.handler
      && s.c.loops.map left == [true, false]) = true := by decide +kernel

theorem wit_LoopsOpen_handler : (tHandler.c.trap.handler && [Instr.loop ⟨0, 0⟩ 1 0, .loopRot ⟨0, 0⟩ 1 0, .loopPre ⟨0, 0⟩ 1 0, .loopRotPre ⟨0, 0⟩ 1 0].all
    fun i => ready .br ⟨0, 0⟩ i tHandler) = true := by decide +kernel

/-- A bundle record of each kind that its completion acts on; p4 waits for a pending compare in one of them. -/
def tBunRec (b : Bundle) (fused : Bool) (cmps : List CmpWait) : State := (tLoop 0x2000).onC fun c => { c with
  bun := b, cmps := cmps, fused := { c.fused with fused := fused, ever := true } }

theorem wit_ControlWords_complete : (
    (let b := (tBunRec { Bundle.idle with lbrk := true, ended := true, safe := true } false []).c.bun
     b.lbrk && b.ended && b.safe && b.spec.isNone && !b.taken && b.push.isNone && !b.rett && !b.abort)
    && (tBunRec { Bundle.idle with dcpl := true } true []).c.fused.fused && !(tBunRec { Bundle.idle with rejoin := true } false []).c.fused.fused
    && ([[], [⟨4, 0, .inr 7, .inl 0, 0⟩]] : List (List CmpWait)).all fun l =>
      let s := tBunRec { Bundle.idle with spec := some (4, 0x3000) } false l
      s.c.bun.spec == some (4, 0x3000) && (s.c.cmps.any fun w => w.pd == 4) == !l.isEmpty) = true := by decide +kernel

/-- A follower of a released row, and a spec that stands last in a loop. -/
theorem wit_ControlWords_follower : (
    (let s := tRun.onC fun c => { c with fused := ⟨false, true, 3, 0, none, 0⟩ }
     ready .br ⟨0, 0⟩ (.rjn ⟨0, 0⟩ 0) s && s.c.fused.ever && !s.c.fused.fused && s.c.fused.rank == 3)
    && ready .br ⟨0, 0⟩ (.spec ⟨0, 0⟩ 4 1) (tLoop 0x1000) && standsLast (tLoop 0x1000) && (tLoop 0x1000).c.spec.isNone) = true := by
  decide +kernel

theorem wit_SpecialWrites_lane : (ready .br ⟨0, 0⟩ (.swriteWm ⟨0, 0⟩ 0 1 7) tBusy
    && !(laneOf tBusy 1).isEmpty && tBusy.rdS 1 &&& 0x7F80FFFFFFFFFF00 == 0) = true := by
  decide +kernel

/-- A pending first operand of cmpi, and both operands of cmp pending. -/
theorem wit_CompareResults_pending : (ready .sc ⟨0, 0⟩ (.cmpi ⟨0, 0⟩ 1 0 7 5) tRankedCmp && ready .sc ⟨0, 0⟩ (.cmp ⟨0, 0⟩ 1 9 7 7) tRankedCmp
    && ready .sc ⟨0, 0⟩ (.cmp ⟨0, 0⟩ 0 9 2 7) tRankedCmp && (rankedOn tRankedCmp.c (.s 7)).isSome && tRankedCmp.c.emu.isNone) = true := by
  decide +kernel

theorem wit_StepTakesTheInput_mail : (serveMail State.reset).isNone = true ∧ (serveMail tAddi).isNone = true ∧ tAddi.c.bun.blind = none := by
  decide +kernel

/-- A command that the host has started: Firmware: State. -/
def tDueMail : State := { tMail with mon := { tMail.mon with due := [⟨tMb, 0xA6, []⟩] } }

theorem wit_StepTakesTheInput_serves : ((serveMail tDueMail).isSome && tDueMail.inputs.isEmpty && !cutShort tDueMail.c) = true := by
  decide +kernel

/-- The innermost loop of a task at the end of its trip: with N, E, the trip, the drain's k and a request. -/
def tDrain (n e trip : Nat) (stop : Option Nat) (req : Bool) : State := tRun.onC fun c => { c with
  tripAt := some 0x1000, preempt := req, loops := [⟨0x0FE0, 0x1000, n, e, trip, true, true, stop⟩] }

theorem wit_EndOfTripSteps_drain : ([tDrain 5 2 1 none true, tDrain 5 2 3 (some 3) true, tDrain 5 2 6 (some 5) true, tDrain 5 2 4 (some 3) true,
    tDrain 5 2 4 (some 3) false].all fun s => s.c.tripAt == some 0x1000 && !s.c.trap.handler && s.c.spec.isNone
      && match s.c.loops with
        | [l] => l.last == 0x1000 && (match l.stop with
          | some k => decide (l.trip + 1 < k + l.e) || decide (l.n ≤ k) || decide (k < l.n)
          | none => s.c.preempt && l.pre && decide (l.trip < l.n) && l.rot)
        | _ => false) = true := by decide +kernel

/-- Atomics on the word that holds a descriptor's FMT: one that leaves a format, and one that leaves none. -/
theorem wit_AtomicsActAtHome_format : (
    let s := tWith 0x10068 tRun
    (ready .sc ⟨0, 0⟩ (.amoXchg ⟨0, 0⟩ 7 6 0 0) s && tReach s .atomic (s.rdS 6) 8 && !badFmtStore s (s.rdS 6) (natLe 8 0))
    && ready .sc ⟨0, 0⟩ (.amoXchg ⟨0, 0⟩ 7 6 2 0) s && badFmtStore s (s.rdS 6) (natLe 8 (s.rdS 2).toNat)
    && !homePoisoned s 0x210000) = true := by decide +kernel

/-- An earlier command that stores an image where another loads one. -/
def tHeader : State := (tImage [0, 2]).onC fun c => { c with
  mxq := match useTens tRun 10 none with
    | .ok t => [{ newCmd .mx (.mst ⟨0, 0⟩ 1 10) tRun with ts := [t], wids := [t.d.id] }]
    | .error _ => [] }

theorem wit_MatrixMemoryIssue_header : (ready .mx ⟨0, 0⟩ (.mld ⟨0, 0⟩ 3 10) tHeader && !tHeader.c.mxq.any decides
    && okB (imageTens .read 10 tHeader) fun t => okB (engReads tHeader t false (span 0 64)) fun hh => okB (engHold tHeader hh) fun _ =>
      headerWaits tHeader hh && okB (mapRead (codeAt tHeader t) (span 0 64)) fun _ => decide (64 ≤ ext0 t)) = true := by decide +kernel

/-- A compressed tensor has no layout that an image, or a publish, may use. -/
theorem wit_layout : (okB (useTens tRun 9 none) fun t => !layoutOk t && okB (curHome tRun t.d.id) fun _ =>
    ready .sy ⟨0, 0⟩ (.pub ⟨0, 0⟩ 9) tRun && tStops (.pub ⟨0, 0⟩ 9) tRun && (match imageTens .read 9 tRun with
      | .error x => x == .fault 0x37 none
      | .ok _ => false)) = true := by decide +kernel

/-- A plan whose block runs, and one whose block has failed. -/
theorem wit_SyncIssue_wait : (
    (let s := tRun.onC fun c => { c with failing := some ⟨newCmd .sy (.pexec ⟨0, 0⟩ 5) tRun, 0x93, 3, 0⟩ }
     ready .sy ⟨0, 0⟩ (.pwait ⟨0, 0⟩ 5) s && s.c.failing.any fun f => f.cmd.i == .pexec f.cmd.i.guard 5)
    && (let h : PlanHandle := ⟨2, false, 0, 0, [], ⟨[], [], [], 0, 0, 0, []⟩, [], 0, [], some ⟨0, 0x1000, 0, [], [], [], [], [], []⟩⟩
        let s : State := { tRun with mon := { tRun.mon with ctxs := [(1, { tContext with plans := [(5, h)] })] } }
        ready .sy ⟨0, 0⟩ (.pwait ⟨0, 0⟩ 5) s && (planOf s 5).any fun h => h.run.isSome)) = true := by decide +kernel

/-- An index tensor of two dimensions. -/
theorem wit_SparseIssue_dims : (ready .sp ⟨0, 0⟩ (.gth ⟨0, 0⟩ 2 1 17) tRun && tStops (.gth ⟨0, 0⟩ 2 1 17) tRun
    && okB (wholeTensor tRun .write false 2) (fun td => okB (spSource tRun 1 none) fun x => okB (spSource tRun 17 none) fun y =>
      okB (sameCodes td x.1) fun _ => td.ext.tail == x.1.ext.tail && decide (7 ≤ y.1.d.fmt) && decide (y.1.d.fmt ≤ 13) && y.1.ext.length == 2))
    = true := by decide +kernel

/-- A publish whose arrival has to wait: an earlier arrival of barrier 1 stands. -/
theorem wit_CopyExecute_arrived : (okB (useTens tRun 7 none) fun td => okB (useTens tRun 1 none) fun ts =>
    let crc := (crc32c (rowsBy 2 [0x3F800000, 0x40000000, 0x40400000, 0x40800000] |>.flatMap (packRow 0))).setWidth 64
    let q := tCpCmd (.cpk ⟨0, 0⟩ 3 7 1) [td, ts] [0, 0, crc, 0x010100]
    let s := (tCp q tRun).onC fun c => { c with bars := [(1, ⟨0, true, true, true⟩)] }
    (barOf s.c 1).arrived && !levelClash s.c 1 0 && tMoves q s td ts (rowPairs td.ext 0 0) fun _ _ => true) = true := by decide +kernel

end Sys2Proof.Tests
end

section
/-! SUPPORT. Bytes written at successive addresses read back, under whatever keys their blocks stood, and no other block changes (R216, R318). -/

namespace Sys2Proof.Machine

theorem cellsAt_cons (a : Nat) (b : Byte) (bs : List Byte) : cellsAt a (b :: bs) = (a, b) :: cellsAt (a + 1) bs := by
  simp only [cellsAt, List.zipIdx_cons', List.map_cons, List.map_map, Nat.add_zero]
  congr 1
  refine List.map_congr_left fun x _ => ?_
  simp [Nat.add_comm, Nat.add_left_comm]

theorem mem_cellsAt {a : Nat} {bs : List Byte} {c : Host.Cell} (h : c ∈ cellsAt a bs) : ∃ j, j < bs.length ∧ c.1 = a + j := by
  obtain ⟨⟨x, j⟩, hx, rfl⟩ := List.mem_map.mp h
  exact ⟨j, by simpa using List.snd_lt_of_mem_zipIdx hx, rfl⟩

theorem mem_cellsAt_of_lt {a j : Nat} {bs : List Byte} (h : j < bs.length) : ∃ c ∈ cellsAt a bs, c.1 = a + j :=
  ⟨_, List.mem_map.mpr ⟨(bs[j], j), by simp [List.mk_mem_zipIdx_iff_getElem?, h], rfl⟩, rfl⟩

theorem memGet_memSetAll_cellsAt (bs : List Byte) {m : List Host.Cell} (hm : Memory.wf m = true) (a j : Nat) (h : j < bs.length) :
    memGet (memSetAll (cellsAt a bs) m) (a + j) = bs[j] := by
  induction bs generalizing a m j with
  | nil => cases h
  | cons b bs ih =>
    rw [cellsAt_cons]
    change memGet (memSetAll (cellsAt (a + 1) bs) (memSet m a b)) (a + j) = _
    cases j with
    | zero =>
      rw [memGet_memSetAll_other _ (wf_memSet hm _ _) _ fun c hc => by
        obtain ⟨k, -, hk⟩ := mem_cellsAt hc; omega]
      simp [memGet_memSet hm]
    | succ j =>
      rw [show a + (j + 1) = a + 1 + j by omega]
      exact ih (wf_memSet hm _ _) (a + 1) j (by simpa using h)

theorem homeBlock_lt (a : Nat) : homeBlock a < 2 ^ 74 := by unfold homeBlock homePhys; omega

theorem homeBlock_tagHome (t : Nat) {b j : Nat} (hb : b < 2 ^ 74) (hj : j < 64) : homeBlock (tagHome t (64 * b) + j) = b := by
  unfold homeBlock homePhys tagHome; omega

theorem tagOf_rekeyBlock {m : KeyedMem} (h : keyedWf m.2 = true) (t b c : Nat) :
    tagOf (rekeyBlock t b m).2 c = if c = b then t else tagOf m.2 c := by
  simp only [keyedWf, Bool.and_eq_true] at h
  unfold tagOf rekeyBlock
  by_cases ht : t = 0
  · simp only [ht, if_true, SMap.get?_del h.1]; split <;> rfl
  · simp only [ht, if_false, SMap.get?_put]; split <;> rfl

theorem rekeyBlock_wf (t b : Nat) {m : KeyedMem} (h : Memory.wf m.1 = true ∧ keyedWf m.2 = true) :
    Memory.wf (rekeyBlock t b m).1 = true ∧ keyedWf (rekeyBlock t b m).2 = true := by
  refine ⟨wf_memSetAll _ (wf_memSetAll _ h.1), ?_⟩
  simp only [rekeyBlock]
  split
  · exact keyed_del h.2
  · exact keyed_put h.2 ‹_›

theorem rekeyAll_cons (c : Host.Cell) (l : List Host.Cell) (m : KeyedMem) :
    rekeyAll (c :: l) m = rekeyAll l (if sameKey m.2 c.1 then m else rekeyBlock (homeTag c.1) (homeBlock c.1) m) := rfl

/-- Two memories agree on a block: its tag, and its bytes under every tag. -/
def agreeOn (b : Nat) (m m' : KeyedMem) : Prop := tagOf m'.2 b = tagOf m.2 b ∧ ∀ a, homeBlock a = b → memGet m'.1 a = memGet m.1 a

theorem agreeOn_trans {b : Nat} {m m' m'' : KeyedMem} (h : agreeOn b m m') (h' : agreeOn b m' m'') : agreeOn b m m'' :=
  ⟨h'.1.trans h.1, fun a ha => (h'.2 a ha).trans (h.2 a ha)⟩

theorem agreeOn_memSetAll {b : Nat} (l : List Host.Cell) {m : KeyedMem} (hm : Memory.wf m.1 = true) (hl : ∀ c ∈ l, homeBlock c.1 ≠ b) :
    agreeOn b m (memSetAll l m.1, m.2) :=
  ⟨rfl, fun a ha => memGet_memSetAll_other l hm a fun c hc e => hl c hc (by rw [e, ha])⟩

theorem otherKeyAt_congr {k tag b : Nat} {get get' : Nat → Byte} (h : ∀ i, i < 64 → get' (tagHome k (64 * b + i)) = get (tagHome k (64 * b + i))) :
    otherKeyAt k get' tag b = otherKeyAt k get tag b := by
  have hs : (List.range 64).map (fun i => get' (tagHome k (64 * b + i))) = (List.range 64).map fun i => get (tagHome k (64 * b + i)) :=
    List.map_congr_left fun i hi => h i (List.mem_range.mp hi)
  unfold otherKeyAt; rw [hs]

/-- Two memories that agree on a byte's block read the byte alike, by whatever key it is reached. -/
theorem keyedByte_of_agreeOn {a : Nat} {m m' : KeyedMem} (h : agreeOn (homeBlock a) m m') :
    keyedByte m'.2 (memGet m'.1) a = keyedByte m.2 (memGet m.1) a := by
  obtain ⟨ht, hb⟩ := h
  have ho : otherKey m'.2 (memGet m'.1) (homeTag a) (homeBlock a) = otherKey m.2 (memGet m.1) (homeTag a) (homeBlock a) := by
    unfold otherKey; rw [ht]
    exact otherKeyAt_congr fun i hi =>
      hb _ ((congrArg homeBlock (Nat.add_assoc ..).symm).trans (homeBlock_tagHome _ (homeBlock_lt a) hi))
  unfold keyedByte sameKey; rw [ho, ht, hb a rfl]

theorem length_otherKey (keyed : SMap Nat) (get : Nat → Byte) (tag b : Nat) : (otherKey keyed get tag b).length = 64 := by
  simp only [otherKey, otherKeyAt, Config.xtsEncrypt, Config.xtsDecrypt, apply_ite List.length, List.length_map, List.length_range, ite_self]

theorem agreeOn_rekeyBlock {b c : Nat} (t : Nat) {m : KeyedMem} (h : Memory.wf m.1 = true ∧ keyedWf m.2 = true) (hc : c < 2 ^ 74)
    (hne : c ≠ b) : agreeOn b m (rekeyBlock t c m) := by
  refine ⟨by rw [tagOf_rekeyBlock h.2, if_neg (Ne.symm hne)], fun a ha => ?_⟩
  have outside {t : Nat} {bs : List Byte} (hl : bs.length = 64) : ∀ x ∈ cellsAt (tagHome t (64 * c)) bs, x.1 ≠ a := by
    rintro x hx rfl
    obtain ⟨j, hj, e⟩ := mem_cellsAt hx
    exact hne (by rw [← ha, e, homeBlock_tagHome t hc (hl ▸ hj)])
  unfold rekeyBlock
  rw [memGet_memSetAll_other _ (wf_memSetAll _ h.1) a (outside (length_otherKey ..)), memGet_memSetAll_other _ h.1 a (outside List.length_replicate)]

/-- Rekeying touches no block in which no cell lies. -/
theorem agreeOn_rekeyAll {b : Nat} (l : List Host.Cell) {m : KeyedMem} (h : Memory.wf m.1 = true ∧ keyedWf m.2 = true)
    (hl : ∀ c ∈ l, homeBlock c.1 ≠ b) : agreeOn b m (rekeyAll l m) := by
  induction l generalizing m with
  | nil => exact ⟨rfl, fun _ _ => rfl⟩
  | cons c l ih =>
    have hl' : ∀ x ∈ l, homeBlock x.1 ≠ b := fun x hx => hl x (List.mem_cons_of_mem _ hx)
    rw [rekeyAll_cons]
    split
    · exact ih h hl'
    · exact agreeOn_trans (agreeOn_rekeyBlock _ h (homeBlock_lt _) (hl c (List.mem_cons_self ..))) (ih (rekeyBlock_wf _ _ h) hl')

/-- A byte keeps standing under its key where another block is rekeyed, or its own to that key. -/
theorem sameKey_rekeyBlock {m : KeyedMem} (hk : keyedWf m.2 = true) {t b a : Nat} (ht : homeTag a = t)
    (h : homeBlock a = b ∨ sameKey m.2 a = true) : sameKey (rekeyBlock t b m).2 a = true := by
  unfold sameKey at h ⊢
  rw [tagOf_rekeyBlock hk]
  split
  · simp [ht]
  · exact h.resolve_left ‹_›

/-- After cells of one tag have rekeyed their blocks, each of them, and each that did so before, reaches its block under its key. -/
theorem sameKey_rekeyAll (l : List Host.Cell) {m : KeyedMem} (h : Memory.wf m.1 = true ∧ keyedWf m.2 = true) {t a : Nat}
    (hl : ∀ c ∈ l, homeTag c.1 = t) (ha : homeTag a = t) (hs : sameKey m.2 a = true ∨ ∃ c ∈ l, c.1 = a) :
    sameKey (rekeyAll l m).2 a = true := by
  induction l generalizing m with
  | nil => simpa [rekeyAll] using hs
  | cons c l ih =>
    have hc : homeTag c.1 = t := hl c (List.mem_cons_self ..)
    have hl' : ∀ x ∈ l, homeTag x.1 = t := fun x hx => hl x (List.mem_cons_of_mem _ hx)
    rw [rekeyAll_cons, hc]
    split
    · next hsame =>
      refine ih h hl' ?_
      rcases hs with hs | ⟨x, hx, rfl⟩
      · exact .inl hs
      · rcases List.mem_cons.mp hx with rfl | hx
        · exact .inl hsame
        · exact .inr ⟨x, hx, rfl⟩
    · refine ih (rekeyBlock_wf _ _ h) hl' ?_
      rcases hs with hs | ⟨x, hx, rfl⟩
      · exact .inl (sameKey_rekeyBlock h.2 ha (.inr hs))
      · rcases List.mem_cons.mp hx with rfl | hx
        · exact .inl (sameKey_rekeyBlock h.2 ha (.inl rfl))
        · exact .inr ⟨x, hx, rfl⟩

/-- The bytes of a write at successive addresses read back. -/
theorem memByte_write_cellsAt {s : State} (hs : s.MemOk) {a : Nat} {bs : List Byte} (hb : homePhys a + bs.length ≤ 2 ^ 80) {j : Nat}
    (h : j < bs.length) : (s.write (cellsAt a bs)).memByte (a + j) = bs[j] := by
  obtain ⟨hm, -, hk, -⟩ := hs
  have tag (k : Nat) (hj : k < bs.length) : homeTag (a + k) = homeTag a := by
    unfold homePhys at hb; unfold homeTag; omega
  have hsame : sameKey (s.write (cellsAt a bs)).keyed (a + j) = true :=
    sameKey_rekeyAll (m := (s.mem, s.keyed)) _ ⟨hm, hk⟩
      (fun c hc => by obtain ⟨k, hj, e⟩ := mem_cellsAt hc; rw [e]; exact tag k hj) (tag j h) (.inr (mem_cellsAt_of_lt h))
  rw [State.memByte, keyedByte, if_pos hsame]
  exact memGet_memSetAll_cellsAt bs (rekeyAll_wf _ (m := (s.mem, s.keyed)) ⟨hm, hk⟩).1 a j h

/-- A byte outside a write reads as before: in another block always, in a written one where no key changes. -/
theorem memByte_write_other {s : State} (hs : s.MemOk) {l : List Host.Cell} {b : Nat} (hb : ∀ c ∈ l, c.1 ≠ b)
    (h : (sameKeys s l ∧ sameKey s.keyed b = true) ∨ ∀ c ∈ l, homeBlock c.1 ≠ homeBlock b) : (s.write l).memByte b = s.memByte b := by
  obtain ⟨hm, -, hk, -⟩ := hs
  rcases h with ⟨hl, hsame⟩ | hl
  · obtain ⟨hmem, hkeyed⟩ := write_same hl
    rw [State.memByte, State.memByte, keyedByte, keyedByte, hmem, hkeyed, if_pos hsame, if_pos hsame]
    exact memGet_memSetAll_other l hm b hb
  · have hwf := rekeyAll_wf l (m := (s.mem, s.keyed)) ⟨hm, hk⟩
    exact keyedByte_of_agreeOn (m := (s.mem, s.keyed)) (m' := ((s.write l).mem, (s.write l).keyed))
      (agreeOn_trans (agreeOn_rekeyAll l ⟨hm, hk⟩ hl) (agreeOn_memSetAll l hwf.1 hl))

/-- The frame of a write of bytes at successive addresses. -/
theorem memByte_write_cellsAt_other {s : State} (hs : s.MemOk) {a b : Nat} {bs : List Byte} (hb : b < a ∨ a + bs.length ≤ b)
    (h : (sameKeys s (cellsAt a bs) ∧ sameKey s.keyed b = true) ∨ ∀ j, j < bs.length → homeBlock b ≠ homeBlock (a + j)) :
    (s.write (cellsAt a bs)).memByte b = s.memByte b := by
  refine memByte_write_other hs (fun c hc => ?_) (h.imp_right fun hne c hc => ?_) <;> obtain ⟨j, hj, e⟩ := mem_cellsAt hc
  · omega
  · rw [e]; exact (hne j hj).symm

/-- Settles O33: the write rekeys the blocks of its cells first and then stores them, so that each is read under its own key. -/
theorem memoryReadsBack : Obligations.MemoryReadsBack := fun _ a bs hs hlen =>
  ⟨fun _ hj => memByte_write_cellsAt hs hlen hj, fun _ hb h => memByte_write_cellsAt_other hs hb h, MemOk_write (cellsAt a bs) hs, rfl⟩

end Sys2Proof.Machine
end

section
/-! SUPPORT. Scalar loads and stores whose access reaches its home address (R106, R107, R202). -/

namespace Sys2Proof.Machine

theorem eq_of_ite_ok {ε α : Type} {p : Prop} [Decidable p] {x a : α} {e : ε} (h : (if p then .ok x else .error e) = Except.ok a) : x = a := by
  split at h
  · exact Except.ok.inj h
  · cases h

/-- Where an address that resolves has its home: in a window above device memory, or under a tag; never in the stream window. -/
theorem translate_ok {s : State} {ctx va a : Nat} {k : Acc} {dev : Bool} (h : translate s ctx k dev va = .ok a) :
    va / 2 ^ 40 ≠ 0xFFD ∧ ∃ tag p, p < 2 ^ 53 ∧ a = tagHome tag p := by
  have hwindow (b off : Nat) (hb : b ≤ 2 ^ 49) (ho : off < 2 ^ 40) : ∃ tag p, p < 2 ^ 53 ∧ b + off = tagHome tag p :=
    ⟨0, b + off, by omega, by simp [tagHome]⟩
  have hoff : va % 2 ^ 40 < 2 ^ 40 := Nat.mod_lt _ (by decide)
  unfold translate at h
  split at h
  · cases h
  next hva =>
  dsimp only at h
  split at h
  · split at h
    · cases h
    split at h
    · next hw =>
      obtain rfl := eq_of_ite_ok h
      exact ⟨by omega, hwindow _ _ (by omega) hoff⟩
    split at h
    · next hw =>
      obtain rfl := eq_of_ite_ok h
      exact ⟨by omega, hwindow _ _ (by omega) hoff⟩
    split at h <;> cases h
  · next hw =>
    refine ⟨fun e => hw (.inr (.inr e)), ?_⟩
    split at h
    · cases h
    split at h
    · obtain rfl := eq_of_ite_ok h
      exact ⟨_, _, by omega, rfl⟩
    · split at h
      · cases h
      · obtain rfl := eq_of_ite_ok h
        exact ⟨_, _, by unfold pteAddr; omega, rfl⟩
theorem streamWord_of_translate {s : State} {ctx a : Nat} {k : Acc} {dev : Bool} {ea : Word} (h : translate s ctx k dev ea.toNat = .ok a) :
    streamWord ea = none :=
  if_neg fun hw => (translate_ok h).1 hw.1

theorem homePhys_of_translate {s : State} {ctx va a : Nat} {k : Acc} {dev : Bool} (h : translate s ctx k dev va = .ok a) :
    homePhys a < 2 ^ 53 := by
  obtain ⟨-, tag, p, hp, rfl⟩ := translate_ok h
  unfold homePhys tagHome; omega

theorem held_of_ready {k : Slot} {g : Guard} {i : Instr} {s : State} (h : ready k g i s = true) : s.c.held = none := by
  simp only [ready, Bool.and_eq_true, Option.isNone_iff_eq_none, and_assoc] at h
  exact h.1

theorem laneOf_of_ready {g : Guard} {i : Instr} {s : State} (h : ready .sc g i s = true) : laneOf s 0 = [] := by
  simp only [ready, laneIdx, Bool.and_eq_true, List.isEmpty_iff] at h
  exact h.2.1

theorem effAddr_eq (base : Word) {w : Nat} (o : BitVec w) (n : Nat) : effAddr base o n = base + BitVec.ofNat 64 n * o.signExtend 64 := by
  rw [effAddr, BitVec.mul_comm]

theorem scalarHome_of_reaches {s : State} {k : Acc} {ea : Word} {n a : Nat} (h : reaches s k ea n a) : scalarHome s k ea n = .ok a := by
  obtain ⟨halign, htrans, hphase, -⟩ := h
  have : (!isPoolHome a && phaseHolds s) = false := by rcases hphase with h | h <;> simp [h]
  simp [scalarHome, halign, htrans, this]

theorem loadAt_of_reaches {s : State} {ea : Word} {n a : Nat} (h : reaches s .read ea n a) (hp : poisoned s a = false) :
    loadAt s ea n = .ok (s.readBytes a n) := by
  rw [loadAt, scalarHome_of_reaches h]
  change (if emptyAt s a then _ else _) = _
  rw [h.2.2.2, hp]; rfl

theorem loadOp_of_reaches {g : Guard} {i : Instr} {d a o : BitVec 6} {n h : Nat} {ext : Nat → Word} {s : State} (hr : ready .sc g i s = true)
    (ha : reaches s .read (s.rdS a + BitVec.ofNat 64 n * o.signExtend 64) n h) (hp : poisoned s h = false) :
    loadOp g i d a o n ext s = .next (writeVar .sc d (ext (leNat (s.readBytes h n))) s) := by
  rw [← effAddr_eq] at ha
  exact slotOut_next hr (by rw [loadAt_of_reaches ha hp]; rfl)

theorem execLdD_of_reaches {g : Guard} {d a o : BitVec 6} {k : BitVec 2} {h : Nat} {s : State} (hr : ready .sc g (.ldD g d a k o) s = true)
    (ha : reaches s .read (s.rdS a + BitVec.ofNat 64 8 * o.signExtend 64) 8 h) (hp : poisoned s h = false) :
    execLdD g d a k o s = .next (writeVar .sc d (BitVec.ofNat 64 (leNat (s.readBytes h 8))) s) := by
  rw [← effAddr_eq] at ha
  exact slotOut_next hr (by simp only [streamWord_of_translate ha.2.1, loadAt_of_reaches ha hp]; rfl)

theorem execLdh_of_reaches {g : Guard} {x : BitVec 5} {a : BitVec 6} {k : BitVec 2} {o : BitVec 7} {h : Nat} {s : State}
    (hr : ready .sc g (.ldh g x a k o) s = true) (ha : reaches s .read (s.rdS a + BitVec.ofNat 64 32 * o.signExtend 64) 32 h)
    (hp : poisoned s h = false) :
    execLdh g x a k o s = .next (postVar .sc (.h x) (BitVec.ofNat 256 (leNat (s.readBytes h 32))) (pushUndo 1 (x.setWidth 12) (s.c.r.rdH x) s)) := by
  rw [← effAddr_eq] at ha
  exact slotOut_next hr (by rw [loadAt_of_reaches ha hp]; rfl)

theorem streamWord_of_toNat {ea : Word} {z : BitVec 3} (h : ea.toNat = 0xFFD * 2 ^ 40 + 8 * z.toNat) : streamWord ea = some z.toNat := by
  have hz := z.isLt
  unfold streamWord
  rw [h, if_pos (by omega)]
  congr 1; omega

/-- A stream load takes the oldest element where the stream is bound and no load waits before it. -/
theorem streamLoad_of_buf {s : State} {z : Nat} {hz : z < 8} {d : BitVec 6} {v : Word} {rest : List Word} (hs : s.c.spec = none)
    (hl : laneOf s 0 = []) (hb : (s.c.z[z]'hz).bound = true) (hw : (s.c.z[z]'hz).waits = []) (hv : (s.c.z[z]'hz).buf = v :: rest) :
    streamLoad z d s = .ok (writeVar .sc d v (onZ z (fun x => { x with buf := rest, taken := x.taken + 1 }) s)) := by
  have hx : s.c.z[z]? = some (s.c.z[z]'hz) := Vector.getElem?_eq_getElem hz
  have ht : laneTakes z s = 0 := by rw [laneTakes, hl]; rfl
  simp [streamLoad, speculating, hx, hs, ht, hb, hw, hv]

/-- Settles O28: a load reads at the home that its access reaches, and ld.d takes from a stream only at an address that has none. -/
theorem loadsReturnMemory : Obligations.LoadsReturnMemory := by
  refine ⟨fun g d a o k s h hp => ⟨?_, ?_, ?_, ?_, ?_, ?_, ?_⟩, fun g x a k o s h hp hr ha => execLdh_of_reaches hr ha hp,
    fun g d a o k s z v rest hr hea hs hb hw hv => slotOut_next hr ?_⟩
  iterate 6 exact fun hr ha => loadOp_of_reaches hr ha hp
  · exact fun hr ha => execLdD_of_reaches hr ha hp
  · have hz : streamWord (effAddr (s.rdS a) o 8) = some z.toNat := by rw [effAddr_eq]; exact streamWord_of_toNat hea
    simp only [hz]
    exact streamLoad_of_buf hs (laneOf_of_ready hr) hb hw hv

@[simp] theorem length_natLe (n v : Nat) : (natLe n v).length = n := by
  induction n generalizing v with
  | zero => rfl
  | succ n ih => rw [natLe, List.length_cons, ih]

theorem getElem_natLe {n v j : Nat} (h : j < (natLe n v).length) : (natLe n v)[j] = BitVec.ofNat 8 (v / 256 ^ j) := by
  induction n generalizing v j with
  | zero => simp at h
  | succ n ih =>
    cases j with
    | zero => simp [natLe]
    | succ j => simp only [natLe, List.getElem_cons_succ, ih, Nat.div_div_eq_div_mul, Nat.pow_succ']

/-- What a store does once its access has reached its home (R37, R97, R188). -/
theorem storeAt_of_reaches {s : State} {ea : Word} {bs : List Byte} {a : Nat} (h : reaches s .write ea bs.length a)
    (hp : bs.length < 8 → poisoned s a = false) :
    storeAt s ea bs = if badFmtStore s ea bs then .error (.fault 0x13 none) else
      match s.c.spec with
      | some sp => if 32 ≤ sp.held.length then .error (specWait s)
        else .ok (s.onC fun c => { c with spec := some { sp with held := sp.held ++ [⟨cellsAt a bs, inDescTable s ea⟩] } })
      | none => if s.c.txn.act && inDescTable s ea then .ok (joinTxn (.store (cellsAt a bs)) s) else .ok (s.write (cellsAt a bs)) := by
  have hpoison : ¬ (bs.length < 8 ∧ poisoned s a = true) := fun ⟨hl, ht⟩ => by simp [hp hl] at ht
  rw [storeAt, scalarHome_of_reaches h]
  change (if badFmtStore s ea bs then _ else if emptyAt s a then _ else if bs.length < 8 ∧ poisoned s a = true then _ else _) = _
  rw [h.2.2.2, if_neg hpoison]; rfl

/-- The five stores are one operation at the address and the number that memOf and storedNat give. -/
theorem exec_store {i : Instr} {s : State} {ea : Word} {n : Nat} (h : memOf i s = some (.write, ea, n)) :
    ∃ body : Body, exec i s = slotOut .sc i.guard i s body ∧ body s = storeAt s ea (natLe n (storedNat i s)) ∧ n ≤ 32 := by
  unfold memOf at h
  split at h <;> simp only [Option.some.injEq, Prod.mk.injEq, reduceCtorEq, false_and, true_and] at h
  all_goals
    obtain ⟨rfl, rfl⟩ := h
    refine ⟨_, rfl, ?_, by decide⟩
    simp only [effAddr_eq, BitVec.one_mul]; rfl

theorem readByte_of_spec_none {s : State} (h : s.c.spec = none) (a : Nat) : s.readByte a = s.memByte a := by
  unfold State.readByte; rw [h]

/-- Settles O29: the store's body is one write of its bytes at the home that the access reaches. -/
theorem storesChangeTheirBytes : Obligations.StoresChangeTheirBytes := by
  intro i s ea n a hm hr ha hp
  obtain ⟨body, hexec, hbody, hn⟩ := exec_store hm
  have hlen : (natLe n (storedNat i s)).length = n := length_natLe ..
  rw [storeAt_of_reaches (a := a) (by rwa [hlen]) (by rwa [hlen])] at hbody
  rw [hexec]
  refine ⟨fun hbad => ?_, fun hgood => ?_⟩
  · rw [if_pos hbad] at hbody
    rw [slotOut_error hr hbody (by simp), endSlot, held_of_ready hr]; rfl
  · rw [if_neg (by simp [hgood])] at hbody
    refine ⟨fun hs hnow => ?_, fun sp hsp hheld => ?_, fun hspec hact hin => ?_⟩
    · simp only [storesNow, Bool.and_eq_true, Option.isNone_iff_eq_none, Bool.not_eq_true'] at hnow
      obtain ⟨hspec, hjoin⟩ := hnow
      have hfits : homePhys a + (natLe n (storedNat i s)).length ≤ 2 ^ 80 := by have := homePhys_of_translate ha.2.1; omega
      simp only [hspec, hjoin, Bool.false_eq_true, if_false] at hbody
      refine ⟨_, slotOut_next hr hbody, fun j hj => ?_, fun b hb h => ?_, rfl, rfl, rfl, rfl, rfl, rfl, rfl, rfl, rfl⟩
      · rw [readByte_of_spec_none (s := s.write _) hspec, memByte_write_cellsAt hs hfits (by rwa [hlen]), getElem_natLe]
      · rw [readByte_of_spec_none (s := s.write _) hspec, readByte_of_spec_none hspec]
        exact memByte_write_cellsAt_other hs (by rwa [hlen]) (by rwa [hlen])
    · exact slotOut_next hr (by rw [hbody, hsp]; exact if_neg (by omega))
    · exact slotOut_next hr (by rw [hbody, hspec, hact, hin]; rfl)

end Sys2Proof.Machine
end

section
/-! SUPPORT. Which cells a memory lists after writes, after the mapping of an image's pages, and which tags an installed image leaves (R306, R312, R318). -/

namespace Sys2Proof

theorem SMap.mem_of_mem_put {α : Type} {m : SMap α} {a : Nat} {x : α} {c : Nat × α} (h : c ∈ SMap.put m a x) : c = (a, x) ∨ c ∈ m := by
  induction m with
  | nil => exact .inl (List.mem_singleton.mp h)
  | cons p m ih =>
    obtain ⟨k, v⟩ := p
    unfold SMap.put at h
    split at h
    · exact List.mem_cons.mp h
    · split at h
      · exact (List.mem_cons.mp h).imp_right (List.mem_cons_of_mem _)
      · rcases List.mem_cons.mp h with rfl | h
        · exact .inr (List.mem_cons_self ..)
        · exact (ih h).imp_right (List.mem_cons_of_mem _)

theorem SMap.mem_put_self {α : Type} (m : SMap α) (a : Nat) (x : α) : (a, x) ∈ SMap.put m a x := by
  induction m with
  | nil => exact List.mem_singleton.mpr rfl
  | cons p m ih =>
    obtain ⟨k, v⟩ := p
    unfold SMap.put
    split
    · exact List.mem_cons_self ..
    · split
      · exact List.mem_cons_self ..
      · exact List.mem_cons_of_mem _ ih

theorem SMap.mem_put_of_mem {α : Type} {m : SMap α} {a : Nat} {c : Nat × α} (x : α) (h : c ∈ m) (hne : c.1 ≠ a) : c ∈ SMap.put m a x := by
  induction m with
  | nil => cases h
  | cons p m ih =>
    obtain ⟨k, v⟩ := p
    unfold SMap.put
    split
    · exact List.mem_cons_of_mem _ h
    · rcases List.mem_cons.mp h with rfl | h
      · rw [if_neg (Ne.symm hne)]; exact List.mem_cons_self ..
      · split
        · exact List.mem_cons_of_mem _ h
        · exact List.mem_cons_of_mem _ (ih h)

theorem SMap.mem_of_mem_del {α : Type} {m : SMap α} {a : Nat} {c : Nat × α} (h : c ∈ SMap.del m a) : c ∈ m := by
  induction m with
  | nil => cases h
  | cons p m ih =>
    obtain ⟨k, v⟩ := p
    unfold SMap.del at h
    split at h
    · exact List.mem_cons_of_mem _ h
    · exact List.mem_cons.mpr ((List.mem_cons.mp h).imp_right ih)

theorem SMap.mem_del_of_mem {α : Type} {m : SMap α} {a : Nat} {c : Nat × α} (h : c ∈ m) (hne : c.1 ≠ a) : c ∈ SMap.del m a := by
  induction m with
  | nil => cases h
  | cons p m ih =>
    obtain ⟨k, v⟩ := p
    unfold SMap.del
    rcases List.mem_cons.mp h with rfl | h
    · rw [if_neg hne]; exact List.mem_cons_self ..
    · split
      · exact h
      · exact List.mem_cons_of_mem _ (ih h)

theorem SMap.mem_of_get? {α : Type} {m : SMap α} {a : Nat} {x : α} (h : SMap.get? m a = some x) : (a, x) ∈ m := by
  induction m with
  | nil => cases h
  | cons p m ih =>
    obtain ⟨k, v⟩ := p
    unfold SMap.get? at h
    split at h
    · next hk => obtain rfl := Option.some.inj h; rw [hk]; exact List.mem_cons_self ..
    · exact List.mem_cons_of_mem _ (ih h)

namespace Machine

theorem mem_of_mem_memSet {m : List Host.Cell} {a : Nat} {b : Byte} {c : Host.Cell} (h : c ∈ memSet m a b) : c.1 = a ∨ c ∈ m := by
  unfold memSet at h
  split at h
  · exact .inr (SMap.mem_of_mem_del h)
  · exact (SMap.mem_of_mem_put h).imp_left (congrArg Prod.fst)

theorem mem_memSet_of_mem {m : List Host.Cell} {a : Nat} {c : Host.Cell} (b : Byte) (h : c ∈ m) (hne : c.1 ≠ a) : c ∈ memSet m a b := by
  unfold memSet
  split
  · exact SMap.mem_del_of_mem h hne
  · exact SMap.mem_put_of_mem _ h hne

theorem mem_of_mem_memSetAll {l m : List Host.Cell} {c : Host.Cell} (h : c ∈ memSetAll l m) : (∃ d ∈ l, d.1 = c.1) ∨ c ∈ m := by
  induction l generalizing m with
  | nil => exact .inr h
  | cons d l ih =>
    rcases ih (m := memSet m d.1 d.2) h with ⟨e, he, hc⟩ | h
    · exact .inl ⟨e, List.mem_cons_of_mem _ he, hc⟩
    · exact (mem_of_mem_memSet h).imp_left fun hc => ⟨d, List.mem_cons_self .., hc.symm⟩

theorem mem_memSetAll_of_mem {l m : List Host.Cell} {c : Host.Cell} (h : c ∈ m) (hl : ∀ d ∈ l, d.1 ≠ c.1) : c ∈ memSetAll l m := by
  induction l generalizing m with
  | nil => exact h
  | cons d l ih =>
    exact ih (mem_memSet_of_mem _ h (hl d (List.mem_cons_self ..)).symm) fun e he => hl e (List.mem_cons_of_mem _ he)

/-- Every cell of a memory lies below an address. -/
def endsBelow (n : Nat) (m : List Host.Cell) : Prop := ∀ c ∈ m, c.1 < n

theorem endsBelow_filter {n : Nat} {m : List Host.Cell} (p : Host.Cell → Bool) (h : endsBelow n m) : endsBelow n (m.filter p) :=
  fun c hc => h c (List.mem_filter.mp hc).1

theorem endsBelow_cellsAt {n a : Nat} {bs : List Byte} {m : List Host.Cell} (h : endsBelow n m) (ha : a + bs.length ≤ n) :
    endsBelow n (memSetAll (cellsAt a bs) m) := by
  intro c hc
  rcases mem_of_mem_memSetAll hc with ⟨d, hd, e⟩ | hc
  · obtain ⟨j, hj, e'⟩ := mem_cellsAt hd; omega
  · exact h c hc

/-- A page-table entry that no cell lists is zero. -/
theorem pteAt_of_endsBelow {n a : Nat} {m : List Host.Cell} (h : endsBelow n m) (ha : n ≤ a) : pteAt m a = 0 := by
  have hget (i : Nat) : memGet m (a + i) = 0 := by
    unfold memGet
    cases hg : SMap.get? m (a + i) with
    | none => rfl
    | some v => have : a + i < n := h _ (SMap.mem_of_get? hg); omega
  unfold pteAt memBytes
  simp only [hget]; rfl

theorem tableIdx_of_endsBelow {n table k : Nat} {m : List Host.Cell} (h : endsBelow n m) (ht : n ≤ table) : tableIdx m table k = [] := by
  have : (m.filter fun c => decide (table ≤ c.1) && decide (c.1 < table + 8 * k)) = [] :=
    List.filter_eq_nil_iff.mpr fun c hc => by have := h c hc; simp only [Bool.and_eq_true, decide_eq_true_eq]; omega
  unfold tableIdx; rw [this]; rfl

theorem tableSpans_of_endsBelow {n lvl table : Nat} {m : List Host.Cell} (h : endsBelow n m) (ht : n ≤ table) :
    tableSpans m lvl table = [tableSpan lvl table] := by
  cases lvl with
  | zero => rfl
  | succ lvl => unfold tableSpans lowerTables; rw [tableIdx_of_endsBelow h ht]; rfl

theorem leafEntries_of_endsBelow {n lvl table : Nat} {m : List Host.Cell} (h : endsBelow n m) (ht : n ≤ table) :
    leafEntries m lvl table = [] := by
  cases lvl <;> unfold leafEntries <;> rw [tableIdx_of_endsBelow h ht] <;> rfl

theorem walkFrom_of_endsBelow {n va lvl table : Nat} {m : List Host.Cell} (h : endsBelow n m) (ht : n ≤ table) :
    walkFrom m va lvl table = none := by
  cases lvl <;> unfold walkFrom walkLevel <;> dsimp only <;> rw [pteAt_of_endsBelow h (by omega)] <;> exact if_pos (.inl (by decide))

theorem mem_setPte_of_mem {m : List Host.Cell} {table idx v : Nat} {c : Host.Cell} (h : c ∈ m) (hc : table + 8 * idx + 8 ≤ c.1) :
    c ∈ setPte table idx v m :=
  mem_memSetAll_of_mem h fun d hd => by obtain ⟨j, hj, e⟩ := mem_cellsAt hd; rw [length_natLe] at hj; omega

/-- The first byte of an entry that is set stands in memory where it is not zero. -/
theorem mem_setPte (m : List Host.Cell) (table idx : Nat) {v : Nat} (h : BitVec.ofNat 8 v ≠ 0) :
    (table + 8 * idx, BitVec.ofNat 8 v) ∈ setPte table idx v m := by
  have hput : (table + 8 * idx, BitVec.ofNat 8 v) ∈ memSet m (table + 8 * idx) (BitVec.ofNat 8 v) := by
    unfold memSet; rw [if_neg h]; exact SMap.mem_put_self ..
  unfold setPte natLe
  rw [cellsAt_cons]
  exact mem_memSetAll_of_mem (m := memSet m _ _) hput fun d hd => by obtain ⟨j, -, e⟩ := mem_cellsAt hd; omega

/-- The entry of a table at a level that an address meets (R306). -/
def walkIdx (va lvl : Nat) : Nat := va / 2 ^ (12 + 9 * lvl) % (if lvl = 3 then 8192 else 512)

theorem walkIdx_lt (va lvl : Nat) : walkIdx va lvl < 8192 := by unfold walkIdx; split <;> omega

theorem mapPage_succ (leaf va pa n table free : Nat) (m : List Host.Cell) :
    mapPage leaf va pa (n + 1) table (m, free) =
      if pteBit (pteAt m (table + 8 * walkIdx va (n + 1))) 0 then
        mapPage leaf va pa n (pteAddr (pteAt m (table + 8 * walkIdx va (n + 1)))) (m, free)
      else mapPage leaf va pa n free
        (setPte table (walkIdx va (n + 1)) (free + 1) (m.filter fun c => !(decide (free ≤ c.1) && decide (c.1 < free + 4096))), free + 4096) := rfl

/-- Mapping a page takes at most one free page for each level below the root. -/
theorem mapPage_free (leaf va pa n table free : Nat) (m : List Host.Cell) :
    free ≤ (mapPage leaf va pa n table (m, free)).2 ∧ (mapPage leaf va pa n table (m, free)).2 ≤ free + 4096 * n := by
  induction n generalizing table free m with
  | zero => exact ⟨Nat.le_refl _, Nat.le_refl _⟩
  | succ n ih =>
    rw [mapPage_succ]
    split
    · obtain ⟨hlo, hhi⟩ := ih (pteAddr (pteAt m (table + 8 * walkIdx va (n + 1)))) free m
      exact ⟨hlo, by omega⟩
    · obtain ⟨hlo, hhi⟩ := ih free (free + 4096)
        (setPte table (walkIdx va (n + 1)) (free + 1) (m.filter fun c => !(decide (free ≤ c.1) && decide (c.1 < free + 4096))))
      exact ⟨by omega, by omega⟩

/-- Mapping a page leaves what lies above its tables and the free pages. -/
theorem mem_mapPage_of_mem {leaf va pa n table free : Nat} {m : List Host.Cell} {c : Host.Cell} (h : c ∈ m) (hc : 2 ^ 80 ≤ c.1)
    (ht : table + 2 ^ 16 ≤ 2 ^ 80) (hf : free + 4096 * n + 2 ^ 16 ≤ 2 ^ 80) : c ∈ (mapPage leaf va pa n table (m, free)).1 := by
  induction n generalizing table free m with
  | zero => exact mem_setPte_of_mem h (by omega)
  | succ n ih =>
    have hidx := walkIdx_lt va (n + 1)
    rw [mapPage_succ]
    split
    · refine ih h ?_ (by omega)
      unfold pteAddr; omega
    · have hclear : c ∈ m.filter fun c => !(decide (free ≤ c.1) && decide (c.1 < free + 4096)) :=
        List.mem_filter.mpr ⟨h, by simp only [decide_eq_false (show ¬ c.1 < free + 4096 by omega), Bool.and_false, Bool.not_false]⟩
      exact ih (mem_setPte_of_mem hclear (by omega)) (by omega) (by omega)

/-- Mapping a page under a root above all memory sets an entry of that root. -/
theorem mem_mapPage_root {leaf va pa n root free : Nat} {m : List Host.Cell} (hm : endsBelow (2 ^ 80) m) (hr : 2 ^ 80 ≤ root)
    (hf : free + 4096 * (n + 1) + 2 ^ 16 ≤ 2 ^ 80) (hv : BitVec.ofNat 8 (free + 1) ≠ 0) :
    (root + 8 * walkIdx va (n + 1), BitVec.ofNat 8 (free + 1)) ∈ (mapPage leaf va pa (n + 1) root (m, free)).1 := by
  rw [mapPage_succ, pteAt_of_endsBelow hm (Nat.le_trans hr (Nat.le_add_right ..)), if_neg (by decide)]
  exact mem_mapPage_of_mem (mem_setPte _ _ _ hv) (Nat.le_trans hr (Nat.le_add_right ..)) (by omega) (by omega)

/-- A table of tags that lists a block under the device's own key is not canonical. -/
theorem keyedWf_of_get?_zero {m : SMap Nat} {b : Nat} (h : SMap.get? m b = some 0) : keyedWf m = false := by
  have : (m.all fun k => k.2 != 0) = false := List.all_eq_false.mpr ⟨_, SMap.mem_of_get? h, by simp⟩
  unfold keyedWf; rw [this, Bool.and_false]

/-- Tagging the block of each chosen cell with 0 lists the block of any of them under tag 0. -/
theorem get?_tagged_zero {p : Host.Cell → Bool} {l : List Host.Cell} {k : SMap Nat} {b : Nat}
    (h : SMap.get? k b = some 0 ∨ ∃ c ∈ l, p c = true ∧ homeBlock c.1 = b) :
    SMap.get? (l.foldl (fun k c => if p c then SMap.put k (homeBlock c.1) 0 else k) k) b = some 0 := by
  induction l generalizing k with
  | nil => simpa using h
  | cons d l ih =>
    refine ih ?_
    rcases h with h | ⟨c, hc, hp, hb⟩
    · left
      dsimp only
      split
      · rw [SMap.get?_put, h, ite_self]
      · exact h
    · rcases List.mem_cons.mp hc with rfl | hc
      · left; dsimp only; rw [if_pos hp, SMap.get?_put, if_pos hb.symm]
      · exact .inr ⟨c, hc, hp, hb⟩

end Machine

end Sys2Proof
end

section
/-! SUPPORT. The admission of an image: what ADMIT_IMAGE answers, and how the bytes of an image in cluster SRAM are read (R312 to R314, R323). -/

namespace Sys2Proof.Machine

theorem homeMem_of_outer_nil {s : State} (h : s.outer = []) : homeMem s = s.mem := by unfold homeMem; rw [h]; rfl

theorem onCtx_keyed (ctx : Nat) (f : Context → Context) (s : State) : (onCtx ctx f s).keyed = s.keyed := by
  unfold onCtx; split <;> rfl

theorem mailCall_of_mailReady {name : String} {m : Mb} {op : Nat} {f : State → MailRes} {s : State} (h : mailReady m s) :
    mailCall name m op f s = .next (mailDone m.die m.tag op (f s).status (f s).detail (f s).resp (f s).st) := by
  obtain ⟨hlink, hpower, hrun, hrec, hbusy⟩ := h
  simp [mailCall, hlink, hpower, hrun, hrec, hbusy]

theorem execAdmitImage_installs {m : Mb} {ctx : BitVec 12} {va base : Word} {pa : Nat} {s : State} {c : Context} {bs : List Byte} {p : ImageParts}
    (hr : mailReady m s) (hpa : pa % 4096 = 0) (hfree : pagesFree s ctx.toNat va.toNat base.toNat pa = true)
    (hc : SMap.get? s.mon.ctxs ctx.toNat = some c) (hbase : base.toNat % 65536 = 0) (hsrc : imageSource s ctx.toNat va.toNat = some bs)
    (href : imageRefusal s c base.toNat bs = none) (hparts : imageParts bs = some p) :
    execAdmitImage m ctx va base pa s = .next (mailDone m.die m.tag 0x0020 0 0 [] (installImage ctx.toNat base.toNat pa bs p s)) := by
  have hgo : (pa % 4096 ≠ 0 || !pagesFree s ctx.toNat va.toNat base.toNat pa) = false := by simp [hpa, hfree]
  unfold execAdmitImage
  rw [if_neg (by rw [hgo]; exact Bool.false_ne_true), mailCall_of_mailReady hr]
  simp only [hc, hbase, hsrc, href, hparts, ne_eq, not_true_eq_false, if_false]
  rfl

theorem imageEnd_of_parts {s : State} {c : Context} {base pa : Nat} {bs : List Byte} {p : ImageParts} (h : imageParts bs = some p) :
    imageEnd s c base pa bs = ((mappedSegs p).foldl (fun x g => mapSegment c.recd.ptroot 0 0 base g x) (homeMem s, pa)).2 := by
  unfold imageEnd; rw [h]

theorem mapM_of_forall_some {α β : Type} {f : α → Option β} {g : α → β} (l : List α) (h : ∀ x ∈ l, f x = some (g x)) :
    l.mapM f = some (l.map g) := by
  induction l with
  | nil => rfl
  | cons x l ih =>
    rw [List.mapM_cons, h x (List.mem_cons_self ..), ih fun y hy => h y (List.mem_cons_of_mem _ hy)]; rfl

theorem translate_cluster {s : State} {ctx i : Nat} (hi : i < 2 ^ 25) :
    translate s ctx .read false (0xFFE * 2 ^ 40 + i) = .ok (clusterHome i) := by
  have hw : (0xFFE * 2 ^ 40 + i) / 2 ^ 40 = 0xFFE := by omega
  have ho : (0xFFE * 2 ^ 40 + i) % 2 ^ 40 = i := by omega
  unfold translate
  rw [if_neg (by omega), hw, ho]
  dsimp only
  rw [if_pos (by decide), if_neg (by decide), if_neg (by decide), if_pos rfl, if_pos hi]

theorem homeByte_cluster {s : State} (h : s.outer = []) {i : Nat} (hi : i < 2 ^ 25) : homeByte s (clusterHome i) = memGet s.mem (clusterHome i) := by
  have hsame : sameHome s (clusterHome i) = true := by
    have : 2 ^ 48 ≤ homePhys (clusterHome i) := by unfold homePhys clusterHome; omega
    unfold sameHome; rw [decide_eq_true this, Bool.true_or]
  unfold homeByte homeGet
  rw [if_pos hsame, h]; rfl

section
variable {s : State} (houter : s.outer = []) {bs : List Byte} (hlen : bs.length ≤ 2 ^ 25)
  (hmem : ∀ j (hj : j < bs.length), memGet s.mem (clusterHome j) = bs[j])
include houter hlen hmem

/-- The first bytes of cluster SRAM as a task reads them through the window. -/
theorem clusterBytes (ctx : Nat) {n : Nat} (hn : n ≤ bs.length) :
    (((List.range n).mapM fun i => (translate s ctx .read false (0xFFE * 2 ^ 40 + 0 + i)).toOption).map fun hs => hs.map (homeByte s))
      = some (bs.take n) := by
  rw [mapM_of_forall_some (g := clusterHome)]
  · refine congrArg some (List.ext_getElem ?_ fun j h1 h2 => ?_)
    · rw [List.length_map, List.length_map, List.length_range, List.length_take, Nat.min_eq_left hn]
    have hj : j < n := by rwa [List.length_map, List.length_map, List.length_range] at h1
    rw [List.getElem_map, List.getElem_map, List.getElem_range, List.getElem_take, homeByte_cluster houter (by omega), hmem j (by omega)]
  · intro i hi
    rw [Nat.add_zero, translate_cluster (by have := List.mem_range.mp hi; omega)]; rfl

theorem imageSource_cluster (ctx : Nat) (hsigned : bs.length = leAt bs 64 8 + sigBytes) (h128 : 128 ≤ bs.length) :
    imageSource s ctx (0xFFE * 2 ^ 40) = some bs := by
  have hl : leAt (bs.take 128) 64 8 = leAt bs 64 8 := by
    unfold leAt; rw [List.drop_take, List.take_take]; rfl
  unfold imageSource
  dsimp only
  rw [clusterBytes houter hlen hmem ctx h128]
  dsimp only
  rw [hl, ← hsigned, clusterBytes houter hlen hmem ctx (Nat.le_refl _), List.take_length]

end

/-- A state with one event at its door. -/
def atDoor (i : Instr) (s : State) : State := { s with inputs := [i] }

theorem step_atDoor {i : Instr} {s : State} (hc : cutShort s.c = false) (hi : i.slot = none) (hs : s.inputs = []) :
    step (atDoor i s) = exec i s := by
  have hc' : ¬ cutShort (atDoor i s).c = true := by rw [show (atDoor i s).c = s.c from rfl, hc]; exact Bool.false_ne_true
  have htake : takeInput (atDoor i s) = some (i, s) := by cases s; subst hs; rfl
  unfold step
  rw [if_neg hc', htake]
  dsimp only
  rw [hi]; rfl

end Sys2Proof.Machine
end

section
/-! SUPPORT. The state that refutes the canonical form of every step: an image is admitted to a context whose page tables begin at an address
that, read as a home address, is one of device memory under a key (R306, R312, R318). -/

namespace Sys2Proof.Machine

/-- A root of page tables that, read as a home address, is physical page 0x100000 under tag 1. -/
def farRoot : Nat := 2 ^ 80 + 0x100000

/-- A context without a key of its own whose page tables begin there. -/
def farContext : Context :=
  { recd := ⟨1, 7, farRoot, 0, 0, 0, 0, 0, 0x0400000000000000, 0, [], false⟩
    ranges := [], saves := [], aps := Vector.replicate 8 0, events := [], masked := 0, images := [], pops := [], hranges := []
    job := none, grant := none, bkpts := false, plans := [] }

/-- An image of one bundle of nops with one entry point, before its signature (Tables 16-8 and 16-9). -/
def nopImage : List Byte :=
  [0x4F, 0x4C, 0x42, 0x49, 1, 4, 0, 0, 1, 0, 1, 0] ++ List.replicate 52 0 ++ [200] ++ List.replicate 71 0
    ++ [168] ++ List.replicate 7 0 ++ [32] ++ List.replicate 55 0

/-- The same, signed with the tenant's key. -/
def signedImage : List Byte := nopImage ++ Config.signatureOf [] nopImage

/-- Its code segment. -/
def nopSegment : Segment := ⟨0, 0, List.replicate 32 0⟩

/-- Its parts. -/
def nopParts : ImageParts := ⟨4, 0, 0, 0, [], [nopSegment], [0], [], []⟩

/-- Its bundle, as admission reads it. -/
def nopBundle : ABundle :=
  ⟨0x10000, (Slot.br, .nop ⟨0, 0⟩ 0) :: [Slot.sc, .ar, .ve, .mx, .cp, .sp, .sy].map (fun k => (k, .nopSlot k ⟨0, 0⟩)), false, 1⟩

theorem length_nopImage : nopImage.length = 200 := by decide +kernel

theorem length_signatureOf (key msg : List Byte) : (Config.signatureOf key msg).length = sigBytes := by
  rw [Config.signatureOf, List.length_map, List.length_range, sigBytes]

theorem length_signedImage : signedImage.length = 200 + sigBytes := by
  rw [signedImage, List.length_append, length_signatureOf, length_nopImage]

theorem leAt_signedImage_length : leAt signedImage 64 8 = 200 := rfl

theorem imageParts_signedImage : imageParts signedImage = some nopParts := by
  have hok : imageHeaderOk signedImage = true := by unfold imageHeaderOk; rw [leAt_signedImage_length, length_signedImage]; rfl
  unfold imageParts; rw [hok]; decide +kernel

theorem signatureVerifies_signedImage :
    Config.signatureVerifies farContext.recd.tpk (signedImage.take 200) ((signedImage.drop 200).take sigBytes) = true := by
  have hbody : signedImage.take 200 = nopImage := List.take_left' length_nopImage
  have hsig : (signedImage.drop 200).take sigBytes = Config.signatureOf [] nopImage := by
    rw [signedImage, List.drop_left' length_nopImage, List.take_of_length_le (Nat.le_of_eq (length_signatureOf ..))]
  rw [hbody, hsig]
  simp [Config.signatureVerifies, farContext]

theorem le_farRoot : 2 ^ 80 ≤ farRoot := Nat.le_add_right ..

theorem homePhys_farRoot : homePhys farRoot = 0x100000 := by unfold homePhys farRoot; omega

theorem mappedSegs_nopParts : mappedSegs nopParts = [nopSegment] := rfl

theorem farContext_ptroot : farContext.recd.ptroot = farRoot := rfl

/-- Where the segment is mapped from physical page 0x100000 on: one page of contents, then what its page takes under the root. -/
theorem mapSegment_nopSegment {m : List Host.Cell} (hm : endsBelow (2 ^ 80) m) :
    ∃ leaf m', endsBelow (2 ^ 80) m' ∧
      mapSegment farRoot 0 0 0x10000 nopSegment (m, 0x100000) = mapPage leaf 0x10000 0x100000 3 farRoot (m', 0x101000) :=
  ⟨_, _, endsBelow_cellsAt (a := tagHome 0 0x100000) (endsBelow_filter _ hm) (by decide +kernel), rfl⟩

theorem mapSegment_nopSegment_end {m : List Host.Cell} (hm : endsBelow (2 ^ 80) m) :
    0x101000 ≤ (mapSegment farRoot 0 0 0x10000 nopSegment (m, 0x100000)).2
      ∧ (mapSegment farRoot 0 0 0x10000 nopSegment (m, 0x100000)).2 ≤ 0x104000 := by
  obtain ⟨leaf, m', -, e⟩ := mapSegment_nopSegment hm
  rw [e]; exact mapPage_free ..

theorem mem_mapSegment_farRoot {m : List Host.Cell} (hm : endsBelow (2 ^ 80) m) :
    (farRoot, 1) ∈ (mapSegment farRoot 0 0 0x10000 nopSegment (m, 0x100000)).1 := by
  obtain ⟨leaf, m', hm', e⟩ := mapSegment_nopSegment hm
  rw [e]
  exact mem_mapPage_root (va := 0x10000) (n := 2) hm' le_farRoot (by decide) (by decide)

section
variable {s : State} (hctxs : s.mon.ctxs = [(1, farContext)]) (houter : s.outer = []) (hmem : endsBelow (2 ^ 80) s.mem)
include houter hmem

theorem segsClash_nopParts : segsClash s farContext 0x10000 nopParts = false := by
  have hpages : (mappedSegs nopParts).map (segPages 0x10000) = [(0x10000, 0x11000)] := rfl
  have hwalk : walkFrom s.mem (0x10000 + 4096 * 0) 3 farRoot = none := walkFrom_of_endsBelow hmem le_farRoot
  unfold segsClash
  rw [hpages, homeMem_of_outer_nil houter, farContext_ptroot]
  simp only [List.any_cons, List.any_nil, show List.range ((0x11000 - 0x10000) / 4096) = [0] from rfl, hwalk]
  rfl

include hctxs

theorem physUsed_farContext (hstale : staleSpans s = []) (hwin : s.mon.windows = []) {n : Nat} (hn : n ≤ 0x4000) :
    physUsed s 0x100000 n = false := by
  have htables : allTables s = [(farRoot, 65536)] := by
    unfold allTables
    rw [hctxs, homeMem_of_outer_nil houter, List.flatMap_singleton, farContext_ptroot, tableSpans_of_endsBelow hmem le_farRoot]; rfl
  have hspans : ctxSpans s farContext = [] := by
    unfold ctxSpans
    rw [homeMem_of_outer_nil houter, farContext_ptroot, leafEntries_of_endsBelow hmem le_farRoot]; rfl
  have hmeet : spansMeet (0x100000, n) (farRoot, 65536) = false := by
    unfold spansMeet
    rw [decide_eq_false (p := farRoot < _) (by unfold farRoot; omega), Bool.and_false]
  unfold physUsed
  rw [htables, hctxs, hstale, hwin]
  simp only [List.any_cons, List.any_nil, hmeet, hspans, Bool.or_false]

theorem pagesFree_farContext (hstale : staleSpans s = []) (hwin : s.mon.windows = []) {va : Nat} (hsrc : imageSource s 1 va = some signedImage) :
    pagesFree s 1 va 0x10000 0x100000 = true := by
  have hend : imageEnd s farContext 0x10000 0x100000 signedImage ≤ 0x104000 := by
    rw [imageEnd_of_parts imageParts_signedImage, mappedSegs_nopParts, homeMem_of_outer_nil houter, farContext_ptroot, List.foldl_cons,
      List.foldl_nil]
    exact (mapSegment_nopSegment_end hmem).2
  have hc : SMap.get? s.mon.ctxs 1 = some farContext := by rw [hctxs]; rfl
  unfold pagesFree
  rw [hc, hsrc]
  dsimp only
  rw [physUsed_farContext hctxs houter hmem hstale hwin (by omega)]; rfl

/-- The installed image leaves a block listed under tag 0: the entry that is set in the root lies, by its physical address alone, among the
pages that the image takes, and stands under a tag, so that its block is given the context's tag, that of the device's own key. -/
theorem keyed_installImage_farContext (bs : List Byte) :
    SMap.get? (installImage 1 0x10000 0x100000 bs nopParts s).keyed (homeBlock farRoot) = some 0 := by
  have hc : SMap.get? s.mon.ctxs 1 = some farContext := by rw [hctxs]; rfl
  have hkey : firstKey farContext.recd = 0 := by decide
  have htag : keyTag s 0 = 0 := rfl
  have htagged : (homeTag farRoot != 0) = true := by decide
  unfold installImage
  rw [hc]
  dsimp only
  rw [onCtx_keyed, mappedSegs_nopParts, show nopParts.presets = [] from rfl, farContext_ptroot, hkey, htag]
  simp only [List.foldl_cons, List.foldl_nil]
  have hm (lo hi : Nat) : endsBelow (2 ^ 80) (landTables farRoot (scrubPhys lo hi s)).mem := by
    have : (landTables farRoot (scrubPhys lo hi s)).mem = (scrubPhys lo hi s).mem := by simp [landTables, scrubPhys, houter, memSetAll]
    rw [this]; exact endsBelow_filter _ hmem
  have hend := (mapSegment_nopSegment_end (hm 0x100000 (mapSegment farRoot 0 0 0x10000 nopSegment (homeMem s, 0x100000)).2)).1
  refine get?_tagged_zero (.inr ⟨(farRoot, 1), mem_mapSegment_farRoot (hm _ _), ?_, rfl⟩)
  simp only [homePhys_farRoot, htagged, Bool.and_true, Bool.and_eq_true, decide_eq_true_eq]
  exact ⟨Nat.le_refl _, by omega⟩

end

/-- The image in cluster SRAM. -/
@[irreducible] def farMem : List Host.Cell := memSetAll (cellsAt (clusterHome 0) signedImage) []

/-- Memory holds that, the monitor runs, and the context stands. -/
def farState : State :=
  { State.reset with
    mem := farMem
    links := { State.reset.links with linkUp := true }
    mon := { State.reset.mon with ctxs := [(1, farContext)], flash := { State.reset.mon.flash with running := true } } }

theorem endsBelow_farMem : endsBelow (2 ^ 80) farMem := by
  have hfits : clusterHome 0 + signedImage.length ≤ 2 ^ 80 := by
    have hlen := length_signedImage
    unfold sigBytes at hlen; unfold clusterHome; omega
  unfold farMem
  exact endsBelow_cellsAt (fun _ h => nomatch h) hfits

theorem farState_MemOk (i : Instr) : (atDoor i farState).MemOk := by
  have hwf : Memory.wf farMem = true := by unfold farMem; exact wf_memSetAll _ rfl
  exact ⟨hwf, rfl, rfl, rfl⟩

theorem imageSource_farState : imageSource farState 1 (0xFFE * 2 ^ 40) = some signedImage := by
  have hlen := length_signedImage
  have hread (j : Nat) (hj : j < signedImage.length) : memGet farMem (clusterHome j) = signedImage[j] := by
    unfold farMem
    exact memGet_memSetAll_cellsAt _ rfl (clusterHome 0) j hj
  unfold sigBytes at hlen
  exact imageSource_cluster (s := farState) rfl (by omega) hread 1 length_signedImage (by omega)

theorem admitBundles_farState : admitBundles (asTask farState 1) 0x10000 nopSegment = [nopBundle] := by decide +kernel

/-- The image passes every check of its admission (Table 16-10). -/
theorem imageRefusal_farState : imageRefusal farState farContext 0x10000 signedImage = none := by
  have hsegs : nopParts.segs.filter (fun g => g.kind == 0) = [nopSegment] := rfl
  have hctx : farContext.recd.ctx = 1 := rfl
  unfold imageRefusal
  rw [imageParts_signedImage, leAt_signedImage_length]
  dsimp only
  rw [if_neg (by simp [signatureVerifies_signedImage]), if_neg (by decide +kernel), segsClash_nopParts rfl endsBelow_farMem, hsegs, hctx]
  simp only [List.map_cons, List.map_nil, show 0x10000 + nopSegment.voff = 0x10000 from rfl, admitBundles_farState]
  decide +kernel

/-- Refutes O35: where a context's page tables begin beyond 2^80, ADMIT_IMAGE lists a block under tag 0. The model's record of a context holds
PTROOT as a number of any size, and CREATE_CONTEXT asks of it only that it be a multiple of 64 KiB. -/
theorem not_stepKeepsMemoryCanonical : ¬ Obligations.StepKeepsMemoryCanonical := by
  intro h
  have hva : (0xFFE * 2 ^ 40 : Word).toNat = 0xFFE * 2 ^ 40 := by decide
  have hready : mailReady ⟨0, 0⟩ farState := by unfold mailReady; decide +kernel
  have hexec := execAdmitImage_installs (ctx := 1) (va := 0xFFE * 2 ^ 40) (base := 0x10000) (pa := 0x100000) hready (by decide)
    (by rw [hva]; exact pagesFree_farContext rfl rfl endsBelow_farMem rfl rfl imageSource_farState) rfl (by decide)
    (by rw [hva]; exact imageSource_farState) imageRefusal_farState imageParts_signedImage
  have hstep := (step_atDoor (i := .admitImage ⟨0, 0⟩ 1 (0xFFE * 2 ^ 40) 0x10000 0x100000) (s := farState) rfl rfl rfl).trans hexec
  obtain ⟨-, -, hk, -⟩ := h _ _ (farState_MemOk _) hstep
  have hzero := keyed_installImage_farContext (s := farState) rfl rfl endsBelow_farMem signedImage
  exact absurd (keyedWf_of_get?_zero hzero) (by rw [Bool.not_eq_false]; exact hk)

end Sys2Proof.Machine
end

section
/-! SUPPORT. How a slot word of an engine ends at issue, and what a command that is queued, leaves its queue or is stopped changes (R163, R165,
R177, R188, R200, R376). -/

namespace Sys2Proof.Machine

/-- A word whose body meets a precise fault raises it; a cause of Table 5-13 has the tval of that table (R75). -/
theorem slotOut_fault {k : Slot} {g : Guard} {i : Instr} {s : State} {body : Body} {cause : Nat} {v : Option Word}
    (h : ready k g i s = true) (hb : body s = .error (.fault cause v)) : slotOut k g i s body = .next (raise k.idx cause
      (if v.isNone && [0x10, 0x11, 0x13, 0x14].contains cause then some (execTval k s) else v) s) := by
  rw [slotOut_error h hb (by simp), endSlot, held_of_ready h]; rfl

theorem enqueue_of_hasEntry {k : Slot} {q : Cmd} {s : State} (h : hasEntry k s) (hq : q.slot = k.idx) :
    enqueue k q s = .ok (queued q s) := by
  rw [enqueue, if_neg (Nat.not_le.mpr h), queued, hq]

/-- A word whose body refuses an operand raises cause 0x07 with the reason (R143). -/
theorem slotOut_opFault {k : Slot} {g : Guard} {i : Instr} {s : State} {body : Body} {n : Nat} (h : ready k g i s = true)
    (hb : body s = .error (opFault n)) : slotOut k g i s body = .next (raise k.idx 0x07 (some (BitVec.ofNat 64 (n * 2 ^ 32))) s) := by
  rw [slotOut_fault h hb, Nat.zero_mod, Nat.add_zero]; rfl

/-- A part of a word's body that has a value hands it on, and one that fails ends the body. -/
theorem bind_ok {ε α β : Type} (a : α) (f : α → Except ε β) : (Except.ok a >>= f) = f a := rfl
theorem bind_error {ε α β : Type} (e : ε) (f : α → Except ε β) : (Except.error e >>= f) = .error e := rfl

theorem stgAt_newCmd {j : Nat} (k : Slot) (i : Instr) (s : State) (h : j < 8) :
    (newCmd k i s).stgAt j = s.rdStg (BitVec.ofNat 5 (8 * (k.idx - 4) + j)) := by
  simp [Cmd.stgAt, newCmd, h]

theorem sameCodes_of_ne {td ts : Tens} (h : td.d.fmt ≠ ts.d.fmt) : sameCodes td ts = .error (opFault 13) := if_pos (.inl h)

/-- Flags that are put into a sticky record change no other state of the machine. -/
theorem orFlags_eq (k : Nat) (a : Word) (fl : Flags) (s : State) : ∃ v, orFlags k a fl s = s.onC fun c => { c with srec := v } := by
  unfold orFlags
  split
  · exact ⟨s.c.srec, rfl⟩
  · by_cases hk : k < 8
    · simp only [hk, dite_true]; exact ⟨_, rfl⟩
    · simp only [hk, dite_false]; exact ⟨s.c.srec, rfl⟩

theorem flushFlags_eq (l : List (Nat × Word × Flags)) (s : State) :
    ∃ v w, flushFlags l s = s.onC fun c => { c with srec := v, cpFlags := w } := by
  induction l generalizing s with
  | nil => exact ⟨s.c.srec, [], rfl⟩
  | cons x l ih =>
    obtain ⟨no, a, fl⟩ := x
    unfold flushFlags
    split
    · exact ⟨s.c.srec, (no, a, fl) :: l, rfl⟩
    · obtain ⟨u, hu⟩ := orFlags_eq 5 a fl s
      obtain ⟨v, w, h⟩ := ih (orFlags 5 a fl s)
      exact ⟨v, w, by rw [h, hu]; rfl⟩

/-- What a command that leaves its queue changes: the queue, the counts of its tiles and the flags that it held back. -/
theorem popCmd_eq (q : Cmd) (s : State) : ∃ v w, popCmd q s = s.onC fun c =>
    { setQueue q.slot ((queueOf q.slot c).filter fun x => x.no != q.no) { c with counts := countDown q.cnt c.counts } with
      srec := v, cpFlags := w } := by
  obtain ⟨v, w, h⟩ := flushFlags_eq (s.onC fun c =>
    setQueue q.slot ((queueOf q.slot c).filter fun x => x.no != q.no) { c with counts := countDown q.cnt c.counts }).c.cpFlags
    (s.onC fun c => setQueue q.slot ((queueOf q.slot c).filter fun x => x.no != q.no) { c with counts := countDown q.cnt c.counts })
  exact ⟨v, w, h⟩

@[simp] theorem setQueue_r (k : Nat) (l : List Cmd) (c : Core) : (setQueue k l c).r = c.r := by unfold setQueue; split <;> rfl
@[simp] theorem setQueue_z (k : Nat) (l : List Cmd) (c : Core) : (setQueue k l c).z = c.z := by unfold setQueue; split <;> rfl
@[simp] theorem setQueue_failing (k : Nat) (l : List Cmd) (c : Core) : (setQueue k l c).failing = c.failing := by
  unfold setQueue; split <;> rfl

/-- The core's registers, its streams and the failure that awaits delivery are the same in both states. -/
def sameRegs (s t : State) : Prop := t.c.r = s.c.r ∧ t.c.z = s.c.z ∧ t.c.failing = s.c.failing

theorem sameRegs.trans {s t u : State} (h : sameRegs s t) (h' : sameRegs t u) : sameRegs s u :=
  ⟨h'.1.trans h.1, h'.2.1.trans h.2.1, h'.2.2.trans h.2.2⟩

theorem sameRegs_queued (q : Cmd) (s : State) : sameRegs s (queued q s) := by simp [sameRegs, queued]

theorem sameRegs_popCmd (q : Cmd) (s : State) : sameRegs s (popCmd q s) := by
  obtain ⟨v, w, h⟩ := popCmd_eq q s
  simp [sameRegs, h]

theorem popCmd_mem (q : Cmd) (s : State) : (popCmd q s).mem = s.mem := by
  obtain ⟨v, w, h⟩ := popCmd_eq q s
  rw [h, State.onC_mem]

theorem popCmd_cpq {q : Cmd} (h : q.slot = 5) (s : State) : (popCmd q s).c.cpq = s.c.cpq.filter fun x => x.no != q.no := by
  obtain ⟨v, w, hp⟩ := popCmd_eq q s
  rw [hp, h]; rfl

theorem foldl_popCmd (l : List Cmd) (s : State) :
    sameRegs s (l.foldl (fun s x => popCmd x s) s) ∧ (l.foldl (fun s x => popCmd x s) s).mem = s.mem := by
  induction l generalizing s with
  | nil => exact ⟨⟨rfl, rfl, rfl⟩, rfl⟩
  | cons x l ih =>
    obtain ⟨hr, hm⟩ := ih (popCmd x s)
    exact ⟨(sameRegs_popCmd x s).trans hr, hm.trans (popCmd_mem x s)⟩

/-- Commands that are stopped leave the queue by their numbers, and no other command leaves it (R177). -/
theorem foldl_discardCmd (l : List Cmd) (hl : ∀ q ∈ l, q.slot = 5) (s t : State)
    (ht : t = l.foldl (fun s q => discardCmd q (applyFree (abortCells s q) s)) s) :
    sameRegs s t ∧ ∀ q, q ∈ t.c.cpq ↔ q ∈ s.c.cpq ∧ ∀ x ∈ l, x.no ≠ q.no := by
  induction l generalizing s with
  | nil => subst ht; exact ⟨⟨rfl, rfl, rfl⟩, by simp⟩
  | cons x l ih =>
    obtain ⟨hr, hq⟩ := ih (fun q h => hl q (.tail _ h)) _ ht
    have hpop : (discardCmd x (applyFree (abortCells s x) s)).c.cpq = s.c.cpq.filter fun q => q.no != x.no :=
      popCmd_cpq (hl x (.head _)) _
    refine ⟨(sameRegs_popCmd x (applyFree (abortCells s x) s)).trans hr, fun q => ?_⟩
    rw [hq, hpop, List.mem_filter, bne_iff_ne, List.forall_mem_cons, ne_comm, and_assoc]

theorem onZ_z {z : Nat} (hz : z < 8) (f : Stream → Stream) (s : State) : (onZ z f s).c.z = s.c.z.set z (f s.c.z[z]) := by
  simp only [onZ, State.onC_c, dif_pos hz]

theorem onZ_r (z : Nat) (f : Stream → Stream) (s : State) : (onZ z f s).c.r = s.c.r := by
  unfold onZ; rw [State.onC_c]; split <;> rfl

theorem unbindChan_z (c : BitVec 4) (s : State) {z : Nat} (hz : z < 8) : (unbindChan c s).c.z[z] =
    if s.c.z[z].bound = true ∧ s.c.z[z].chan = c then { s.c.z[z] with bound := false, buf := [] } else s.c.z[z] := by
  simp [unbindChan]

theorem waits_unbindChan (c : BitVec 4) (s : State) {z : Nat} (hz : z < 8) : (unbindChan c s).c.z[z].waits = s.c.z[z].waits := by
  rw [unbindChan_z]; split <;> rfl

theorem chan_ne_of_bound_unbindChan {c : BitVec 4} {s : State} {z : Nat} {hz : z < 8} (h : (unbindChan c s).c.z[z].bound = true) :
    (unbindChan c s).c.z[z].chan ≠ c := by
  rw [unbindChan_z] at h ⊢
  split at h
  · cases h
  next hn => rw [if_neg hn]; exact fun hc => hn ⟨h, hc⟩

end Sys2Proof.Machine
end

section
/-! SUPPORT. The cp words at issue: each check that fails raises its fault, and where all pass the command is queued (R163 to R178, R402). -/

namespace Sys2Proof.Machine

section
variable {g : Guard} {c : BitVec 4} {d r : BitVec 5} {m : BitVec 2} {s : State} {td ts : Tens} {ws rr : List Nat}

/-- The staging registers of the cp slot that its words read: cp:0, cp:1 and cp:3 (R14, Table 9-7). -/
theorem stgAt_cp (i : Instr) (s : State) : (newCmd .cp i s).stgAt 0 = s.rdStg 8 ∧ (newCmd .cp i s).stgAt 1 = s.rdStg 9
    ∧ (newCmd .cp i s).stgAt 3 = s.rdStg 11 := ⟨rfl, rfl, rfl⟩

section cpy
variable {t0 : Tens} {sw : List Nat} {ps : List (List Nat × List Nat)}
    (hr : ready .cp g (.cpy g c d r) s = true)
    (htd : offsetDst s d (offs (s.rdStg 9)) (some false) = .ok td)
    (ht0 : offsetSrc s r td (offs (s.rdStg 8)) (ext0 td - offs (s.rdStg 9)) (some false) = .ok t0)
    (hsw : engScaleWrites s td.scale (scaleKeys td false ((rowPairs td.ext (offs (s.rdStg 9)) 0).map (·.1))) = .ok sw)
include hr htd ht0 hsw

theorem execCpy_formats (hf : td.d.fmt ≠ t0.d.fmt) :
    execCpy g c d r s = .next (raise 5 0x07 (some (BitVec.ofNat 64 (13 * 2 ^ 32))) s) := by
  rw [ext0] at ht0
  refine slotOut_opFault hr ?_
  simp only [stgAt_cp, htd, ht0, hsw, sameCodes_of_ne hf, bind_ok, bind_error]

theorem execCpy_queues (he : hasEntry .cp s) (hcodes : sameCodes td t0 = .ok ())
    (hts : ts = (if td.scale = none then { t0 with scale := none } else t0))
    (hps : ps = rowPairs td.ext (offs (s.rdStg 9)) (offs (s.rdStg 8)))
    (hws : engWrites s td (ps.map (·.1)) = .ok ws) (hrr : engReads s ts false (ps.map (·.2)) = .ok rr)
    (hh : engHold s (ws ++ rr ++ sw) = .ok ()) :
    execCpy g c d r s = .next (queued (cpCmd (.cpy g c d r) c (s.rdH d) [td, ts] (tilesOf (ws ++ sw)) (writerIds td true) s) s) := by
  subst hts hps
  rw [ext0] at ht0
  refine slotOut_next hr ?_
  simp only [stgAt_cp, htd, ht0, hsw, hcodes, hws, hrr, hh, bind_ok, Option.isNone_iff_eq_none]
  exact enqueue_of_hasEntry he rfl
end cpy

/-- A region whose extents reach in the source leaves no index out of it. -/
theorem within_of_le {e0 e1 f0 f1 os oc : Nat} (h : e0 ≠ 0 → e1 ≠ 0 → oc + e0 ≤ f1 ∧ os + e1 ≤ f0) :
    ¬((e0 ≠ 0 ∧ e1 ≠ 0) ∧ (f1 < oc + e0 ∨ f0 < os + e1)) := by
  rintro ⟨⟨h0, h1⟩, hb⟩
  have := h h0 h1
  omega

section cpt
variable {e0 e1 f0 f1 : Nat} (hr : ready .cp g (.cpt g c d r) s = true) (htd : wholeTensor s .write false d = .ok td)
    (hts : useTens s r none = .ok ts) (hd : td.ext = [e0, e1]) (hs : ts.ext = [f0, f1])
include hr htd hts hd hs

theorem execCpt_bounds (h0 : e0 ≠ 0) (h1 : e1 ≠ 0) (hb : f1 < offs (s.rdStg 9) + e0 ∨ f0 < offs (s.rdStg 8) + e1) :
    execCpt g c d r s = .next (raise 5 0x36 none s) := by
  refine slotOut_fault hr (v := none) ?_
  have hout : ((decide (e0 ≠ 0) && decide (e1 ≠ 0)) = true) ∧ (f1 < offs (s.rdStg 9) + e0 ∨ f0 < offs (s.rdStg 8) + e1) := by
    simp only [h0, h1, ne_eq, not_false_eq_true, decide_true, Bool.and_self, true_and]; exact hb
  simp only [stgAt_cp, htd, hts, hd, hs, bind_ok, if_pos hout]

variable (hreach : rowsReach s .read false ts (if e0 ≠ 0 ∧ e1 ≠ 0 then
      (List.range e1).map fun j => ([j + offs (s.rdStg 8)], offs (s.rdStg 9), e0) else []) = .ok ())
    (hb : e0 ≠ 0 → e1 ≠ 0 → offs (s.rdStg 9) + e0 ≤ f1 ∧ offs (s.rdStg 8) + e1 ≤ f0) (hcodes : sameCodes td ts = .ok ())
include hreach hb hcodes

theorem execCpt_format (hf : td.d.fmt ∉ [0, 1, 2, 7, 8, 11, 12]) :
    execCpt g c d r s = .next (raise 5 0x13 (some (execTval .cp s)) s) := by
  have hin := within_of_le hb
  refine slotOut_fault hr (v := none) ?_
  simp only [stgAt_cp, htd, hts, hd, hs, bind_ok, Bool.and_eq_true, decide_eq_true_eq, hin, if_false, hreach, hcodes,
    List.contains_iff_mem, hf, Bool.not_eq_true', ← Bool.not_eq_true, not_false_eq_true, if_true]

theorem execCpt_queues (he : hasEntry .cp s) (hf : td.d.fmt ∈ [0, 1, 2, 7, 8, 11, 12]) (hws : engWrites s td (allIdx td.ext) = .ok ws)
    (hrr : engReads s ts false ((allIdx td.ext).map fun i => [(i[1]?).getD 0 + offs (s.rdStg 8), (i[0]?).getD 0 + offs (s.rdStg 9)]) = .ok rr)
    (hh : engHold s (ws ++ rr) = .ok ()) :
    execCpt g c d r s = .next (queued (cpCmd (.cpt g c d r) c (s.rdH d) [td, ts] (tilesOf ws) (writerIds td false) s) s) := by
  have hin := within_of_le hb
  rw [hd] at hws hrr
  refine slotOut_next hr ?_
  simp only [stgAt_cp, htd, hts, hd, hs, bind_ok, Bool.and_eq_true, decide_eq_true_eq, hin, if_false, hreach, hcodes,
    List.contains_iff_mem, hf, Bool.not_eq_true', ← Bool.not_eq_true, not_true_eq_false, hws, hrr, hh]
  exact enqueue_of_hasEntry he rfl
end cpt

theorem execCpq_queues {t1 t2 : Tens} {sc1 sc2 : TBase} {idxs : List (List Nat)} {w1 w2 k1 k2 : List Nat}
    (hr : ready .cp g (.cpq g c d r m) s = true) (he : hasEntry .cp s)
    (ht1 : wholeTensor s .write false d (some false) = .ok t1)
    (hk1 : engScaleWrites s t1.scale (scaleKeys t1 false (allIdx t1.ext)) = .ok k1)
    (ht2 : wholeTensor s .write false (d + 1) (some true) = .ok t2)
    (hk2 : engScaleWrites s t2.scale (scaleKeys t2 true (allIdx t2.ext)) = .ok k2)
    (hts : offsetSrc s r t1 (offs (s.rdStg 8)) (ext0 t1) = .ok ts) (hext : t1.ext = t2.ext) (hlen : t1.ext.length = 2)
    (hfs : ts.d.fmt ≤ 2) (hf1 : 3 ≤ t1.d.fmt) (hf2 : t1.d.fmt = t2.d.fmt) (hsc1 : t1.scale = some sc1) (hsc2 : t2.scale = some sc2)
    (hidx : idxs = (rowPairs t1.ext 0 (offs (s.rdStg 8))).map (·.1))
    (hw1 : engWrites s t1 idxs = .ok w1) (hw2 : engWrites s t2 idxs = .ok w2)
    (hrr : engReads s ts false ((rowPairs t1.ext 0 (offs (s.rdStg 8))).map (·.2)) = .ok rr)
    (hh : engHold s (w1 ++ w2 ++ k1 ++ k2 ++ rr) = .ok ()) :
    execCpq g c d r m s = .next (queued (cpCmd (.cpq g c d r m) c (s.rdH d) [t1, t2, ts] (tilesOf (w1 ++ w2 ++ k1 ++ k2))
      [t1.d.id, sc1.id, t2.d.id, sc2.id] s) s) := by
  have hshape : ¬(t1.ext ≠ t2.ext ∨ t1.ext.length ≠ 2) := by simp [hext, ← hlen]
  have hfmt : ¬(2 < ts.d.fmt ∨ t1.d.fmt < 3 ∨ t1.d.fmt ≠ t2.d.fmt) := by omega
  have hscale : ¬(t1.scale.isNone ∨ t2.scale.isNone) := by simp [hsc1, hsc2]
  have hids : writerIds t1 true ++ writerIds t2 true = [t1.d.id, sc1.id, t2.d.id, sc2.id] := by simp [writerIds, hsc1, hsc2]
  subst hidx
  rw [ext0] at hts
  refine slotOut_next hr ?_
  simp only [stgAt_cp, ht1, hk1, ht2, hk2, hts, bind_ok, if_neg hshape, if_neg hfmt, if_neg hscale, hw1, hw2, hrr, hh, hids]
  exact enqueue_of_hasEntry he rfl

section cpqs
variable (hr : ready .cp g (.cpqs g c d r m) s = true) (htd : wholeTensor s .write false d (some false) = .ok td)
    (hts : offsetSrc s r td (offs (s.rdStg 8)) (ext0 td) (some false) = .ok ts)
include hr htd hts

theorem execCpqs_noScale (hsc : td.scale = none) :
    execCpqs g c d r m s = .next (raise 5 0x07 (some (BitVec.ofNat 64 (3 * 2 ^ 32))) s) := by
  rw [ext0] at hts
  refine slotOut_opFault hr ?_
  simp only [stgAt_cp, htd, hsc, hts, bind_ok, Option.isNone_none, if_true]

theorem execCpqs_queues {sc : TBase} {ps : List (List Nat × List Nat)} {kr : List Nat} (he : hasEntry .cp s) (hsc : td.scale = some sc)
    (hkr : pipeFault .read (homesOf (elemHomes s .read sc) (scaleKeys td false (allIdx td.ext))) = .ok kr)
    (hps : ps = rowPairs td.ext 0 (offs (s.rdStg 8))) (hws : engWrites s td (ps.map (·.1)) = .ok ws)
    (hrr : engReads s ts false (ps.map (·.2)) = .ok rr) (hh : engHold s (ws ++ rr ++ kr) = .ok ()) :
    execCpqs g c d r m s = .next (queued (cpCmd (.cpqs g c d r m) c (s.rdH d) [td, ts] (tilesOf ws) (writerIds td false) s) s) := by
  subst hps
  rw [ext0] at hts
  refine slotOut_next hr ?_
  simp only [stgAt_cp, htd, hsc, hkr, hts, bind_ok, Option.isNone_some, Bool.false_eq_true, if_false, hws, hrr, hh]
  exact enqueue_of_hasEntry he rfl
end cpqs

theorem useTens_of_blockTensor {k : Acc} {t : Tens} (h : blockTensor s k r = .ok t) : useTens s r none = .ok t ∧ t.d.layout = 2 := by
  unfold blockTensor at h
  cases hu : useTens s r none with
  | error x => rw [hu] at h; cases h
  | ok u =>
    rw [hu, bind_ok] at h
    split at h
    next hl =>
      cases hb : blockReach s k u with
      | error x => rw [hb] at h; cases h
      | ok hs => rw [hb] at h; obtain rfl := Except.ok.inj h; exact ⟨rfl, hl⟩
    next hl =>
      cases hb : rowsReach s k false u (wholeRows u) <;> rw [hb] at h <;> cases h

theorem blockTensor_of_reach {k : Acc} {t : Tens} (hu : useTens s r none = .ok t) (hl : t.d.layout = 2)
    (hb : blockReach s k t = .ok rr) : blockTensor s k r = .ok t := by
  simp only [blockTensor, hu, bind_ok, if_pos hl, hb]

theorem blockTensor_of_layout_ne {k : Acc} {t : Tens} (hu : useTens s r none = .ok t) (hl : t.d.layout ≠ 2)
    (hr : rowsReach s k false t (wholeRows t) = .ok ()) : blockTensor s k r = .error (.fault 0x37 none) := by
  simp only [blockTensor, hu, bind_ok, if_neg hl, hr]

theorem execCpz_layout (hr : ready .cp g (.cpz g c d r) s = true) (hu : useTens s d none = .ok td) (hl : td.d.layout ≠ 2)
    (hreach : rowsReach s .write false td (wholeRows td) = .ok ()) : execCpz g c d r s = .next (raise 5 0x37 none s) := by
  refine slotOut_fault hr (v := none) ?_
  simp only [blockTensor_of_layout_ne hu hl hreach, bind_error]

theorem execCpx_layout (hr : ready .cp g (.cpx g c d r) s = true) (hu : useTens s r none = .ok ts) (hl : ts.d.layout ≠ 2)
    (hreach : rowsReach s .read false ts (wholeRows ts) = .ok ()) : execCpx g c d r s = .next (raise 5 0x37 none s) := by
  refine slotOut_fault hr (v := none) ?_
  simp only [blockTensor_of_layout_ne hu hl hreach, bind_error]

theorem execCpz_queues {idxs : List (List Nat)} (hr : ready .cp g (.cpz g c d r) s = true) (he : hasEntry .cp s)
    (htd : blockTensor s .write d = .ok td) (hts : regionTensor s .read r (offs (s.rdStg 8)) = .ok ts)
    (hidx : idxs = (rowPairs ts.ext (offs (s.rdStg 8)) 0).map (·.1)) (hcodes : sameCodes td ts = .ok ())
    (hdim : td.ext.length = ts.ext.length) (hcount : count td.ext = idxs.length) (hmax : idxs.length ≤ 65535)
    (hws : blockReach s .write td = .ok ws) (hrr : engReads s ts false idxs = .ok rr) (hh : engHold s (ws ++ rr) = .ok ()) :
    execCpz g c d r s = .next (queued (cpCmd (.cpz g c d r) c (s.rdH d) [td, ts] (tilesOf ws) (writerIds td false) s) s) := by
  have hshape : ¬(td.ext.length ≠ ts.ext.length ∨ count td.ext ≠ idxs.length ∨ 65535 < idxs.length) := by omega
  subst hidx
  refine slotOut_next hr ?_
  simp only [stgAt_cp, htd, hts, hcodes, bind_ok, if_neg hshape, hws, hrr, hh]
  exact enqueue_of_hasEntry he rfl

theorem execCpx_queues {idxs : List (List Nat)} (hr : ready .cp g (.cpx g c d r) s = true) (he : hasEntry .cp s)
    (hts : blockTensor s .read r = .ok ts) (htd : regionTensor s .write d (offs (s.rdStg 9)) = .ok td)
    (hidx : idxs = (rowPairs td.ext (offs (s.rdStg 9)) 0).map (·.1))
    (hdim : td.ext.length = ts.ext.length) (hcount : count ts.ext = idxs.length)
    (hws : engWrites s td idxs = .ok ws) (hrr : blockReach s .read ts = .ok rr) (hh : engHold s (ws ++ rr) = .ok ()) :
    execCpx g c d r s = .next (queued (cpCmd (.cpx g c d r) c (s.rdH d) [td, ts] (tilesOf ws) (writerIds td false) s) s) := by
  have hshape : ¬(td.ext.length ≠ ts.ext.length ∨ count ts.ext ≠ idxs.length) := by omega
  subst hidx
  refine slotOut_next hr ?_
  simp only [stgAt_cp, htd, hts, bind_ok, if_neg hshape, hws, hrr, hh]
  exact enqueue_of_hasEntry he rfl

theorem joinTxn_of_lt {a : Joined} (h : s.c.txn.acts.length < 16) : joinTxn a s = s.onC fun c => { c with
    txn := { c.txn with acts := c.txn.acts ++ [a], count := c.txn.count + 1 } } := by
  simp only [joinTxn, State.onC, if_neg (Nat.not_le.mpr h)]

/-- In an open transaction with room for two, an action joins, and where b is true another after it. -/
theorem joinTxn_joinTxn {x y : Joined} {b : Bool} (hact : s.c.txn.act = true) (hlen : s.c.txn.acts.length < 15) :
    (if b && (joinTxn x s).c.txn.act then joinTxn y (joinTxn x s) else joinTxn x s) = s.onC fun c => { c with
      txn := { c.txn with acts := c.txn.acts ++ x :: (if b then [y] else []), count := c.txn.count + (if b then 2 else 1) } } := by
  have hx := joinTxn_of_lt (a := x) (s := s) (by omega)
  cases b with
  | false => simpa using hx
  | true =>
    have hlen' : (joinTxn x s).c.txn.acts.length < 16 := by simp [hx]; omega
    rw [if_pos (by simp [hx, hact]), joinTxn_of_lt hlen', hx]
    simp

section cpk
variable {cur : Nat} (hr : ready .cp g (.cpk g c d r) s = true) (htd : offsetDst s d (offs (s.rdStg 9)) = .ok td)
    (hts : offsetSrc s r td (offs (s.rdStg 8)) (ext0 td - offs (s.rdStg 9)) = .ok ts) (hcur : curHome s td.d.id = .ok cur)
include hr htd hts hcur

theorem execCpk_view (hv : td.view ≠ 1) : execCpk g c d r s = .next (raise 5 0x07 (some (BitVec.ofNat 64 (14 * 2 ^ 32))) s) := by
  rw [ext0] at hts
  refine slotOut_opFault hr ?_
  simp only [stgAt_cp, htd, hts, hcur, pipeFault, bind_ok, if_pos hv]

variable (hv : td.view = 1) (hcodes : sameCodes td ts = .ok ())
include hv hcodes

theorem execCpk_level (hl : s.c.info.nlev ≤ bindLevel (s.rdStg 11)) :
    execCpk g c d r s = .next (raise 5 0x07 (some (BitVec.ofNat 64 (15 * 2 ^ 32))) s) := by
  rw [ext0] at hts
  refine slotOut_opFault hr ?_
  simp only [stgAt_cp, htd, hts, hcur, hv, hcodes, pipeFault, bind_ok, ne_eq, not_true_eq_false, if_false, if_pos hl]

variable {ps : List (List Nat × List Nat)} {q : Cmd} (he : hasEntry .cp s) (hl : bindLevel (s.rdStg 11) < s.c.info.nlev)
    (hps : ps = rowPairs td.ext (offs (s.rdStg 9)) (offs (s.rdStg 8))) (hws : engWrites s td (ps.map (·.1)) = .ok ws)
    (hrr : engReads s ts false (ps.map (·.2)) = .ok rr) (hh : engHold s (ws ++ rr ++ [cur]) = .ok ())
    (hq : q = { cpCmd (.cpk g c d r) c (s.rdH d) [td, ts] (tilesOf ws) (writerIds td false) s with joined := s.c.txn.act })
include he hl hps hws hrr hh hq

theorem execCpk_queues (hact : s.c.txn.act = false) : execCpk g c d r s = .next (queued q s) := by
  have henq := enqueue_of_hasEntry (q := q) he (by rw [hq]; rfl)
  subst hq hps
  rw [hact] at henq
  rw [ext0] at hts
  refine slotOut_next hr ?_
  simp only [stgAt_cp, htd, hts, hcur, hv, hcodes, pipeFault, bind_ok, ne_eq, not_true_eq_false, if_false, if_neg (Nat.not_le.mpr hl),
    hws, hrr, hh, hact, Bool.false_eq_true]
  exact congrArg (· >>= _) henq

theorem execCpk_joins (hact : s.c.txn.act = true) (hlen : s.c.txn.acts.length < 15) :
    execCpk g c d r s = .next ((queued q s).onC fun c => { c with txn := { c.txn with
      acts := c.txn.acts ++ .pub td.d.id (s.c.cmdNo + 1) :: (if bindArrive (s.rdStg 11) then
        [.bara (bindBar (s.rdStg 11)) (bindLevel (s.rdStg 11)) (s.c.cmdNo + 1)] else [])
      count := c.txn.count + (if bindArrive (s.rdStg 11) then 2 else 1) } }) := by
  have henq := enqueue_of_hasEntry (q := q) he (by rw [hq]; rfl)
  rw [ext0] at hts
  refine slotOut_next hr ?_
  rw [← joinTxn_joinTxn (s := queued q s) (by subst hq; exact hact) (by subst hq; exact hlen)]
  subst hq hps
  simp only [stgAt_cp, htd, hts, hcur, hv, hcodes, pipeFault, bind_ok, ne_eq, not_true_eq_false, if_false, if_neg (Nat.not_le.mpr hl),
    hws, hrr, hh, hact, if_true]
  rw [hact] at henq
  exact congrArg (· >>= _) henq
end cpk

theorem execCpf_queues (hr : ready .cp g (.cpf g c d) s = true) (he : hasEntry .cp s) (htd : wholeTensor s .write false d = .ok td)
    (hws : engWrites s td (allIdx td.ext) = .ok ws) (hh : engHold s ws = .ok ()) :
    execCpf g c d s = .next (queued (cpCmd (.cpf g c d) c (s.rdH d) [td] (tilesOf ws) (writerIds td false) s) s) := by
  refine slotOut_next hr ?_
  simp only [htd, hws, hh, bind_ok]
  exact enqueue_of_hasEntry he rfl

theorem execCpr_reads (hr : ready .cp g (.cpr g c d r) s = true) (he : hasEntry .cp s) (hdir : (s.rdStg 9).getLsbD 63 = true)
    (hts : useTens s r none = .ok ts) (hrr : engReads s ts false (allIdx ts.ext) = .ok rr) (hh : engHold s (2 ^ 64 :: rr) = .ok ()) :
    execCpr g c d r s = .next (queued (cpCmd (.cpr g c d r) c 0 [ts] [] [] s) s) := by
  refine slotOut_next hr ?_
  simp only [stgAt_cp, hdir, hts, hrr, hh, bind_ok, if_true]
  exact enqueue_of_hasEntry he rfl

theorem execCpr_writes (hr : ready .cp g (.cpr g c d r) s = true) (he : hasEntry .cp s) (hdir : (s.rdStg 9).getLsbD 63 = false)
    (htd : useTens s d none = .ok td) (hws : engWrites s td (allIdx td.ext) = .ok ws) (hh : engHold s (2 ^ 64 :: ws) = .ok ()) :
    execCpr g c d r s = .next (queued (cpCmd (.cpr g c d r) c (s.rdH d) [td] (tilesOf ws) (writerIds td false) s) s) := by
  refine slotOut_next hr ?_
  simp only [stgAt_cp, hdir, htd, hws, hh, bind_ok, Bool.false_eq_true, if_false]
  exact enqueue_of_hasEntry he rfl

theorem execCpw_waits (hr : ready .cp g (.cpw g c) s = true) :
    execCpw g c s = .next (if s.c.cpq.any fun q => q.chan == c.toNat then stalled s else s) := by
  cases hany : s.c.cpq.any fun q => q.chan == c.toNat with
  | true => exact slotOut_error hr (x := .stall) (by simp only [hany, if_true]) (by simp)
  | false => exact slotOut_next hr (by simp only [hany, Bool.false_eq_true, if_false])
end

/-- cpbs ends the commands and the bindings that its own replaces, and binds its stream (R176, R204; at issue by log 50). -/
theorem execCpbs_binds {g : Guard} {c : BitVec 4} {z : BitVec 3} {r : BitVec 5} {s : State} {ts : Tens} {pos : Nat} {rr : List Nat}
    (hr : ready .cp g (.cpbs g c z r) s = true) (he : hasEntry .cp s) (hpos : pos = (s.rdStg 8).toNat % 2 ^ 32)
    (hts : useTens s r none = .ok ts) (hrr : engReads s ts false ((allIdx ts.ext).drop pos) = .ok rr) (hh : engHold s rr = .ok ()) :
    ∃ t, sameRegs s t ∧ t.mem = s.mem ∧ execCpbs g c z r s
      = .next (onZ z.toNat (fun x => ⟨true, c, some ts, pos, false, 0, [], x.waits, none⟩) (unbindChan c t)) := by
  subst hpos
  have hstg : (cpCmd (.cpbs g c z r) c 0 [ts] [] [] s).stgAt 0 = s.rdStg 8 := rfl
  have hq := enqueue_of_hasEntry (q := cpCmd (.cpbs g c z r) c 0 [ts] [] [] s) he rfl
  obtain ⟨hregs, hmem⟩ := foldl_popCmd
    (s.c.cpq.filter fun x => match x.i with | .cpbs _ c' z' _ => c' == c || z' == z | _ => false)
    (queued (cpCmd (.cpbs g c z r) c 0 [ts] [] [] s) s)
  refine ⟨_, (sameRegs_queued _ s).trans hregs, hmem, slotOut_next hr ?_⟩
  simp only [hts, hstg, hrr, hh, hq, bind_ok] <;> rfl

theorem execCpab_stops {g : Guard} {c : BitVec 4} {s : State} (hr : ready .cp g (.cpab g c) s = true) (hslot : ∀ q ∈ s.c.cpq, q.slot = 5) :
    ∃ t, sameRegs s t ∧ (∀ q, q ∈ t.c.cpq ↔ q ∈ s.c.cpq ∧ ∀ x ∈ s.c.cpq, x.chan = c.toNat → x.no ≠ q.no)
      ∧ execCpab g c s = .next (unbindChan c (t.onC fun k =>
        { k with failing := if k.failing.any (fun f => f.cmd.slot == 5 && f.cmd.chan == c.toNat) then none else k.failing })) := by
  obtain ⟨hregs, hq⟩ := foldl_discardCmd (s.c.cpq.filter fun q => q.chan == c.toNat) (fun q h => hslot q (List.mem_filter.mp h).1) s _ rfl
  refine ⟨_, hregs, fun q => ?_, slotOut_next hr rfl⟩
  simp only [hq, List.mem_filter, beq_iff_eq, and_imp]

/-- Settles O46: where the checks of a cp word pass, its body is the queueing of its command, and a check that fails is its fault. -/
theorem copyIssue : Obligations.CopyIssue := by
  refine ⟨fun k i s j _ hj => ⟨stgAt_newCmd k i s hj, rfl, rfl, rfl, rfl⟩, ?cpy, ?cpt, ?cpq, ?cpqs, ?cpz, ?cpx, ?cpk, ?cpbs,
    fun g c s hr => execCpw_waits hr, ?cpab, ?cpf, ?cpr⟩
  case cpy =>
    rintro g c d r s os od t0 td ts ps ws rr sw hr he rfl rfl htd ht0 hsw
    exact ⟨execCpy_formats hr htd ht0 hsw, execCpy_queues hr htd ht0 hsw he⟩
  case cpt =>
    rintro g c d r s os oc e0 e1 f0 f1 td ts ws rr hr he rfl rfl htd hts hd hs
    exact ⟨execCpt_bounds hr htd hts hd hs, fun hreach hb hcodes =>
      ⟨execCpt_format hr htd hts hd hs hreach hb hcodes, execCpt_queues hr htd hts hd hs hreach hb hcodes he⟩⟩
  case cpq =>
    rintro g c d r m s os ts t1 t2 sc1 sc2 idxs w1 w2 rr k1 k2 hr he rfl
    exact execCpq_queues hr he
  case cpqs =>
    rintro g c d r m s os td ts sc ps ws rr kr hr he rfl htd
    exact ⟨fun hsc hts => execCpqs_noScale hr htd hts hsc, fun hsc hkr hts => execCpqs_queues hr htd hts he hsc hkr⟩
  case cpz =>
    rintro g c d r s os td ts idxs ws rr hr he rfl
    exact ⟨execCpz_layout hr, execCpz_queues hr he⟩
  case cpx =>
    rintro g c d r s od td ts idxs ws rr hr he rfl
    refine ⟨execCpx_layout hr, fun hts htd hidx hdim hcount hws hrr hh => ?_⟩
    obtain ⟨hu, hl⟩ := useTens_of_blockTensor hts
    exact execCpx_queues hr he (blockTensor_of_reach hu hl hrr) htd hidx hdim hcount hws hrr hh
  case cpk =>
    rintro g c d r s os od w td ts ps ws rr cur q hr he rfl rfl rfl htd hts hcur
    refine ⟨execCpk_view hr htd hts hcur, fun hv hcodes => execCpk_level hr htd hts hcur hv hcodes, fun hv hcodes hl hps hws hrr hh hq =>
      ⟨execCpk_queues hr htd hts hcur hv hcodes he hl hps hws hrr hh hq, execCpk_joins hr htd hts hcur hv hcodes he hl hps hws hrr hh hq⟩⟩
  case cpbs =>
    intro g c z r s ts pos rr hr he hpos hts hrr hh
    obtain ⟨t, ⟨hreg, hz, -⟩, hmem, hexec⟩ := execCpbs_binds hr he hpos hts hrr hh
    refine ⟨_, hexec, ?_, fun z' hne => ?_, hmem, (onZ_r ..).trans hreg⟩
    · simp only [onZ_z z.isLt, Vector.getElem_set_self, waits_unbindChan, hz]
    · have hne' : z.toNat ≠ z'.toNat := fun h => hne (BitVec.eq_of_toNat_eq h.symm)
      simp only [onZ_z z.isLt, Vector.getElem_set_ne _ _ hne', unbindChan_z, hz]
  case cpab =>
    intro g c s hr hslot
    obtain ⟨t, ⟨hreg, -, hfail⟩, hq, hexec⟩ := execCpab_stops hr hslot
    refine ⟨_, hexec, fun q hmem => ?_, fun q hmem hno => (hq q).mpr ⟨hmem, hno⟩, hreg, fun z => chan_ne_of_bound_unbindChan, fun f hf => ?_⟩
    · obtain ⟨hin, hno⟩ := (hq q).mp hmem
      exact ⟨hin, fun hc => hno q hin hc rfl⟩
    · change (if t.c.failing.any _ then none else t.c.failing) = some f at hf
      rw [hfail] at hf
      split at hf
      · cases hf
      · next hany =>
        rw [hf] at hany
        exact ⟨hf, by simpa using hany⟩
  case cpf =>
    intro g c d s td ws hr he
    exact execCpf_queues hr he
  case cpr =>
    intro g c d r s t hs hr he hh
    exact ⟨fun hdir hts hrr => execCpr_reads hr he hdir hts hrr hh, fun hdir htd hws => execCpr_writes hr he hdir htd hws hh⟩

end Sys2Proof.Machine
end

section
/-! SUPPORT. The machine at reset (R14, R80, R119, R144, R236, R375). -/

namespace Sys2Proof.Machine

/-- Settles O34: every table of the machine is empty at reset, and every file of registers is its reset value repeated (log 1). -/
theorem resetState : Obligations.ResetState := by
  have hs (i : Fin 64) : State.reset.c.r.s[i] = 0 := Vector.getElem_replicate i.isLt
  have hh (i : Fin 32) : State.reset.c.r.h[i] = 0 := Vector.getElem_replicate i.isLt
  have hstg (i : Fin 32) : State.reset.c.r.stg[i] = 0 := Vector.getElem_replicate i.isLt
  have hsrec (i : Fin 8) : State.reset.c.srec[i] = 0 := Vector.getElem_replicate i.isLt
  have hm (i : Fin 16) : State.reset.c.m[i] = ⟨false, [], [], [], [], false⟩ := Vector.getElem_replicate i.isLt
  have hplanes (i : Fin 8) : State.reset.c.arr.planes[i] = Plane.empty := Vector.getElem_replicate i.isLt
  have hz (i : Fin 8) : (State.reset.c.z[i]).bound = false := congrArg Stream.bound (Vector.getElem_replicate i.isLt)
  have hmem : State.reset.MemOk := ⟨rfl, rfl, rfl, rfl⟩
  exact ⟨rfl, rfl, rfl, rfl, rfl, rfl, hs, hh, hstg, hsrec, rfl, rfl, rfl, rfl, rfl, rfl, rfl, rfl, rfl, rfl, rfl, hm, hplanes, hz, rfl, hmem⟩

end Sys2Proof.Machine
end

section
/-! SUPPORT. Scalar FP32 and conversion: one rounding of the exact value, its flags, and the form in which the result is written (R57, R110,
R111). -/

namespace Sys2Proof.Machine

/-- An FP32 result is the code of the exact value, with the flags of its rounding and of a NaN it makes. -/
theorem fpResult_eq (d : BitVec 6) (operandNan : Bool) (x : Num) (s : State) : fpResult d operandNan x s =
    writeS .sc d (BitVec.ofNat 64 (rndNum 0 [] 0 x).1) 4 (raiseFlags .sc ((rndNum 0 [] 0 x).2 ||| nvOf operandNan x) s) := rfl

/-- The word that cvt writes for a code of a format: the code itself, or for an integer format its value (R111). -/
def cvtWord (fmt c : Nat) : Word :=
  if fmt ≤ 6 ∨ 22 ≤ fmt then BitVec.ofNat 64 c
  else match decodeNum fmt [] c with
    | .fin neg k e => BitVec.ofInt 64 (if neg then -((k * 2 ^ e.toNat : Nat) : Int) else ((k * 2 ^ e.toNat : Nat) : Int))
    | _ => 0

theorem cvtWord_of_code {fmt : Nat} (h : fmt ≤ 6 ∨ 22 ≤ fmt) (c : Nat) : cvtWord fmt c = BitVec.ofNat 64 c := if_pos h

theorem cvtWord_of_integer {fmt c k : Nat} {neg : Bool} {e : Int} (hlo : 7 ≤ fmt) (hhi : fmt ≤ 15)
    (hc : decodeNum fmt [] c = .fin neg k e) :
    cvtWord fmt c = BitVec.ofInt 64 ((if neg then -1 else 1) * ((k * 2 ^ e.toNat : Nat) : Int)) := by
  unfold cvtWord
  rw [if_neg (by omega), hc]
  cases neg <;> simp

/-- What cvt writes: its source rounded once to the format, in the word of that format. -/
theorem exec_cvt {g : Guard} {d a : BitVec 6} {f : BitVec 5} {m : BitVec 2} {x : BitVec 1} {s : State} {src : Num} {c : Nat} {fl : Flags}
    (hr : ready .sc g (.cvt g d a f m x) s = true) (hsrc : src = if x = 1 then Num.ofInt (s.rdS a).toInt else fp32 (s.rdS a))
    (hrnd : rndNum f.toNat [] m.toNat src = (c, fl)) :
    exec (.cvt g d a f m x) s = .next (writeS .sc d (cvtWord f.toNat c) 3 (raiseFlags .sc fl s)) := by
  subst hsrc
  exact slotOut_next hr (by simp only [hrnd]; rfl)

/-- Settles O9: the body of each word is one rounding of the exact result. -/
theorem floatResults : Obligations.FloatResults := by
  refine ⟨fun g d a b s x y z hx hy hz => ?_, fun g d a f m x s src c fl hr hsrc hrnd => ⟨fun hf => ?_, fun neg k e hlo hhi hc => ?_⟩⟩
  · subst hx hy hz
    refine ⟨fun hr => ?_, fun hr => ?_, fun hr => ?_⟩ <;> rw [← fpResult_eq] <;> exact slotOut_next hr rfl
  · rw [exec_cvt hr hsrc hrnd, cvtWord_of_code hf]
  · rw [exec_cvt hr hsrc hrnd, cvtWord_of_integer hlo hhi hc]

end Sys2Proof.Machine
end

section
/-! SUPPORT. The accumulators: what is read after an element, and after the elements of a row, are set (R125, R128). -/

namespace Sys2Proof.Machine

theorem accKey_inj {t t' r r' j j' : Nat} (hr : r < 128) (hr' : r' < 128) (hj : j < 128) (hj' : j' < 128) :
    accKey t' r' j' = accKey t r j ↔ t' = t ∧ r' = r ∧ j' = j := by
  unfold accKey; omega

theorem accSet_rises {a : ArrayState} (h : SMap.risesFrom 0 a.acc = true) (t r j : Nat) (e : FaElem) :
    SMap.risesFrom 0 (accSet t r j e a).acc = true := by
  unfold accSet; dsimp only
  split
  · exact SMap.risesFrom_del h
  · exact SMap.risesFrom_put h (Nat.zero_le _)

/-- An element reads back what was set, and every other as before; a zero one is not listed. -/
theorem accGet_accSet {a : ArrayState} (h : SMap.risesFrom 0 a.acc = true) (t r j : Nat) (e : FaElem) (t' r' j' : Nat) :
    accGet (accSet t r j e a) t' r' j' = if accKey t' r' j' = accKey t r j then e else accGet a t' r' j' := by
  unfold accGet accSet; dsimp only
  split
  · next he => rw [SMap.get?_del h]; split <;> simp [he]
  · rw [SMap.get?_put]; split <;> rfl

/-- Set the first n elements of a row, each from what it holds. -/
def mapRow (t r : Nat) (f : Nat → FaElem → FaElem) (n : Nat) (a : ArrayState) : ArrayState :=
  (List.range n).foldl (fun a j => accSet t r j (f j (accGet a t r j)) a) a

theorem mapRow_succ (t r : Nat) (f : Nat → FaElem → FaElem) (n : Nat) (a : ArrayState) :
    mapRow t r f (n + 1) a = accSet t r n (f n (accGet (mapRow t r f n a) t r n)) (mapRow t r f n a) := by
  unfold mapRow; rw [List.range_succ, List.foldl_append]; rfl

theorem mapRow_eq (t r : Nat) (f : Nat → FaElem → FaElem) (n : Nat) (a : ArrayState) :
    mapRow t r f n a = { a with acc := (mapRow t r f n a).acc } := by
  induction n with
  | zero => rfl
  | succ n ih => rw [mapRow_succ, ih]; rfl

theorem mapRow_rises (t r : Nat) (f : Nat → FaElem → FaElem) (n : Nat) {a : ArrayState} (h : SMap.risesFrom 0 a.acc = true) :
    SMap.risesFrom 0 (mapRow t r f n a).acc = true := by
  induction n with
  | zero => exact h
  | succ n ih => rw [mapRow_succ]; exact accSet_rises ih ..

theorem accGet_mapRow {a : ArrayState} (h : SMap.risesFrom 0 a.acc = true) {r n : Nat} (t : Nat) (f : Nat → FaElem → FaElem) (hr : r < 128)
    (hn : n ≤ 128) (t' : Nat) {r' j' : Nat} (hr' : r' < 128) (hj' : j' < 128) :
    accGet (mapRow t r f n a) t' r' j' = if (t' = t ∧ r' = r) ∧ j' < n then f j' (accGet a t r j') else accGet a t' r' j' := by
  induction n generalizing t' r' j' with
  | zero => exact (if_neg (by omega)).symm
  | succ n ih =>
    have hn' : n < 128 := by omega
    have hold : accGet (mapRow t r f n a) t r n = accGet a t r n := (ih (by omega) t hr hn').trans (if_neg (by omega))
    rw [mapRow_succ, accGet_accSet (mapRow_rises t r f n h), hold, ih (by omega) t' hr' hj']
    simp only [accKey_inj hr hr' hn' hj']
    by_cases hkey : t' = t ∧ r' = r ∧ j' = n
    · obtain ⟨rfl, rfl, rfl⟩ := hkey
      rw [if_pos ⟨rfl, rfl, rfl⟩, if_pos ⟨⟨rfl, rfl⟩, by omega⟩]
    · rw [if_neg hkey]
      exact ite_congr (propext (by omega)) (fun _ => rfl) fun _ => rfl

/-- The array once the row is cleared, as apush begins (R125). -/
def clearRow (t r : Nat) (a : ArrayState) : ArrayState :=
  { mapRow t r (fun _ _ => 0) 128 a with upset := a.upset.filter fun k => k / 128 != t * 128 + r }

theorem clearRow_acc (t r : Nat) (a : ArrayState) : (clearRow t r a).acc = (mapRow t r (fun _ _ => 0) 128 a).acc := by
  rw [clearRow]

/-- A pushed row sets each column's element to its sum. -/
theorem pushRow_eq (p : Plane) (xs : List (Num × Num)) (t r : Nat) (clear : Bool) (a : ArrayState) :
    pushRow p xs t r clear a = mapRow t r (columnSum p (anchorOf a t) xs) p.n (if clear then clearRow t r a else a) := by
  cases clear <;> rfl

theorem accGet_clearRow {a : ArrayState} (h : SMap.risesFrom 0 a.acc = true) {r : Nat} (t : Nat) (hr : r < 128) (t' : Nat) {r' j' : Nat}
    (hr' : r' < 128) (hj' : j' < 128) : accGet (clearRow t r a) t' r' j' = if t' = t ∧ r' = r then 0 else accGet a t' r' j' := by
  rw [accGet, clearRow_acc, ← accGet, accGet_mapRow h t _ hr (Nat.le_refl _) t' hr' hj']
  exact ite_congr (propext (and_iff_left hj')) (fun _ => rfl) fun _ => rfl

/-- An element of the accumulators as a push finds it: apush begins from zero (R125). -/
theorem accGet_beforePush {a : ArrayState} (h : SMap.risesFrom 0 a.acc = true) {r : Nat} (t : Nat) (clear : Bool) (hr : r < 128) (t' : Nat)
    {r' j' : Nat} (hr' : r' < 128) (hj' : j' < 128) : accGet (if clear then clearRow t r a else a) t' r' j' =
      if (t' = t ∧ r' = r) ∧ clear = true then 0 else accGet a t' r' j' := by
  cases clear with
  | false => simp
  | true => simpa using accGet_clearRow h t hr t' hr' hj'

theorem beforePush_rises {a : ArrayState} (h : SMap.risesFrom 0 a.acc = true) (t r : Nat) (clear : Bool) :
    SMap.risesFrom 0 (if clear then clearRow t r a else a).acc = true := by
  cases clear with
  | false => exact h
  | true => rw [if_pos rfl, clearRow_acc]; exact mapRow_rises t r _ 128 h

/-- An element after a push: the row's columns hold their sums, its further elements what the push found. -/
theorem accGet_pushRow {a : ArrayState} (h : SMap.risesFrom 0 a.acc = true) {p : Plane} (hp : p.n ≤ 128) (xs : List (Num × Num)) {r : Nat}
    (t : Nat) (clear : Bool) (hr : r < 128) (t' : Nat) {r' j' : Nat} (hr' : r' < 128) (hj' : j' < 128) :
    accGet (pushRow p xs t r clear a) t' r' j' =
      if t' = t ∧ r' = r then
        if j' < p.n then columnSum p (anchorOf a t) xs j' (if clear then 0 else accGet a t r j') else if clear then 0 else accGet a t r j'
      else accGet a t' r' j' := by
  rw [pushRow_eq, accGet_mapRow (beforePush_rises h t r clear) t _ hr hp t' hr' hj', accGet_beforePush h t clear hr t hr hj',
    accGet_beforePush h t clear hr t' hr' hj']
  by_cases hrow : t' = t ∧ r' = r
  · obtain ⟨rfl, rfl⟩ := hrow
    simp
  · simp [hrow]

/-- A push changes the accumulators, and apush the marks of residues that do not match, and nothing else of the array. -/
theorem pushRow_frame (p : Plane) (xs : List (Num × Num)) (t r : Nat) (clear : Bool) (a : ArrayState) :
    pushRow p xs t r clear a = { a with acc := (pushRow p xs t r clear a).acc, upset := (pushRow p xs t r clear a).upset } := by
  have hclear : (if clear then clearRow t r a else a) =
      { a with acc := (if clear then clearRow t r a else a).acc, upset := (if clear then clearRow t r a else a).upset } := by
    cases clear with
    | false => rfl
    | true => simp only [clearRow, if_true]; rw [mapRow_eq]
  rw [pushRow_eq, mapRow_eq, hclear]

theorem pushRow_upset (p : Plane) (xs : List (Num × Num)) (t r : Nat) (a : ArrayState) : (pushRow p xs t r false a).upset = a.upset := by
  rw [pushRow_eq, mapRow_eq]; rfl

/-- A row operation on the array is recorded, and nothing else of the machine changes (R126). -/
theorem setLast_onArr {f : ArrayState → ArrayState} {s : State} {acc : SMap FaElem} {upset : List Nat}
    (h : f s.c.arr = { s.c.arr with acc := acc, upset := upset }) (op : Nat) (hv : BitVec 256) (l : BitVec 2) (t : BitVec 3) (o : Nat) :
    setLast op hv l t o (onArr f s) =
      { s with c := { s.c with arr := { s.c.arr with acc := acc, upset := upset, last := some ⟨op, hv, l, t, o⟩ } } } := by
  unfold setLast onArr State.onC; dsimp only; rw [h]

/-- apush and aacc of a row that passes its checks and can be read (R125, R127). -/
theorem pushWord_ok {clear : Bool} {h : BitVec 5} {rs : BitVec 6} {l : BitVec 2} {t : BitVec 3} {s : State} {fx x : Tens}
    {xs : List (Num × Num)} (hfx : useTens s h none = .ok fx) (hcheck : pushCheck fx (latchOf s l) (s.rdS rs).toNat s = .ok ())
    (hx : useTens s h (some false) = .ok x) (hdim : twoDim x = .ok ())
    (hreads : pipeReads s x false (pushIdxs x (latchOf s l) (s.rdS rs).toNat s) = .ok ())
    (hxs : rowActivations s x (latchOf s l) (s.rdS rs).toNat = .ok xs) :
    pushWord clear h rs l t s = .ok (setLast (if clear then 1 else 3) (s.rdH h) l t (s.rdS rs).toNat
      (onArr (pushRow (activePlane s.c.arr (latchOf s l)) xs t.toNat ((s.rdS rs).toNat % 128) clear) s)) := by
  have hpush : pushOp clear x (latchOf s l) t.toNat (s.rdS rs).toNat s =
      .ok (onArr (pushRow (activePlane s.c.arr (latchOf s l)) xs t.toNat ((s.rdS rs).toNat % 128) clear) s) := by
    rw [pushOp, hreads, bind_ok]
    change rowActivations s x (latchOf s l) (s.rdS rs).toNat >>= _ = _
    rw [hxs, bind_ok]
  rw [pushWord, hfx, bind_ok]
  dsimp only
  rw [hcheck, bind_ok, hx, bind_ok, hdim, bind_ok, hpush, bind_ok]

/-- Settles O37: each word is one push of its row, whose elements the lemmas above give. -/
theorem rowOperationSums : Obligations.RowOperationSums := by
  intro g h rs l t s i clear fx x o r p xs hi hr hfx ho hro hcheck hx hdim hreads hxs hp hn hrises
  subst ho hro hp
  have hr128 : (s.rdS rs).toNat % 128 < 128 := Nat.mod_lt _ (by decide)
  have hexec : exec i s = .next (setLast (if clear then 1 else 3) (s.rdH h) l t (s.rdS rs).toNat
      (onArr (pushRow (activePlane s.c.arr (latchOf s l)) xs t.toNat ((s.rdS rs).toNat % 128) clear) s)) := by
    simp only [List.mem_cons, Prod.mk.injEq, List.not_mem_nil, or_false] at hi
    obtain ⟨rfl, rfl⟩ | ⟨rfl, rfl⟩ := hi <;> exact slotOut_next hr (pushWord_ok hfx hcheck hx hdim hreads hxs)
  refine ⟨_, hexec, fun j hj => ?_, fun j hj hj' => ?_, fun t' r' j hr' hj hne => ?_, ?_, ?_⟩
  · exact (accGet_pushRow hrises hn xs _ clear hr128 _ hr128 (by omega)).trans (by rw [if_pos ⟨rfl, rfl⟩, if_pos hj])
  · exact (accGet_pushRow hrises hn xs _ clear hr128 _ hr128 hj').trans (by rw [if_pos ⟨rfl, rfl⟩, if_neg (by omega)])
  · exact (accGet_pushRow hrises hn xs _ clear hr128 _ hr' hj).trans (if_neg (by omega))
  · exact setLast_onArr (pushRow_frame ..) ..
  · rintro rfl
    exact pushRow_upset ..

end Sys2Proof.Machine
end

section
/-! SUPPORT. The arithmetic words of the ve slot: one function of the elements' values for each, and how their checks and their write end
(R133 to R135, R143, Table 7-6). -/

namespace Sys2Proof.Machine

theorem length_of_mapM_ok {ε α β : Type} {f : α → Except ε β} {l : List α} {r : List β} (h : l.mapM f = .ok r) : r.length = l.length := by
  induction l generalizing r with
  | nil => cases h; rfl
  | cons x l ih =>
    rw [List.mapM_cons] at h
    cases hx : f x with
    | error e => rw [hx] at h; cases h
    | ok y =>
      cases hl : l.mapM f with
      | error e => rw [hx, hl] at h; cases h
      | ok ys => rw [hx, hl] at h; cases h; rw [List.length_cons, List.length_cons, ih hl]

/-- An arithmetic word applies one function to the values of its sources, and that function is Table 7-6's. -/
theorem exec_elemExact {i : Instr} {d : BitVec 5} {xs : List (BitVec 5)} (s : State) (h : vecHandles i = some (d, xs))
    (hi : ∃ vs, (elemExact i vs).isSome = true) : ∃ f : List Num → Num × Flags,
      exec i s = slotOut .ve i.guard i s (vecArith d xs f) ∧ ∀ vs, vs.length = xs.length → elemExact i vs = some (f vs) := by
  obtain ⟨vs, hvs⟩ := hi
  unfold elemExact at hvs
  split at hvs
  case h_12 => cases hvs
  all_goals
    obtain ⟨rfl, rfl⟩ := Prod.mk.inj (Option.some.inj h)
    refine ⟨_, rfl, fun vs hlen => ?_⟩
  case h_8 | h_9 =>
    match vs, hlen with
    | [x], _ => rfl
  case h_1 | h_2 | h_3 | h_6 | h_7 =>
    match vs, hlen with
    | [x, y], _ => simp [elemExact, ruled, vAt]
  case h_4 | h_5 | h_10 | h_11 =>
    match vs, hlen with
    | [x, y, z], _ => simp [elemExact, ruled, vAt, Bool.or_assoc]

theorem vecTens_length {s : State} {d : BitVec 5} {xs : List (BitVec 5)} {use : Option Bool} {td : Tens} {ts : List Tens}
    (h : vecTens s d xs use = .ok (td, ts)) : ts.length = xs.length := by
  unfold vecTens at h
  cases hd : wholeTensor s .write true d use with
  | error e => rw [hd] at h; cases h
  | ok t =>
    rw [hd, bind_ok] at h
    cases hx : xs.mapM fun x => wholeTensor s .read true x (some false) with
    | error e => rw [hx] at h; cases h
    | ok l => rw [hx] at h; cases h; exact length_of_mapM_ok hx

/-- An elementwise operation reads its elements as their index alone tells, and writes them (R133, R134, R211). -/
theorem vecMap_ok {d : Tens} {ts : List Tens} {f : State → List Nat → Except TransFault (Nat × Flags)} {s : State}
    {outs : List (Nat × Flags)} {nv : Flags} {cells : List Host.Cell} (hreach : vecReach s d ts = .ok ())
    (houts : (allIdx d.ext).mapM (f s) = .ok outs) (hnv : sourceNv s ts = .ok nv)
    (hcells : regionCells s d ((allIdx d.ext).zip (outs.map (·.1))) = .ok cells) (hpoison : partialPoison s cells = false)
    (hspec : s.c.spec = none) :
    vecMap d ts f s = .ok (raiseFlags .ve (outs.foldl (fun f o => f ||| o.2) nv) (s.write cells)) := by
  have hwrite : pipeWrite cells s = .ok (s.write cells) := by rw [pipeWrite, hpoison, hspec]; rfl
  rw [vecMap, hreach, bind_ok, mapRead, houts, pipeFault, bind_ok, vecWrite, hnv, bind_ok, hcells, pipeFault, bind_ok, hwrite, bind_ok]

/-- More than 16,384 elements end the shape check first, whatever the extents are (R133, log 24). -/
theorem vecShape_of_size {d : Tens} (h : 16384 < count d.ext) (xs : List Tens) : vecShape d xs = .error (opFault 2 (count d.ext)) := by
  rw [vecShape, vecSize, if_pos h, bind_error]

theorem vecShape_of_ext {d : Tens} {xs : List Tens} (hsize : count d.ext ≤ 16384)
    (hext : (xs.any fun x => x.ext != d.ext && count x.ext != 1) = true) : vecShape d xs = .error (opFault 1) := by
  rw [vecShape, vecSize, if_neg (by omega), bind_ok, if_pos hext]

/-- An arithmetic word whose operands pass the handle check goes on with the shape check and its elements. -/
theorem vecArith_of_tens {d : BitVec 5} {xs : List (BitVec 5)} {td : Tens} {ts : List Tens} {s : State} (h : vecTens s d xs = .ok (td, ts))
    (f : List Num → Num × Flags) : vecArith d xs f s = vecShape td ts >>= fun _ => vecMap td ts (fun s idx => do
      let vs ← ts.mapM fun x => srcVal s td x idx
      let (x, f1) := f vs
      let (c, f2) ← outCode s td 0 idx x
      .ok (c, f1 ||| f2)) s := by
  rw [vecArith, h, bind_ok]

theorem vecArith_error {d : BitVec 5} {xs : List (BitVec 5)} {td : Tens} {ts : List Tens} {s : State} {e : Exn}
    (h : vecTens s d xs = .ok (td, ts)) (hshape : vecShape td ts = .error e) (f : List Num → Num × Flags) : vecArith d xs f s = .error e := by
  rw [vecArith_of_tens h, hshape, bind_error]

/-- Settles O39: an arithmetic word writes the elements of Table 7-6 where its checks pass, and ends with the reason of the check
that fails. -/
theorem vectorArithmetic : Obligations.VectorArithmetic := by
  refine ⟨?_, ?_⟩
  · rintro i s td ts outs ⟨d, xs, hv, hr, htens, hshape, hreach⟩ houts hi nv cells hnv hcells hpoison hspec
    obtain ⟨f, hexec, hf⟩ := exec_elemExact s hv hi
    rw [← vecTens_length htens] at hf
    rw [hexec]
    refine slotOut_next hr ?_
    rw [vecArith_of_tens htens, hshape, bind_ok]
    refine vecMap_ok hreach ((congrArg (List.mapM · (allIdx td.ext)) (funext fun idx => ?_)).trans houts) hnv hcells hpoison hspec
    cases hvs : ts.mapM fun x => srcVal s td x idx with
    | error e => rfl
    | ok vs => simp only [bind_ok, hf vs (length_of_mapM_ok hvs)]
  · intro i s d xs fd fs hv hi hr htens
    obtain ⟨f, hexec, -⟩ := exec_elemExact s hv hi
    rw [hexec]
    exact ⟨fun hsize => slotOut_fault hr (vecArith_error htens (vecShape_of_size hsize fs) f),
      fun hsize hext => slotOut_opFault hr (vecArith_error htens (vecShape_of_ext hsize hext) f)⟩

end Sys2Proof.Machine
end

section
/-! SUPPORT. The state that refutes the frame of the ve slot: a vsum whose drain meets a residue mismatch, which the die counts (R50, R379,
R385). -/

namespace Sys2Proof.Machine

/-- A context whose descriptor table stands at address 0, in a page that its tasks may read. -/
def upsetContext : Context :=
  { recd := ⟨1, 7, 0, 0, 0, 0, 0, 0, 0x0400000000000000, 0, [], false⟩
    ranges := [(0, ⟨0, 4096, 0, true, true, false, false, false, false, 0, false⟩)], saves := [], aps := Vector.replicate 8 0, events := []
    masked := 0, images := [], pops := [], hranges := [], job := none, grant := none, bkpts := false, plans := [] }

/-- Descriptor 0, as memory lists it: one FP32 element at the first address of the scratchpad (Table 10-2). -/
def upsetMem : List Host.Cell := [(5, 0xFF), (6, 0x0F), (16, 1), (46, 4)]

/-- The handle of that tensor (Table 10-3). -/
def upsetHandle : BitVec 256 := BitVec.ofNat 256 (2 ^ 96 + 2 ^ 20)

/-- A task whose h0 names the tensor, with the residue of its next ve drain upset (log 80). -/
def upsetState : State :=
  { State.reset with
    mem := upsetMem
    mon := { State.reset.mon with ctxs := [(1, upsetContext)] }
    c := { Core.start with
      upsets := [3], info := { TaskInfo.none with running := true, ctx := 1 }
      r := { Regs.start with h := Regs.start.h.set 0 upsetHandle } } }

/-- The tensor that h0 names. -/
def upsetTens : Tens :=
  { d := ⟨0, 0xFFF * 2 ^ 40, 0, 0, 1, [1], [0, 0, 0], 0, [], 0⟩, ext := [1], org := [0], res := 0, acls := 0, view := 0, scale := none
    xform := 0, src := none, srcScale := none, perm := none }

theorem eq_ok_of_toOption {ε α : Type} {x : Except ε α} {a : α} (h : x.toOption = some a) : x = .ok a := by
  cases x with
  | error e => cases h
  | ok b => cases h; rfl

theorem useTens_upsetState : useTens upsetState 0 none = .ok upsetTens := eq_ok_of_toOption (by decide +kernel)

/-- The element lies in the scratchpad, whose bytes stand under no key. -/
theorem wordHomes_upsetTens : ∀ idx ∈ allIdx upsetTens.ext, ∀ hs,
    wordHomes upsetState .write (elemAt upsetTens.d (coords upsetTens idx)).1 = .ok hs → ∀ a ∈ hs, sameKey upsetState.keyed a = true := by
  intro idx hidx hs hhs a ha
  obtain rfl : idx = [0] := by simpa [allIdx, upsetTens] using hidx
  have hhomes : wordHomes upsetState .write (elemAt upsetTens.d (coords upsetTens [0])).1 =
      .ok [poolHome 0, poolHome 1, poolHome 2, poolHome 3] := eq_ok_of_toOption (by decide +kernel)
  obtain rfl := Except.ok.inj (hhomes.symm.trans hhs)
  revert a
  decide +kernel

/-- The vsum of the tensor into itself completes, and the mismatch that its drain meets is counted for the die. -/
theorem exec_vsum_upsetState : ∃ t, exec (.vsum ⟨0, 0⟩ 0 0) upsetState = .next t ∧ t.c.bun.stall = false ∧ t.c.bun.stopped = false
    ∧ t.c.lanes = upsetState.c.lanes ∧ t.health.resid = [(0, 1)] :=
  ⟨_, rfl, by decide +kernel, by decide +kernel, by decide +kernel, by decide +kernel⟩

/-- Refutes O42: where the drain of a vsum finds a residue mismatch, the health counter of residue mismatches of the core's die goes up,
and the statement leaves it out of what a ve word may change. -/
theorem not_vectorFrame : ¬ Obligations.VectorFrame := by
  intro h
  obtain ⟨t, hexec, hstall, hstopped, hlanes, hresid⟩ := exec_vsum_upsetState
  obtain ⟨hframe, -⟩ := h (.vsum ⟨0, 0⟩ 0 0) 0 [0] upsetState t upsetTens rfl (fun _ _ _ => nofun) (by decide +kernel)
    ⟨by decide, rfl, rfl, rfl⟩ rfl rfl rfl hexec hstall hstopped hlanes useTens_upsetState wordHomes_upsetTens
  rw [hframe] at hresid
  cases hresid

end Sys2Proof.Machine
end

section
/-! SUPPORT. The compares: the conditions of Table 5-4 in integers, and an operand that awaits a ranked atomic (R95, R105, R110). -/

namespace Sys2Proof.Machine

/-- The model's compares of words are those of Table 5-4 on integers. -/
theorem condWord_eq_condTable (cc : Nat) (x y : Word) : condWord cc x y = condTable cc x y := by
  match cc with
  | 1 => exact (decide_not (p := x = y)).symm
  | 0 | 2 | 3 | 4 | 5 | 6 | 7 | 8 | _ + 9 => rfl

theorem cmpOperand_of_none {s : State} {r : BitVec 6} (h : rankedOn s.c (.s r) = none) : cmpOperand s r = .inl (s.rdS r) := by
  rw [cmpOperand, h]

theorem cmpOperand_of_some {s : State} {r : BitVec 6} {x : Ranked} (h : rankedOn s.c (.s r) = some x) : cmpOperand s r = .inr x.cell := by
  rw [cmpOperand, h]

theorem compareOp_of_values (p : BitVec 4) (cc : Nat) (x y : Word) (s : State) :
    compareOp p cc (.inl x) (.inl y) s = writeP .sc p (condTable cc x y) 1 s := by
  rw [← condWord_eq_condTable]; rfl

/-- A compare with an operand that awaits a ranked atomic is recorded, outside an emulation sequence under its predicate's own number. -/
theorem compareOp_of_pending {p : BitVec 4} {cc : Nat} {a b : Sum Word (BitVec 7)} {s : State} (h : a.isRight || b.isRight)
    (hemu : s.c.emu = none) : compareOp p cc a b s =
      if p = 0 then s else s.onC fun c => { c with cmps := c.cmps ++ [⟨p.toNat, cc, a, b, c.bundles⟩] } := by
  have hrecord : compareOp p cc a b s = if p = 0 then s else s.onC fun c => { c with
      cmps := c.cmps ++ [⟨if c.emu.isSome ∧ 12 ≤ p.toNat then p.toNat + 4 else p.toNat, cc, a, b, c.bundles⟩] } := by
    match a, b, h with
    | .inr _, .inl _, _ => rfl
    | .inl _, .inr _, _ => rfl
    | .inr _, .inr _, _ => rfl
  rw [hrecord]
  unfold State.onC
  simp [hemu]

theorem exec_cmp {g : Guard} {p c : BitVec 4} {a b : BitVec 6} {s : State} (hr : ready .sc g (.cmp g p c a b) s = true) :
    exec (.cmp g p c a b) s = .next (compareOp p c.toNat (cmpOperand s a) (cmpOperand s b) s) := slotOut_next hr rfl

theorem exec_cmpi {g : Guard} {p : BitVec 4} {c : BitVec 3} {a : BitVec 6} {im : BitVec 7} {s : State}
    (hr : ready .sc g (.cmpi g p c a im) s = true) :
    exec (.cmpi g p c a im) s = .next (compareOp p c.toNat (cmpOperand s a) (.inl (BitVec.ofInt 64 im.toInt)) s) := slotOut_next hr rfl

/-- Settles O8: a compare of two values writes the condition, and one with a pending operand is recorded. -/
theorem compareResults : Obligations.CompareResults := by
  refine ⟨fun g p c a b s _ hr => ⟨fun ha hb => ?_, fun x y hx hy hpending hemu => ?_⟩,
    fun g p c a im s hr => ⟨fun ha => ?_, fun r ha hemu => ?_⟩, fun g p c a b s _ hr => slotOut_next hr rfl⟩
  · rw [exec_cmp hr, cmpOperand_of_none ha, cmpOperand_of_none hb, compareOp_of_values]
  · obtain rfl : x = cmpOperand s a := hx
    obtain rfl : y = cmpOperand s b := hy
    rw [exec_cmp hr, compareOp_of_pending hpending hemu]
  · rw [exec_cmpi hr, cmpOperand_of_none ha, compareOp_of_values]
  · rw [exec_cmpi hr, cmpOperand_of_some ha, compareOp_of_pending rfl hemu]

end Sys2Proof.Machine
end

section
/-! SUPPORT. Handles and staging registers: the bits of a handle's field, and the words that move them (R66, R108, R109). -/

namespace Sys2Proof.Machine

/-- The mask of a field has exactly the bits of the field. -/
theorem getLsbD_fieldMask {i : Nat} (lo w : Nat) (hi : i < 256) :
    (BitVec.ofNat 256 ((2 ^ w - 1) * 2 ^ lo)).getLsbD i = decide (lo ≤ i ∧ i < lo + w) := by
  rw [BitVec.getLsbD_ofNat, Nat.testBit_mul_two_pow, Nat.testBit_two_pow_sub_one, decide_eq_true hi, Bool.true_and, Bool.decide_and]
  by_cases h : lo ≤ i
  · congr 1
    exact decide_eq_decide.mpr (by omega)
  · simp [h]

/-- A field of a handle with the low bits of a word put in, and every other bit kept (R108). -/
theorem getLsbD_setField {i : Nat} (h : BitVec 256) (v : Word) (lo w : Nat) (hi : i < 256) :
    ((h &&& ~~~BitVec.ofNat 256 ((2 ^ w - 1) * 2 ^ lo)) ||| ((v.setWidth 256 <<< lo) &&& BitVec.ofNat 256 ((2 ^ w - 1) * 2 ^ lo))).getLsbD i
      = if lo ≤ i ∧ i < lo + w then v.getLsbD (i - lo) else h.getLsbD i := by
  rw [BitVec.getLsbD_or, BitVec.getLsbD_and, BitVec.getLsbD_and, BitVec.getLsbD_not, getLsbD_fieldMask lo w hi]
  by_cases hin : lo ≤ i ∧ i < lo + w
  · have hlo : ¬ i < lo := by omega
    simp [hin, hi, hlo]
  · simp [hin, hi]

theorem stgIdx_of_toNat {k : BitVec 5} {e : BitVec 2} {im : BitVec 3} (h : k.toNat = 8 * e.toNat + im.toNat) : stgIdx e im = k := by
  unfold stgIdx
  bv_omega

/-- Settles O10: each word's body writes the handle, the field or the staging register that R108 and R109 name. -/
theorem handleWords : Obligations.HandleWords := by
  refine ⟨fun g h rs s d hr hd => slotOut_next hr ?_, fun g h rs f s v lo w hr hf hv => slotOut_next hr ?_,
    fun g h rs f s lo w hr hf => slotOut_next hr ?_, fun g e im a s k hr hk => slotOut_next hr ?_⟩
  · simp only [hd, bind_ok]
  · have hbits : v = (s.rdH h &&& ~~~BitVec.ofNat 256 ((2 ^ w - 1) * 2 ^ lo))
        ||| (((s.rdS rs).setWidth 256 <<< lo) &&& BitVec.ofNat 256 ((2 ^ w - 1) * 2 ^ lo)) :=
      BitVec.eq_of_getLsbD_eq fun i hi => (hv i hi).trans (getLsbD_setField _ _ lo w hi).symm
    rw [hf, hbits]
  · rw [hf]
  · rw [stgIdx_of_toNat hk]

end Sys2Proof.Machine
end

section
/-! SUPPORT. How a word of the br slot ends that stands where it may not, and the completion of a bundle: time, loops, the row of the core
and the opening of a speculation (R19, R81 to R100, R315). -/

namespace Sys2Proof.Machine

/-- A word of the br slot whose body meets a fault without a tval raises it at slot 0 (R28). -/
theorem slotOut_brFault {g : Guard} {i : Instr} {s : State} {body : Body} {cause : Nat} (hr : ready .br g i s = true)
    (hb : body s = .error (.fault cause none)) (hc : [0x10, 0x11, 0x13, 0x14].contains cause = false) :
    slotOut .br g i s body = .next (raise 0 cause none s) := by
  rw [slotOut_fault hr hb, hc]; rfl

theorem notLast_eq (s : State) : notLast s = if standsLast s then .error (.fault 0x03 none) else .ok () := rfl

theorem inBody_iff (l : LoopEntry) (a : Word) : inBody l a = true ↔ l.first.toNat ≤ a.toNat ∧ a.toNat ≤ l.last.toNat := by
  simp [inBody]

/-- A taken branch ends the loops that it leaves, from the innermost on, until one is not left (R82). -/
theorem exitLoops_eq_dropWhile (a t : Word) (ls : List LoopEntry) :
    exitLoops a t ls = ls.dropWhile fun l => inBody l a && !inBody l t := by
  induction ls with
  | nil => rfl
  | cons l ls ih => rw [exitLoops, List.dropWhile_cons, ih]

theorem exitLoops_append {a t : Word} {pre rest : List LoopEntry} (hpre : ∀ l ∈ pre, (inBody l a && !inBody l t) = true)
    (hrest : ∀ l, rest.head? = some l → (inBody l a && !inBody l t) = false) : exitLoops a t (pre ++ rest) = rest := by
  rw [exitLoops_eq_dropWhile, List.dropWhile_append_of_pos hpre]
  cases rest with
  | nil => rfl
  | cons l rest => exact List.dropWhile_cons_of_neg (by simp [hrest l rfl])

/-- The loops that stand after the branch and the lbrk of the core's bundle, and the address that follows it (R81, R82, R87). -/
def loopsAndNext (c : Core) : List LoopEntry × Word :=
  let ls := if c.bun.taken && !c.trap.handler then exitLoops c.pc c.bun.next c.loops else c.loops
  match c.bun.lbrk, ls with
  | true, l :: r => (r, l.last + 32)
  | _, _ => (ls, c.bun.next)

theorem loopsAndNext_of_lbrk_false {c : Core} (h : c.bun.lbrk = false) : loopsAndNext c =
    (if c.bun.taken && !c.trap.handler then exitLoops c.pc c.bun.next c.loops else c.loops, c.bun.next) := by
  rw [loopsAndNext, h]

theorem loopsAndNext_of_lbrk {c : Core} {l : LoopEntry} {r : List LoopEntry} (h : c.bun.lbrk = true) (htaken : c.bun.taken = false)
    (hl : c.loops = l :: r) : loopsAndNext c = (r, l.last + 32) := by
  rw [loopsAndNext, h, htaken, hl]; rfl

/-- The core at the completion of a bundle that is no return, before its row, a speculation and an abort take their part (R19, R29,
R83 to R90, R315). -/
def completedCore (st : Nat) (c : Core) : Core :=
  { c with
    now := c.now + 1 + st, bundles := c.bundles + 1
    sinceSafe := if c.bun.safe then 0 else c.sinceSafe + 1 + st
    bun := { Bundle.idle with safe := c.bun.safe && c.preempt }, view := none, resume := none
    barRec := if c.barRec = some c.pc then none else c.barRec
    xendRec := none
    haltAsked := c.haltAsked || c.stepOnce, stepOnce := false, bkptSkip := false
    pc := (loopsAndNext c).2
    loops := match c.bun.push with | some e => e :: (loopsAndNext c).1 | none => (loopsAndNext c).1
    drain := (loopsAndNext c).1.any fun l => l.stop.isSome
    tripAt := if !c.trap.handler && !c.bun.lbrk && (loopsAndNext c).1.head?.any fun l => l.last == c.pc then some c.pc else none
    ended := c.ended || c.bun.ended }

/-- The machine at that completion, with the row of the core joined or released (R100, R237). -/
def completed (st : Nat) (s : State) : State :=
  s.onC fun _ => nextFused (rowEnded s fun _ => true) s.c.bun (completedCore st s.c)

theorem completeBundle_of_spec_none {s : State} (st : Nat) (hrett : s.c.bun.rett = false) (habort : s.c.bun.abort = false)
    (hspec : s.c.bun.spec = none) : completeBundle st s = completed st s := by
  simp only [completeBundle, hrett, habort, hspec, Bool.false_eq_true, if_false]
  rfl

theorem completeBundle_of_spec {s : State} {p : BitVec 4} {target : Word} (st : Nat) (hrett : s.c.bun.rett = false)
    (habort : s.c.bun.abort = false) (hspec : s.c.bun.spec = some (p, target)) :
    completeBundle st s = openSpec p target (s.rdP p) (completed st s) := by
  simp only [completeBundle, hrett, habort, hspec, Bool.false_eq_true, if_false]
  rfl

/-- The row of a core changes with a draw, and nothing else of the core does. -/
theorem nextFused_eq (gone : Nat) (b : Bundle) (c : Core) : ∃ n f, nextFused gone b c = { c with fresh := n, fused := f } := by
  simp only [nextFused]
  split
  · exact ⟨_, _, rfl⟩
  · exact ⟨c.fresh, c.fused, rfl⟩

/-- dcpl releases a fused row (R100). -/
theorem nextFused_of_dcpl {gone : Nat} {b : Bundle} {c : Core} (hfused : c.fused.fused = true) (hdcpl : b.dcpl = true)
    (hrejoin : b.rejoin = false) : (nextFused gone b c).fused.fused = false := by
  simp [nextFused, hfused, hdcpl, hrejoin]

/-- rjn joins a released row again unless another core of it differs (R100, log 16). -/
theorem nextFused_of_rejoin {gone : Nat} {b : Bundle} {c : Core} (hfused : c.fused.fused = false) (hrejoin : b.rejoin = true) :
    (nextFused gone b c).fused.fused = !Config.rowDiffers c.fresh := by
  simp [nextFused, hfused, hrejoin]

theorem nextFused_of_unfused {gone : Nat} {b : Bundle} {c : Core} (hfused : c.fused.fused = false) (hrejoin : b.rejoin = false) :
    nextFused gone b c = c := by
  simp [nextFused, hfused, hrejoin]

/-- The completion before a speculation opens: the core that completes, but for its row and the draws. -/
theorem completed_eq (st : Nat) (s : State) : ∃ n f, completed st s = s.onC fun c => { completedCore st c with fresh := n, fused := f } := by
  obtain ⟨n, f, h⟩ := nextFused_eq (rowEnded s fun _ => true) s.c.bun (completedCore st s.c)
  exact ⟨n, f, by rw [completed, h]; rfl⟩

/-- A spec on a predicate that awaits a ranked atomic takes a checkpoint (R95, R96). -/
theorem openSpec_of_pending {p : BitVec 4} {target : Word} {entry : Bool} {s : State} (h : predPending s.c p = true) :
    openSpec p target entry s = s.onC fun c => { c with
      spec := some ⟨p.toNat, none, 0, c.cmps, target, c.r, c.loops, [], c.inflight, c.bundles - 1⟩ } := if_pos h

/-- A spec on a predicate that has landed goes on or goes to its target, and opens nothing (R96, log 48). -/
theorem openSpec_of_landed {p : BitVec 4} {target : Word} {entry : Bool} {s : State} (h : predPending s.c p = false) :
    openSpec p target entry s = s.onC fun c => { c with pc := if entry then c.pc else target } := by
  rw [openSpec, h]
  cases entry <;> rfl

/-- A spec decides the speculation and the address that follows, and nothing else. -/
theorem openSpec_eq (p : BitVec 4) (target : Word) (entry : Bool) (s : State) :
    ∃ x a, openSpec p target entry s = s.onC fun c => { c with spec := x, pc := a } := by
  cases h : predPending s.c p with
  | true => exact ⟨_, s.c.pc, openSpec_of_pending h⟩
  | false => exact ⟨s.c.spec, _, openSpec_of_landed h⟩

/-- What each completion without a return and without an abort leaves: the core that completes, but for its row and the draws, the
speculation and the address that follows. -/
theorem completeBundle_eq {s : State} (st : Nat) (hrett : s.c.bun.rett = false) (habort : s.c.bun.abort = false) :
    ∃ n f x a, completeBundle st s = s.onC fun c => { completedCore st c with fresh := n, fused := f, spec := x, pc := a } := by
  obtain ⟨n, f, hcompleted⟩ := completed_eq st s
  cases hspec : s.c.bun.spec with
  | none => exact ⟨n, f, s.c.spec, (loopsAndNext s.c).2, by rw [completeBundle_of_spec_none st hrett habort hspec, hcompleted]; rfl⟩
  | some pt =>
    obtain ⟨x, a, hopen⟩ := openSpec_eq pt.1 pt.2 (s.rdP pt.1) (completed st s)
    exact ⟨n, f, x, a, by rw [completeBundle_of_spec st hrett habort hspec, hopen, hcompleted]; rfl⟩

/-- The row of the core at a completion is that of nextFused: a spec leaves it (R100). -/
theorem completeBundle_fused {s : State} (st : Nat) (hrett : s.c.bun.rett = false) (habort : s.c.bun.abort = false) :
    (completeBundle st s).c.fused = (nextFused (rowEnded s fun _ => true) s.c.bun (completedCore st s.c)).fused := by
  cases hspec : s.c.bun.spec with
  | none => rw [completeBundle_of_spec_none st hrett habort hspec]; rfl
  | some pt =>
    obtain ⟨x, a, hopen⟩ := openSpec_eq pt.1 pt.2 (s.rdP pt.1) (completed st s)
    rw [completeBundle_of_spec st hrett habort hspec, hopen]; rfl

theorem predPending_iff (c : Core) (p : BitVec 4) : predPending c p = true ↔ p ≠ 0 ∧ ∃ w ∈ c.cmps, w.pd = p.toNat := by
  simp [predPending]

end Sys2Proof.Machine
end

section
/-! SUPPORT. The branches (R81, R82, R84, R99, R354). -/

namespace Sys2Proof.Machine

/-- A word that takes a branch makes its target the next address, and may not stand last in an active body (R81, R84). -/
theorem slotOut_branch {g : Guard} {i : Instr} {s : State} {body : Body} {t : Word} (hr : ready .br g i s = true)
    (hb : body s = redirect true t s) :
    (standsLast s = false → slotOut .br g i s body = .next (onBun (fun b => { b with next := t, taken := true }) s))
    ∧ (standsLast s = true → slotOut .br g i s body = .next (raise 0 0x03 none s)) := by
  rw [redirect, notLast_eq] at hb
  exact ⟨fun h => slotOut_next hr (by rw [hb, h]; rfl), fun h => slotOut_brFault hr (by rw [hb, h]; rfl) rfl⟩

/-- call writes its link behind the redirection of fetch, and ends no loop (R81, R82). -/
theorem exec_call {g : Guard} {o : BitVec 20} {s : State} (hr : ready .br g (.call g o) s = true) :
    (standsLast s = false → exec (.call g o) s = .next (writeS .br 47 (s.c.pc + 32) 1
      (onBun (fun b => { b with next := s.c.pc + 32 * o.signExtend 64, taken := false }) s)))
    ∧ (standsLast s = true → exec (.call g o) s = .next (raise 0 0x03 none s)) := by
  refine ⟨fun h => slotOut_next hr ?_, fun h => slotOut_brFault hr ?_ rfl⟩ <;> rw [redirect, notLast_eq, h] <;> rfl

theorem emuBranch_of_target {e : Emu} {o : BitVec 20} {n : Nat} (s : State) (hn : (n : Int) = e.pos + o.toInt) (hlen : n ≤ e.len) :
    emuBranch e o s = .ok (onBun (fun b => { b with next := BitVec.ofNat 64 n, taken := true }) s) := by
  rw [emuBranch, ← hn, if_pos (by omega), Int.toNat_natCast]

theorem brS_of_unfused {s : State} (h : s.c.fused.fused = false) (a : BitVec 6) : s.brS a = s.rdS a := by rw [State.brS, h]

/-- Settles O16: the body of each branch is a redirection of fetch, and its completion drops the loops that it leaves. -/
theorem branchesRedirect : Obligations.BranchesRedirect := by
  refine ⟨fun g o s hr hemu => slotOut_branch hr (by rw [hemu]; rfl), fun g t a s hr => slotOut_branch hr rfl,
    fun g t a s hr => slotOut_branch hr rfl, fun g o s hr => exec_call hr,
    fun g o s e n hr hemu hn hlen => slotOut_next hr (by rw [hemu]; exact emuBranch_of_target s hn hlen),
    fun s a h => brS_of_unfused h a, ?_⟩
  rintro s u st pre rest left rfl hrett hlbrk hspec habort hpush hhandler hloops hleft
  have hleaves (l : LoopEntry) : (inBody l s.c.pc && !inBody l s.c.bun.next) = true ↔ left l := by
    rw [Bool.and_eq_true, Bool.not_eq_true', ← Bool.not_eq_true, inBody_iff, inBody_iff, hleft, and_assoc]
  obtain ⟨n, f, hcompleted⟩ := completed_eq st s
  rw [completeBundle_of_spec_none st hrett habort hspec, hcompleted]
  have hnext : (loopsAndNext s.c).2 = s.c.bun.next := by rw [loopsAndNext_of_lbrk_false hlbrk]
  have hstand : (completedCore st s.c).loops = if s.c.bun.taken then exitLoops s.c.pc s.c.bun.next s.c.loops else s.c.loops := by
    simp [completedCore, hpush, loopsAndNext_of_lbrk_false hlbrk, hhandler]
  refine ⟨hnext, fun htaken hpre hrest => hstand.trans ?_, fun htaken => hstand.trans (by simp [htaken])⟩
  rw [htaken, if_pos rfl, hloops]
  exact exitLoops_append (fun l hl => (hleaves l).mpr (hpre l hl)) fun l hl => by
    rw [← Bool.not_eq_true, hleaves]; exact hrest l hl

end Sys2Proof.Machine
end

section
/-! SUPPORT. The control words of the br slot, and what a halt for debug leaves (R35, R61, R87 to R100). -/

namespace Sys2Proof.Machine

theorem landOne_pc (c : Core) (d : Dst) (v : BitVec 256) : (landOne c d v).pc = c.pc := by
  cases d with
  | s cell => simp only [landOne]; split <;> rfl
  | sp code =>
    simp only [landOne]
    split
    · rfl
    · split
      · rfl
      · split <;> rfl
  | _ => rfl

theorem landList_pc (now : Nat) (l : List InFlight) (c : Core) : (landList now l c).pc = c.pc := by
  induction l generalizing c with
  | nil => rfl
  | cons e l ih =>
    rw [landList, ih]
    split
    · exact landOne_pc ..
    · rfl

/-- A halt for debug stands at the bundle that it halts (R35). -/
theorem haltNow_pc (c : Core) : (haltNow c).pc = c.pc := by
  have habort : (abortTxn 5 c).pc = c.pc := by unfold abortTxn; split <;> rfl
  exact (landList_pc ..).trans habort

section
variable {g : Guard} {t : BitVec 4} {s : State}

theorem exec_lbrk_marks (hr : ready .br g (.lbrk g t) s = true) (hhandler : s.c.trap.handler = false) (hloops : s.c.loops ≠ []) :
    exec (.lbrk g t) s = .next (onBun (fun b => { b with lbrk := true }) s) :=
  slotOut_next hr (if_neg (by simp [hhandler, hloops]))

theorem exec_lbrk_fault (hr : ready .br g (.lbrk g t) s = true) (h : s.c.trap.handler = true ∨ s.c.loops = []) :
    exec (.lbrk g t) s = .next (raise 0 0x03 none s) :=
  slotOut_brFault hr (if_pos (by simpa using h)) rfl

theorem exec_spec_nested {p : BitVec 4} {o : BitVec 16} (hr : ready .br g (.spec g p o) s = true)
    (h : s.c.trap.handler = true ∨ s.c.spec.isSome) : exec (.spec g p o) s = .next (raise 0 0xB0 none s) :=
  slotOut_brFault hr (if_pos h) rfl

section spec
variable {p : BitVec 4} {o : BitVec 16} (hr : ready .br g (.spec g p o) s = true) (hhandler : s.c.trap.handler = false)
  (hspec : s.c.spec = none)
include hr hhandler hspec

theorem exec_spec_fused (hfused : s.c.fused.fused = true) : exec (.spec g p o) s = .next (raise 0 0xB1 none s) :=
  slotOut_brFault hr (by simp [hhandler, hspec, hfused]) rfl

theorem exec_spec_unfused (hfused : s.c.fused.fused = false) :
    (standsLast s = true → exec (.spec g p o) s = .next (raise 0 0x03 none s))
    ∧ (standsLast s = false → exec (.spec g p o) s = .next
      (onBun (fun b => { b with spec := some (p, s.c.pc + 32 * o.signExtend 64) }) s)) := by
  refine ⟨fun h => slotOut_brFault hr ?_ rfl, fun h => slotOut_next hr ?_⟩ <;>
    simp only [hhandler, hspec, hfused, notLast_eq, h] <;> rfl

end spec

theorem exec_specx (hr : ready .br g (.specx g t) s = true) :
    (standsLast s = false →
      exec (.specx g t) s = .next (if s.c.spec.isSome then onBun (fun b => { b with abort := true }) s else s))
    ∧ (standsLast s = true → exec (.specx g t) s = .next (raise 0 0x03 none s)) := by
  refine ⟨fun h => slotOut_next hr ?_, fun h => slotOut_brFault hr ?_ rfl⟩ <;> rw [notLast_eq, h] <;> rfl

theorem exec_rjn_nop (hr : ready .br g (.rjn g t) s = true) (h : s.c.fused.ever = false ∨ s.c.fused.fused = true) :
    exec (.rjn g t) s = .next s :=
  slotOut_next hr (if_pos (by simpa using h))

/-- A released core joins again, but for a follower that the leader does not meet (R100, log 16). -/
theorem exec_rjn_released (hr : ready .br g (.rjn g t) s = true) (hever : s.c.fused.ever = true) (hfused : s.c.fused.fused = false) :
    exec (.rjn g t) s = .next
      (if s.c.fused.rank ≠ 0 ∧ (0 < rowEnded s (· == 0) ∨ Config.leaderEnded s.c.fresh = true
        ∨ Config.leaderWord s.c.fresh ≠ s.c.pc + 32) then raise 0 0x84 none s
       else onBun (fun b => { b with rejoin := true }) (s.onC fun c => { c with fresh := c.fresh + 1 })) := by
  split
  case isTrue h => exact slotOut_brFault hr (by simp only [hever, hfused]; exact if_pos h) rfl
  case isFalse h => exact slotOut_next hr (by simp only [hever, hfused]; exact if_neg h)

theorem exec_bkpt_nop {k : BitVec 16} (hr : ready .br g (.bkpt g t k) s = true)
    (h : (∀ c, s.ctx? = some c → c.bkpts = false) ∨ s.c.bkptSkip = true) :
    exec (.bkpt g t k) s = .next (s.onC fun c => { c with bkptSkip := false }) := by
  refine slotOut_next hr (if_neg ?_)
  cases hctx : s.ctx? with
  | none => simp
  | some c =>
    rcases h with hoff | hskip
    · simp [hoff c hctx]
    · simp [hskip]

theorem exec_bkpt_halts {k : BitVec 16} {c : Context} (hr : ready .br g (.bkpt g t k) s = true) (hctx : s.ctx? = some c)
    (hon : c.bkpts = true) (hskip : s.c.bkptSkip = false) (hspec : s.c.spec = none) (hwaits : waitsInFlight s.c = false) :
    exec (.bkpt g t k) s = .next (s.onC fun c =>
      { haltNow c with bkptTag := k, bkptSkip := true, bun := { (haltNow c).bun with stopped := true } }) := by
  refine slotOut_next hr ?_
  simp [hctx, hon, hskip, speculating, hspec, hwaits]

end

section
variable {s : State} (hrett : s.c.bun.rett = false) (habort : s.c.bun.abort = false)
include hrett habort

theorem completeBundle_lbrk (st : Nat) (hspec : s.c.bun.spec = none) (hlbrk : s.c.bun.lbrk = true) (htaken : s.c.bun.taken = false)
    (hpush : s.c.bun.push = none) {l : LoopEntry} {r : List LoopEntry} (hloops : s.c.loops = l :: r) :
    (completeBundle st s).c.loops = r ∧ (completeBundle st s).c.pc = l.last + 32 := by
  obtain ⟨n, f, hcompleted⟩ := completed_eq st s
  rw [completeBundle_of_spec_none st hrett habort hspec, hcompleted]
  simp [completedCore, hpush, loopsAndNext_of_lbrk hlbrk htaken hloops]

variable {p : BitVec 4} {target : Word} (hspec : s.c.bun.spec = some (p, target))
include hspec

theorem completeBundle_spec_pending (st : Nat) (hp : p ≠ 0 ∧ ∃ w ∈ s.c.cmps, w.pd = p.toNat) :
    (completeBundle st s).c.spec =
      some ⟨p.toNat, none, 0, s.c.cmps, target, s.c.r, (completeBundle st s).c.loops, [], s.c.inflight, s.c.bundles⟩
    ∧ (s.c.bun.lbrk = false → (completeBundle st s).c.pc = s.c.bun.next) := by
  obtain ⟨n, f, hcompleted⟩ := completed_eq st s
  have hpending : predPending (completed st s).c p = true := by
    rw [hcompleted]; exact (predPending_iff s.c p).mpr hp
  rw [completeBundle_of_spec st hrett habort hspec, openSpec_of_pending hpending, hcompleted]
  exact ⟨rfl, fun hlbrk => congrArg Prod.snd (loopsAndNext_of_lbrk_false hlbrk)⟩

theorem completeBundle_spec_landed (st : Nat) (hp : p = 0 ∨ ∀ w ∈ s.c.cmps, w.pd ≠ p.toNat) :
    (completeBundle st s).c.spec = s.c.spec
    ∧ (s.c.bun.lbrk = false → (completeBundle st s).c.pc = if s.rdP p then s.c.bun.next else target) := by
  obtain ⟨n, f, hcompleted⟩ := completed_eq st s
  have hlanded : predPending (completed st s).c p = false := by
    rw [hcompleted, ← Bool.not_eq_true]
    refine fun hpending => ?_
    obtain ⟨hne, w, hw, hpd⟩ := (predPending_iff s.c p).mp hpending
    exact hp.elim hne fun h => h w hw hpd
  rw [completeBundle_of_spec st hrett habort hspec, openSpec_of_landed hlanded, hcompleted]
  refine ⟨rfl, fun hlbrk => ?_⟩
  have hnext : (loopsAndNext s.c).2 = s.c.bun.next := congrArg Prod.snd (loopsAndNext_of_lbrk_false hlbrk)
  rw [← hnext]; rfl

end

/-- Settles O19: each word leaves its mark on the bundle or raises its cause, and the completion of the bundle acts on the marks. -/
theorem controlWords : Obligations.ControlWords := by
  refine ⟨fun g t s hr => slotOut_next hr rfl, fun k g s => rfl, fun g t s hr => ⟨exec_lbrk_marks hr, exec_lbrk_fault hr⟩,
    fun g t s hr => slotOut_next hr rfl, fun g t s hr => slotOut_next hr rfl,
    fun g p o s hr => ⟨exec_spec_nested hr, exec_spec_fused hr, exec_spec_unfused hr⟩, fun g t s hr => exec_specx hr,
    fun g t s hr => slotOut_next hr rfl, fun g t s hr => ⟨exec_rjn_nop hr, fun hever hfused hrank => ?_, fun hever hfused hrank => ?_⟩,
    fun g t k s hr => ⟨exec_bkpt_nop hr, fun c hctx hon hskip hspec hwaits => ?_⟩, ?_⟩
  · rw [exec_rjn_released hr hever hfused, if_neg (by simp [hrank])]
  · rw [exec_rjn_released hr hever hfused]; simp only [ne_eq, hrank, not_false_iff, true_and]
  · exact ⟨_, exec_bkpt_halts hr hctx hon hskip hspec hwaits, rfl, rfl, haltNow_pc s.c, rfl, rfl, rfl⟩
  · rintro s u st b rfl rfl hrett habort
    refine ⟨?_, fun hspec hlbrk htaken hpush l r => completeBundle_lbrk hrett habort st hspec hlbrk htaken hpush,
      fun hfused hdcpl hrejoin => ?_, fun hfused hrejoin => ?_, fun hfused hrejoin => ?_,
      fun p target hspec => ⟨completeBundle_spec_pending hrett habort hspec st, completeBundle_spec_landed hrett habort hspec st⟩⟩
    · obtain ⟨n, f, x, a, h⟩ := completeBundle_eq st hrett habort
      rw [h]
      exact ⟨rfl, rfl, rfl, rfl, rfl, rfl⟩
    · rw [completeBundle_fused st hrett habort]
      exact nextFused_of_dcpl hfused hdcpl hrejoin
    · rw [completeBundle_fused st hrett habort]
      exact nextFused_of_rejoin hfused hrejoin
    · rw [completeBundle_fused st hrett habort, nextFused_of_unfused (c := completedCore st s.c) hfused hrejoin]
      rfl

end Sys2Proof.Machine
end

section
/-! SUPPORT. The elementwise words of the ve slot that are not arithmetic: once its checks pass, each is one map over hd's indexes, and a
check of formats that fails is its fault (R135 to R139, R143). -/

namespace Sys2Proof.Machine

/-- A word whose checks end in an elementwise operation writes what that operation reads. -/
theorem writesElems_of_vecMap {g : Guard} {i : Instr} {s : State} {body : Body} {td : Tens} {ts : List Tens}
    {f : State → List Nat → Except TransFault (Nat × Flags)} {outs : List (Nat × Flags)} (hr : ready .ve g i s = true)
    (hexec : exec i s = slotOut .ve g i s body) (hbody : body s = vecMap td ts f s) (hreach : vecReach s td ts = .ok ())
    (houts : perIndex (allIdx td.ext) (f s) = .ok outs) : writesElems i s td ts (allIdx td.ext) outs := by
  intro nv cells hnv hcells hpoison hspec
  rw [hexec]
  exact slotOut_next hr (hbody.trans (vecMap_ok hreach houts hnv hcells hpoison hspec))

/-- Pairing each result with one value commutes with a map that may fail. -/
theorem mapM_pair {ε α β γ : Type} {f : α → Except ε β} {l : List α} {r : List β} (c : γ) (h : l.mapM f = .ok r) :
    l.mapM (fun x => f x >>= fun y => .ok (y, c)) = .ok (r.map fun y => (y, c)) := by
  induction l generalizing r with
  | nil => cases h; rfl
  | cons x l ih =>
    rw [List.mapM_cons] at h ⊢
    cases hx : f x with
    | error e => rw [hx, bind_error] at h; cases h
    | ok y =>
      rw [hx, bind_ok] at h
      cases hl : l.mapM f with
      | error e => rw [hl, bind_error] at h; cases h
      | ok ys => rw [hl, bind_ok] at h; cases h; rw [bind_ok, bind_ok, ih hl]; rfl

section
variable {g : Guard} {d a b : BitVec 5} {s : State} {i : Instr} {td ta tb : Tens} {outs : List (Nat × Flags)}

/-- The eight transcendental words share one meaning, taken at their function. -/
theorem exec_transWord {f : TransFn} (hi : (i, f) ∈ [(.vexp g d a, .exp), (.vexp2 g d a, .exp2), (.vlog2 g d a, .log2),
    (.vrcp g d a, .rcp), (.vrsq g d a, .rsq), (.vsqrt g d a, .sqrt), (.vtanh g d a, .tanh), (.vsigm g d a, .sigm)]) :
    exec i s = slotOut .ve g i s (vecTrans f d a) := by
  simp only [List.mem_cons, Prod.mk.injEq, List.not_mem_nil, or_false] at hi
  obtain ⟨rfl, rfl⟩ | ⟨rfl, rfl⟩ | ⟨rfl, rfl⟩ | ⟨rfl, rfl⟩ | ⟨rfl, rfl⟩ | ⟨rfl, rfl⟩ | ⟨rfl, rfl⟩ | ⟨rfl, rfl⟩ := hi
  all_goals rfl

theorem exec_bitsWord {f : Nat → Nat → Nat} (hi : (i, f) ∈ [(.vand g d a b, Nat.land), (.vor g d a b, Nat.lor), (.vxor g d a b, Nat.xor)]) :
    exec i s = slotOut .ve g i s (vecBits f d a b) := by
  simp only [List.mem_cons, Prod.mk.injEq, List.not_mem_nil, or_false] at hi
  obtain ⟨rfl, rfl⟩ | ⟨rfl, rfl⟩ | ⟨rfl, rfl⟩ := hi
  all_goals rfl

theorem exec_shiftWord {left : Bool} (hi : (i, left) ∈ [(.vshl g d a b, true), (.vshr g d a b, false)]) :
    exec i s = slotOut .ve g i s (vecShift left d a b) := by
  simp only [List.mem_cons, Prod.mk.injEq, List.not_mem_nil, or_false] at hi
  obtain ⟨rfl, rfl⟩ | ⟨rfl, rfl⟩ := hi
  all_goals rfl

theorem vecTens_single {use : Option Bool} (htd : wholeTensor s .write true d use = .ok td)
    (hta : wholeTensor s .read true a (some false) = .ok ta) : vecTens s d [a] use = .ok (td, [ta]) := by
  rw [vecTens, htd, bind_ok, List.mapM_cons, hta, bind_ok]; rfl

theorem vecTrans_checked (f : TransFn) (htd : wholeTensor s .write true d = .ok td)
    (hta : wholeTensor s .read true a (some false) = .ok ta) (hshape : vecShape td [ta] = .ok ()) (hfmt : td.d.fmt ≤ 1) :
    vecTrans f d a s = vecMap td [ta] (fun s idx => srcVal s td ta idx >>= fun v => .ok (trans f td.d.fmt v)) s := by
  rw [vecTrans, htd, bind_ok, hta, bind_ok, hshape, bind_ok, if_neg (Nat.not_lt.mpr hfmt)]

/-- The element that vcmp writes for a condition: by the values' column for a format up to 6, by the elements' column above (R137). -/
def cmpOut (td ta tb : Tens) (fa cc : Nat) (s : State) (idx : List Nat) : Except TransFault (Nat × Flags) := do
  let x ← srcVal s td ta idx
  let y ← srcVal s td tb idx
  let p ← srcCode s td ta idx
  let q ← srcCode s td tb idx
  outCode s td 0 idx (if (if fa ≤ 6 then condNum cc x y else condElem cc x y p q) then Num.one else Num.zero)

theorem execVcmp_writes {c : BitVec 4} {fa : Tens} {use : Option Bool} (hr : ready .ve g (.vcmp g d a b c) s = true)
    (htd : wholeTensor s .write true d (some false) = .ok td) (hfa : wholeTensor s .read true a = .ok fa)
    (huse : use = if decide (6 < fa.d.fmt) && [4, 5, 8, 9].contains c.toNat then none else some false)
    (hta : useTens s a use = .ok ta) (htb : wholeTensor s .read true b use = .ok tb) (hshape : vecShape td [ta, tb] = .ok ())
    (hcond : fa.d.fmt ≤ 6 → c.toNat < 8) (hreach : vecReach s td [ta, tb] = .ok ())
    (houts : perIndex (allIdx td.ext) (cmpOut td ta tb fa.d.fmt c.toNat s) = .ok outs) :
    writesElems (.vcmp g d a b c) s td [ta, tb] (allIdx td.ext) outs := by
  refine writesElems_of_vecMap hr rfl (f := cmpOut td ta tb fa.d.fmt c.toNat) ?_ hreach houts
  have hcolumn : ¬(fa.d.fmt ≤ 6 ∧ 8 ≤ c.toNat) := fun ⟨hf, hc⟩ => absurd (hcond hf) (Nat.not_lt.mpr hc)
  subst huse
  rw [htd, bind_ok, hfa, bind_ok]
  dsimp only
  rw [hta, bind_ok, htb, bind_ok, hshape, bind_ok, if_neg hcolumn]
  rfl

section
variable (htd : wholeTensor s .write true d = .ok td) (hta : wholeTensor s .read true a = .ok ta)
  (htb : wholeTensor s .read true b = .ok tb) (hshape : vecShape td [ta, tb] = .ok ())
include htd hta htb hshape

theorem vecBits_formats (f : Nat → Nat → Nat) (hfmt : ta.d.fmt ≠ tb.d.fmt ∨ ta.d.fmt ≠ td.d.fmt) :
    vecBits f d a b s = .error (opFault 7) := by
  rw [vecBits, htd, bind_ok, hta, bind_ok, htb, bind_ok, hshape, bind_ok, if_pos hfmt]

theorem vecBits_checked (f : Nat → Nat → Nat) (hab : ta.d.fmt = tb.d.fmt) (had : ta.d.fmt = td.d.fmt) :
    vecBits f d a b s = vecMap td [ta, tb] (fun s idx => do
      let x ← srcCode s td ta idx
      let y ← srcCode s td tb idx
      .ok (f x y, 0)) s := by
  rw [vecBits, htd, bind_ok, hta, bind_ok, htb, bind_ok, hshape, bind_ok,
    if_neg (not_or.mpr ⟨fun h => h hab, fun h => h had⟩)]

theorem vecShift_checked (left : Bool) (hlo : 7 ≤ tb.d.fmt) (hhi : tb.d.fmt ≤ 13) (had : ta.d.fmt = td.d.fmt) :
    vecShift left d a b s = vecMap td [ta, tb] (fun s idx => do
      let x ← srcCode s td ta idx
      let y ← srcCode s td tb idx
      let n := (intOfCode tb.d.fmt y % (fmtWidth ta.d.fmt : Int)).toNat
      .ok (if left then x * 2 ^ n % 2 ^ fmtWidth ta.d.fmt else shrCode ta.d.fmt x n, 0)) s := by
  have hindex : isIndexFmt tb.d.fmt = true := by rw [isIndexFmt, decide_eq_true hlo, decide_eq_true hhi]; rfl
  rw [vecShift, htd, bind_ok, hta, bind_ok, htb, bind_ok, hshape, bind_ok, if_neg (by rw [hindex]; decide), if_neg fun h => h had]

end

/-- A word whose checks end in a conversion writes each value's code under the mode (R135, R139). -/
theorem writesElems_of_vecConvert {mode : Nat} {body : Body} (hr : ready .ve g i s = true) (hreach : vecReach s td [ta] = .ok ())
    (houts : perIndex (allIdx td.ext) (fun idx => do
      let v ← srcVal s td ta idx
      outCode s td mode idx v) = .ok outs)
    (hexec : exec i s = slotOut .ve g i s body) (hbody : body s = vecConvert td ta mode s) :
    writesElems i s td [ta] (allIdx td.ext) outs :=
  writesElems_of_vecMap hr hexec hbody hreach houts

theorem execVdqnt_format (hr : ready .ve g (.vdqnt g d a) s = true) (htd : wholeTensor s .write true d = .ok td)
    (hta : wholeTensor s .read true a (some false) = .ok ta) (hshape : vecShape td [ta] = .ok ()) (hfmt : 2 < td.d.fmt) :
    exec (.vdqnt g d a) s = .next (raise 3 0x13 (some (execTval .ve s)) s) := by
  refine slotOut_fault hr (v := none) ?_
  rw [vecTens_single htd hta, bind_ok]
  simp only [hshape, bind_ok, if_pos hfmt]

section
variable {mode : Nat} (hr : ready .ve g i s = true) (hshape : vecShape td [ta] = .ok ()) (hreach : vecReach s td [ta] = .ok ())
  (houts : perIndex (allIdx td.ext) (fun idx => do
    let v ← srcVal s td ta idx
    outCode s td mode idx v) = .ok outs)
include hr hshape hreach houts

theorem execVcvt_writes {m : BitVec 2} (hi : i = .vcvt g d a m) (hmode : mode = m.toNat)
    (htd : wholeTensor s .write true d (some false) = .ok td) (hta : wholeTensor s .read true a (some false) = .ok ta) :
    writesElems i s td [ta] (allIdx td.ext) outs := by
  subst hi hmode
  refine writesElems_of_vecConvert hr hreach houts rfl ?_
  rw [htd, bind_ok, hta, bind_ok, hshape, bind_ok]

theorem execVdqnt_writes (hi : i = .vdqnt g d a) (hmode : mode = 0) (hfmt : td.d.fmt ≤ 2)
    (htd : wholeTensor s .write true d = .ok td) (hta : wholeTensor s .read true a (some false) = .ok ta) :
    writesElems i s td [ta] (allIdx td.ext) outs := by
  subst hi hmode
  refine writesElems_of_vecConvert hr hreach houts rfl ?_
  rw [vecTens_single htd hta, bind_ok]
  simp only [hshape, bind_ok, if_neg (Nat.not_lt.mpr hfmt)]

theorem execVcbk_writes (hi : i = .vcbk g d a) (hmode : mode = 0) (hfmt : td.d.fmt ≤ 2) (hlo : 16 ≤ ta.d.fmt) (hhi : ta.d.fmt ≤ 21)
    (htd : wholeTensor s .write true d = .ok td) (hta : wholeTensor s .read true a = .ok ta) :
    writesElems i s td [ta] (allIdx td.ext) outs := by
  subst hi hmode
  refine writesElems_of_vecConvert hr hreach houts rfl ?_
  rw [htd, bind_ok, hta, bind_ok, hshape, bind_ok, if_neg (by omega)]

theorem execVmov_converts {fd fa : Tens} (hi : i = .vmov g d a) (hmode : mode = 0) (hfd : wholeTensor s .write true d = .ok fd)
    (hfa : wholeTensor s .read true a = .ok fa) (hne : fd.d.fmt ≠ fa.d.fmt) (htd : useTens s d (some false) = .ok td)
    (hta : useTens s a (some false) = .ok ta) : writesElems i s td [ta] (allIdx td.ext) outs := by
  subst hi hmode
  refine writesElems_of_vecConvert hr hreach houts rfl ?_
  rw [hfd, bind_ok, hfa, bind_ok, if_neg hne, htd, bind_ok, hta, bind_ok, hshape, bind_ok]

end

theorem execVmov_copies {codes : List Nat} (hr : ready .ve g (.vmov g d a) s = true) (htd : wholeTensor s .write true d = .ok td)
    (hta : wholeTensor s .read true a = .ok ta) (hshape : vecShape td [ta] = .ok ()) (hfmt : td.d.fmt = ta.d.fmt)
    (hreach : vecReach s td [ta] = .ok ()) (hcodes : perIndex (allIdx td.ext) (srcCode s td ta) = .ok codes) :
    writesElems (.vmov g d a) s td [ta] (allIdx td.ext) (codes.map fun c => (c, 0)) := by
  refine writesElems_of_vecMap hr rfl (f := fun s idx => srcCode s td ta idx >>= fun x => .ok (x, 0)) ?_ hreach (mapM_pair 0 hcodes)
  rw [htd, bind_ok, hta, bind_ok, if_pos hfmt, hshape, bind_ok]

end

/-- Settles O40: where the checks of a word pass it is one map over hd's indexes, and codes of unlike formats in vand, vor and vxor and
a vdqnt to a format above 2 end with their fault. -/
theorem vectorElementWords : Obligations.VectorElementWords := by
  refine ⟨?functions, ?compare, ?bits, ?shifts, ?conversions, ?copies, ?refused⟩
  case functions =>
    intro g d a s i f td ta outs hi hr htd hta hshape hfmt hreach houts
    exact writesElems_of_vecMap hr (exec_transWord hi) (vecTrans_checked f htd hta hshape hfmt) hreach houts
  case compare =>
    rintro g d a b c s fa td ta tb raw outs hr htd hfa rfl hta htb hshape hcond hreach houts
    exact execVcmp_writes hr htd hfa rfl hta htb hshape hcond hreach houts
  case bits =>
    intro g d a b s i f td ta tb outs hi hr htd hta htb hshape
    refine ⟨fun hfmt => ?_, fun hab had hreach houts => ?_⟩
    · rw [exec_bitsWord hi]
      exact slotOut_opFault hr (vecBits_formats htd hta htb hshape f hfmt)
    · exact writesElems_of_vecMap hr (exec_bitsWord hi) (vecBits_checked htd hta htb hshape f hab had) hreach houts
  case shifts =>
    intro g d a b s i left td ta tb outs hi hr htd hta htb hshape hlo hhi had hreach houts
    exact writesElems_of_vecMap hr (exec_shiftWord hi) (vecShift_checked htd hta htb hshape left hlo hhi had) hreach houts
  case conversions =>
    intro g d a m s td ta outs i mode hr hword hshape hreach houts
    rcases hword with ⟨hi, hmode, htd, hta⟩ | ⟨hi, hmode, hfmt, htd, hta⟩ | ⟨hi, hmode, hfmt, hlo, hhi, htd, hta⟩
      | ⟨hi, hmode, fd, fa, hfd, hfa, hne, htd, hta⟩
    · exact execVcvt_writes hr hshape hreach houts hi hmode htd hta
    · exact execVdqnt_writes hr hshape hreach houts hi hmode hfmt htd hta
    · exact execVcbk_writes hr hshape hreach houts hi hmode hfmt hlo hhi htd hta
    · exact execVmov_converts hr hshape hreach houts hi hmode hfd hfa hne htd hta
  case copies =>
    intro g d a s fd fa codes hr hfd hfa hshape hfmt hreach hcodes
    exact execVmov_copies hr hfd hfa hshape hfmt hreach hcodes
  case refused =>
    intro g d a s fd fa hr hfd hfa hshape hfmt
    exact execVdqnt_format hr hfd hfa hshape hfmt

end Sys2Proof.Machine
end

section
/-! SUPPORT. The mx words at issue: the checks of R149 in their order and the queueing of what passes them (R145 to R149, R160 to R163). -/

namespace Sys2Proof.Machine

/-- What a slot word that no lane takes leaves, by how its body ended. -/
def issued (k : Slot) (i : Instr) (s : State) : Res State → State
  | .ok t => t
  | .error x => endSlot k i x s

theorem slotOut_issued {k : Slot} {g : Guard} {i : Instr} {s : State} (body : Body) (hk : laneIdx k = none) (h : ready k g i s = true) :
    slotOut k g i s body = .next (issued k i s (body s)) := by
  unfold slotOut
  rw [runSlot_of_ready body h, hk]
  cases body s with
  | ok t => rfl
  | error x => cases x <;> rfl

section
variable {g : Guard} {i : Instr} {s : State}

@[simp] theorem issued_ok (k : Slot) (t : State) : issued k i s (.ok t) = t := rfl
@[simp] theorem issued_stall (k : Slot) : issued k i s (.error .stall) = stalled s := rfl

/-- A cause that is none of Table 5-13 is raised with the tval that the check gives (R75). -/
theorem issued_fault {k : Slot} {cause : Nat} (v : Option Word) (h : ready k g i s = true)
    (hc : [0x10, 0x11, 0x13, 0x14].contains cause = false) : issued k i s (.error (.fault cause v)) = raise k.idx cause v s := by
  rw [issued, endSlot, held_of_ready h, hc, Bool.and_false]; rfl

theorem issued_opFault {k : Slot} (n : Nat) (h : ready k g i s = true) :
    issued k i s (.error (opFault n)) = raise k.idx 0x07 (some (BitVec.ofNat 64 (n * 2 ^ 32))) s := by
  rw [opFault, issued_fault _ h rfl, Nat.zero_mod, Nat.add_zero]

/-- A command enters its queue where an entry is free, and waits at issue where none is (R8, R163). -/
theorem enqueue_eq {k : Slot} {q : Cmd} (hq : q.slot = k.idx) (s : State) :
    enqueue k q s = if (queueOf k.idx s.c).length < 16 then .ok (queued q s) else .error .stall := by
  split
  · next h => exact enqueue_of_hasEntry h hq
  · next h => exact if_pos (Nat.not_lt.mp h)

theorem rankKnown_of_decided (h : s.c.mxq.any decides = false) : rankKnown s = .ok () := by rw [rankKnown, h]; rfl

/-- The checks of R149 in their order, and the queueing behind them. -/
theorem mxChecked_eq {md : BitVec 4} {srcs : List (BitVec 4)} {want : Option Bool} {result : List (Bool × Nat × Bool) → Bool × Nat}
    {fill : Cmd → Cmd} {r : List (Bool × Nat × Bool)} {dense : Bool} {k need avail : Nat} {tv : Word} {q : Cmd}
    (hr : r = srcs.map (predReg s.c)) (hres : (dense, k) = result r) (hneed : need = if dense then 8 else (k + 7) / 8)
    (havail : avail = freeGranules s + occOf (predReg s.c md).1 (predReg s.c md).2.1)
    (htv : tv = rankTval avail need md.toNat (if dense then 255 else k) (((r[0]?).map rankField).getD 0) (((r[1]?).map rankField).getD 0))
    (hq : q = fill { newCmd .mx i s with mres := some (md.toNat, dense, k) }) (hslot : q.slot = 4) :
    mxChecked i md srcs want result fill s =
      if s.c.mxq.any decides then .error .stall
      else if r.any (·.2.2) then .error (.fault 0x41 none)
      else if want = some false ∧ r.any (·.1) = true then .error (opFault 9)
      else if want = some true ∧ r.any (fun y => !y.1) = true then .error (opFault 10)
      else if dense = false ∧ 64 < k then .error (.fault 0x60 (some tv))
      else if avail < need then .error (.fault 0x61 (some tv))
      else if s.c.mxq.length < 16 then .ok (queued q s)
      else .error .stall := by
  have hfull : (!dense && decide (64 < k)) = true ↔ dense = false ∧ 64 < k := by simp
  have henq : enqueue .mx q s = if s.c.mxq.length < 16 then .ok (queued q s) else .error .stall := enqueue_eq hslot s
  rw [mxChecked, rankKnown]
  split
  · rfl
  rw [bind_ok]
  simp only [← hr, ← hres, hfull, ← hq, henq]
  subst hneed havail htv
  rfl

end

/-- The nine checked words that touch no memory are one check at their destination, sources and result (R149). -/
theorem exec_checkedWord {g : Guard} {d a b : BitVec 4} {rs : BitVec 6} {cap : BitVec 7} {s : State} {i : Instr} {md : BitVec 4}
    {srcs : List (BitVec 4)} {x : Word} {want : Option Bool} {result : List (Bool × Nat) → Bool × Nat}
    (h : (i, md, srcs, x, want, result) ∈
      [(.mzr g d, d, [], 0, none, fun _ => (false, 0)), (.mcpy g d a, d, [a], 0, none, fun r => r.headD (false, 0)),
       (.mtrn g d a, d, [a], 0, none, fun r => r.headD (false, 0)),
       (.mscl g d rs, d, [d], s.rdS rs, none, fun r => r.headD (false, 0)), (.mdns g d a, d, [a], 0, none, fun _ => (true, 0)),
       (.madd g d a b, d, [a, b], 0, none, fun r => if r.any (·.1) then (true, 0) else (false, (r.map (·.2)).sum)),
       (.mmul g d a b, d, [a, b], s.src.mtol, none, fun r => if r.any (·.1) then (true, 0)
         else (false, (r.map (·.2)).foldl min 64)),
       (.mrcmp g d a, d, [a], s.src.mtol, some false, fun r => (false, (r.map (·.2)).headD 0)),
       (.mfac g d a cap, d, [a], s.src.mtol, some true, fun _ => (false, cap.toNat))]) :
    ∃ (body : Body) (result' : List (Bool × Nat × Bool) → Bool × Nat) (fill : Cmd → Cmd), exec i s = slotOut .mx g i s body
      ∧ body s = mxChecked i md srcs want result' fill s
      ∧ result' (srcs.map (predReg s.c)) = result ((srcs.map (predReg s.c)).map fun y => (y.1, y.2.1))
      ∧ ∀ mres, fill { newCmd .mx i s with mres := mres } = { newCmd .mx i s with x := x, mres := mres } := by
  simp only [List.mem_cons, Prod.mk.injEq, List.not_mem_nil, or_false] at h
  obtain ⟨rfl, rfl, rfl, rfl, rfl, rfl⟩ | ⟨rfl, rfl, rfl, rfl, rfl, rfl⟩ | ⟨rfl, rfl, rfl, rfl, rfl, rfl⟩
    | ⟨rfl, rfl, rfl, rfl, rfl, rfl⟩ | ⟨rfl, rfl, rfl, rfl, rfl, rfl⟩ | ⟨rfl, rfl, rfl, rfl, rfl, rfl⟩
    | ⟨rfl, rfl, rfl, rfl, rfl, rfl⟩ | ⟨rfl, rfl, rfl, rfl, rfl, rfl⟩ | ⟨rfl, rfl, rfl, rfl, rfl, rfl⟩ := h
  all_goals exact ⟨_, _, _, rfl, rfl, by simp [sameAs, maddResult, mmulResult], fun _ => rfl⟩

/-- Settles O43: a checked word is one run of the checks of R149, and each way that they end is what the slot leaves. -/
theorem matrixIssue : Obligations.MatrixIssue := by
  intro g d a b rs cap s i md srcs x want result r dense k need avail tv hword hready hr hres hneed havail htv
  obtain ⟨body, result', fill, hexec, hbody, hresult, hfill⟩ := exec_checkedWord hword
  rw [hexec, slotOut_issued body rfl hready, hbody,
    mxChecked_eq hr (by rw [hres, hr, hresult]) hneed havail htv (hfill _).symm rfl]
  simp only [apply_ite (issued .mx i s), issued_ok, issued_stall, issued_opFault _ hready]
  rw [issued_fault _ hready rfl, issued_fault _ hready rfl, issued_fault _ hready rfl]
  rfl

end Sys2Proof.Machine
end

section
/-! SUPPORT. mld, mst, mapl, mrnk and mocc at issue: where each check that fails ends the word, and what is queued (R148, R149, R152, R160,
R161). -/

namespace Sys2Proof.Machine

section
variable {g : Guard} {m : BitVec 4} {h : BitVec 5} {s : State} {t : Tens}

section mld
variable {hh rest hdr : List Nat} {dense : Bool} {k : Nat} (hr : ready .mx g (.mld g m h) s = true) (hdec : s.c.mxq.any decides = false)
  (ht : imageTens .read h s = .ok t) (h64 : 64 ≤ ext0 t) (hreads : engReads s t false (span 0 64) = .ok hh) (hhold : engHold s hh = .ok ())
  (hhdr : mapRead (codeAt s t) (span 0 64) = .ok hdr) (hdk : (dense, k) = ((hdr[0]?).getD 0 == 1, (hdr[1]?).getD 0))
include hr hdec ht h64 hreads hhold hhdr hdk

/-- mld whose header is reached: the header is looked at, then the rest of its image, and then come the checks of R149. -/
theorem execMld_header : execMld g m h s = .next (issued .mx (.mld g m h) s (
    if hh.any (emptyAt s) || headerWaits s hh then .error .stall
    else if hh.any (poisoned s) then .error (.fault 0x41 none)
    else if badHeader hdr then .error (opFault 11)
    else if ext0 t < imageSize dense k then .error (opFault 12)
    else do
      let rest ← engReads s t false (span 64 (imageSize dense k))
      engHold s rest
      mxChecked (.mld g m h) m [] none (fun _ => (dense, k))
        (fun q => { q with ts := [t], image := some (dense, k), hd := s.rdH h }) s)) := by
  obtain ⟨rfl, rfl⟩ := Prod.mk.inj hdk
  rw [execMld, slotOut_issued _ rfl hr, rankKnown_of_decided hdec, bind_ok, ht, bind_ok]
  dsimp only
  rw [← ext0, if_neg (Nat.not_lt.mpr h64), hreads, bind_ok, hhold, bind_ok, hhdr, bind_ok]

theorem execMld_waits (hwait : hh.any (emptyAt s) = true ∨ headerWaits s hh = true) : execMld g m h s = .next (stalled s) := by
  rw [execMld_header hr hdec ht h64 hreads hhold hhdr hdk, if_pos (Bool.or_eq_true_iff.mpr hwait), issued_stall]

variable (hfull : hh.any (emptyAt s) = false) (hfree : headerWaits s hh = false)
include hfull hfree

theorem execMld_poisoned (hp : hh.any (poisoned s) = true) : execMld g m h s = .next (raise 4 0x41 none s) := by
  rw [execMld_header hr hdec ht h64 hreads hhold hhdr hdk, hfull, hfree, if_neg (by decide), if_pos hp, issued_fault _ hr rfl]; rfl

variable (hp : hh.any (poisoned s) = false)
include hp

theorem execMld_malformed (hbad : badHeader hdr = true) :
    execMld g m h s = .next (raise 4 0x07 (some (BitVec.ofNat 64 (11 * 2 ^ 32))) s) := by
  rw [execMld_header hr hdec ht h64 hreads hhold hhdr hdk, hfull, hfree, hp, if_neg (by decide), if_neg (by decide), if_pos hbad,
    issued_opFault _ hr]; rfl

variable (hgood : badHeader hdr = false)
include hgood

theorem execMld_short (hlen : ext0 t < imageSize dense k) :
    execMld g m h s = .next (raise 4 0x07 (some (BitVec.ofNat 64 (12 * 2 ^ 32))) s) := by
  rw [execMld_header hr hdec ht h64 hreads hhold hhdr hdk, hfull, hfree, hp, hgood, if_neg (by decide), if_neg (by decide), if_neg (by decide),
    if_pos hlen, issued_opFault _ hr]; rfl

theorem execMld_queues (he : hasEntry .mx s) (hlen : imageSize dense k ≤ ext0 t)
    (hrest : engReads s t false (span 64 (imageSize dense k)) = .ok rest) (hrestHold : engHold s rest = .ok ())
    (hroom : occOf dense k ≤ freeGranules s + occOf (predReg s.c m).1 (predReg s.c m).2.1) :
    execMld g m h s = .next (queued { newCmd .mx (.mld g m h) s with
      mres := some (m.toNat, dense, k), ts := [t], image := some (dense, k), hd := s.rdH h } s) := by
  have hrank : k ≤ 64 := by
    simp only [badHeader, Bool.or_eq_false_iff, decide_eq_false_iff_not] at hgood
    obtain ⟨⟨⟨-, hk⟩, -⟩, -⟩ := hgood
    rw [(Prod.mk.inj hdk).2]; omega
  rw [execMld_header hr hdec ht h64 hreads hhold hhdr hdk, hfull, hfree, hp, hgood, if_neg (by decide), if_neg (by decide), if_neg (by decide),
    if_neg (Nat.not_lt.mpr hlen), hrest, bind_ok, hrestHold, bind_ok, mxChecked_eq rfl rfl rfl rfl rfl rfl rfl, hdec]
  have hroom' : ¬ freeGranules s + occOf (predReg s.c m).1 (predReg s.c m).2.1 < if dense then 8 else (k + 7) / 8 := Nat.not_lt.mpr hroom
  have he' : s.c.mxq.length < 16 := he
  simp [hroom', he', Nat.not_lt.mpr hrank]
end mld

section mst
variable {ws : List Nat} {r : Bool × Nat × Bool} (hr : ready .mx g (.mst g m h) s = true) (hdec : s.c.mxq.any decides = false)
  (ht : imageTens .write h s = .ok t) (hpred : r = predReg s.c m)
include hr hdec ht hpred

theorem execMst_short (hlen : ext0 t < imageSize r.1 r.2.1) :
    execMst g m h s = .next (raise 4 0x07 (some (BitVec.ofNat 64 (12 * 2 ^ 32))) s) := by
  refine slotOut_opFault hr ?_
  rw [rankKnown_of_decided hdec, bind_ok, ht, bind_ok, ← hpred]
  exact if_pos hlen

theorem execMst_reached (he : hasEntry .mx s) (hlen : imageSize r.1 r.2.1 ≤ ext0 t)
    (hws : engWrites s t (span 0 (imageSize r.1 r.2.1)) = .ok ws) (hhold : engHold s ws = .ok ()) :
    execMst g m h s = .next (if r.2.2 then raise 4 0x41 none s
      else queued { newCmd .mx (.mst g m h) s with
        ts := [t], image := some (r.1, r.2.1), hd := s.rdH h, cnt := tilesOf ws, wids := [t.d.id] } s) := by
  rw [execMst, slotOut_issued _ rfl hr, rankKnown_of_decided hdec, bind_ok, ht, bind_ok, ← hpred]
  dsimp only
  rw [← ext0, if_neg (Nat.not_lt.mpr hlen), hws, bind_ok, hhold, bind_ok, apply_ite (issued .mx (.mst g m h) s), issued_fault _ hr rfl,
    enqueue_of_hasEntry he rfl]
  rfl
end mst

section mapl
variable {d a : BitVec 5} {td ta : Tens} {ws rs : List Nat} {r : Bool × Nat × Bool} (hr : ready .mx g (.mapl g d a m) s = true)
  (hta : useTens s a (some false) = .ok ta) (htd : useTens s d none = .ok td)
include hr hta htd

theorem execMapl_shape (hbad : ta.ext.length ≠ 2 ∨ ta.ext[1]? ≠ some 128 ∨ td.ext ≠ ta.ext ∨ 2 < td.d.fmt) :
    execMapl g d a m s = .next (raise 4 0x07 (some (BitVec.ofNat 64 (12 * 2 ^ 32))) s) := by
  refine slotOut_opFault hr ?_
  have hcols : ta.ext[1]? ≠ some 128 → (ta.ext[1]?).getD 0 ≠ 128 := by cases ta.ext[1]? <;> simp
  rw [hta, bind_ok, htd, bind_ok, if_pos (hbad.imp_right (·.imp_left hcols))]

theorem execMapl_reached (he : hasEntry .mx s) (hpred : r = predReg s.c m) (hnd : ta.ext.length = 2) (hcols : ta.ext[1]? = some 128)
    (hext : td.ext = ta.ext) (hfmt : td.d.fmt ≤ 2) (hra : rowsReach s .read false ta (wholeRows ta) = .ok ())
    (hrd : rowsReach s .write false td (wholeRows td) = .ok ()) (hws : engWrites s td (allIdx td.ext) = .ok ws)
    (hrs : engReads s ta false (allIdx ta.ext) = .ok rs) (hhold : engHold s (ws ++ rs) = .ok ()) :
    execMapl g d a m s = .next (if r.2.2 then raise 4 0x41 none s
      else if r.1 then raise 4 0x07 (some (BitVec.ofNat 64 (9 * 2 ^ 32))) s
      else queued { newCmd .mx (.mapl g d a m) s with
        ts := [td, ta], hd := s.rdH d, cnt := tilesOf ws, wids := [td.d.id] } s) := by
  have hshape : ¬(ta.ext.length ≠ 2 ∨ (ta.ext[1]?).getD 0 ≠ 128 ∨ td.ext ≠ ta.ext ∨ 2 < td.d.fmt) := by
    rw [hcols, hext]; simp [hnd, hfmt]
  rw [execMapl, slotOut_issued _ rfl hr, hta, bind_ok, htd, bind_ok, if_neg hshape, hra, bind_ok, hrd, bind_ok, hws, bind_ok, hrs, bind_ok,
    hhold, bind_ok, ← hpred]
  simp only [apply_ite (issued .mx (.mapl g d a m) s), issued_opFault _ hr]
  rw [issued_fault _ hr rfl, enqueue_of_hasEntry he rfl]
  rfl
end mapl

theorem hasEntry_undoS (k : Slot) (rs : BitVec 6) (he : hasEntry k s) : hasEntry k (undoS rs s) := by
  have hq : queueOf k.idx (undoS rs s).c = queueOf k.idx s.c := by unfold undoS; split <;> simp [queueOf]
  rwa [hasEntry, hq]

/-- mrnk and mocc look at no register at issue (R149, R152). -/
theorem mxScalar_queues {i : Instr} {rs : BitVec 6} (he : hasEntry .mx s) :
    mxScalar i rs s = .ok (queued { newCmd .mx i s with cell := destCell s rs } (undoS rs s)) :=
  enqueue_of_hasEntry (hasEntry_undoS .mx rs he) rfl

end

/-- Settles O44: a check of a matrix memory word that fails is its fault, and where all pass its command is queued. -/
theorem matrixMemoryIssue : Obligations.MatrixMemoryIssue := by
  refine ⟨?mld, ?mst, ?mapl, ?image, ?scalar⟩
  case mld =>
    intro g m h s t hh rest hdr dense k hr he hdec ht h64 hreads hhold hhdr hdk
    exact ⟨execMld_waits hr hdec ht h64 hreads hhold hhdr hdk, execMld_poisoned hr hdec ht h64 hreads hhold hhdr hdk,
      execMld_malformed hr hdec ht h64 hreads hhold hhdr hdk, execMld_short hr hdec ht h64 hreads hhold hhdr hdk,
      fun hfull hfree hp hgood => execMld_queues hr hdec ht h64 hreads hhold hhdr hdk hfull hfree hp hgood he⟩
  case mst =>
    intro g m h s t ws r hr he hdec ht hpred
    exact ⟨execMst_short hr hdec ht hpred, execMst_reached hr hdec ht hpred he⟩
  case mapl =>
    intro g d a m s td ta ws rs r hr he hta htd hpred
    exact ⟨execMapl_shape hr hta htd, execMapl_reached hr hta htd he hpred⟩
  case image =>
    rintro h s t k va ht rfl
    rw [imageTens, ht, bind_ok]
  case scalar =>
    intro g m rs s i hi hr he
    simp only [List.mem_cons, List.not_mem_nil, or_false] at hi
    obtain rfl | rfl := hi
    all_goals exact slotOut_next hr (mxScalar_queues he)

end Sys2Proof.Machine
end

section
/-! SUPPORT. The image of a matrix register: behind its header it is the little-endian bytes of a list of 16-bit codes (R160, Table 8-5), and
the register is read back from them. -/

namespace Sys2Proof.Machine

/-- The two bytes of a code, and the code at a byte of an image. -/
def codeBytes (c : BitVec 16) : List Nat := [c.toNat % 256, c.toNat / 256]
def codeFrom (bs : List Nat) (o : Nat) : BitVec 16 := BitVec.ofNat 16 ((bs[o]?).getD 0 + 256 * (bs[o + 1]?).getD 0)

/-- The two codes of a scalar s of a factor form, the low one first. -/
def scaleCodes (c : BitVec 32) : List (BitVec 16) := [c.setWidth 16, (c >>> 16).setWidth 16]

/-- The codes of an image behind its header: the array, or the scalars in 256 bytes and the columns of U and V. -/
def imageCodes (x : MReg) : List (BitVec 16) :=
  if x.dense then x.arr.flatten
  else x.s.flatMap scaleCodes ++ List.replicate (128 - 2 * x.s.length) 0 ++ (x.u.flatten ++ x.v.flatten)

def imageHeader (x : MReg) : List Nat := (if x.dense then [1, 0] else [0, x.s.length]) ++ List.replicate 62 0

theorem length_imageHeader (x : MReg) : (imageHeader x).length = 64 := by
  unfold imageHeader; split <;> simp

theorem length_flatMap_pairs {α β : Type} {f : α → List β} (h : ∀ a, (f a).length = 2) (l : List α) : (l.flatMap f).length = 2 * l.length := by
  induction l with
  | nil => rfl
  | cons a l ih => rw [List.flatMap_cons, List.length_append, ih, h, List.length_cons, Nat.mul_add, Nat.add_comm]

theorem length_flatMap_codeBytes (l : List (BitVec 16)) : (l.flatMap codeBytes).length = 2 * l.length :=
  length_flatMap_pairs (fun _ => rfl) l

theorem length_flatMap_scaleCodes (l : List (BitVec 32)) : (l.flatMap scaleCodes).length = 2 * l.length :=
  length_flatMap_pairs (fun _ => rfl) l

theorem length_flatten_columns {l : List (List (BitVec 16))} (h : ∀ c ∈ l, c.length = 128) : l.flatten.length = 128 * l.length := by
  rw [List.length_flatten, List.map_eq_replicate_iff.mpr h]
  simp [Nat.mul_comm]

theorem codeFrom_flatMap (l : List (BitVec 16)) (n : Nat) : codeFrom (l.flatMap codeBytes) (2 * n) = (l[n]?).getD 0 := by
  induction l generalizing n with
  | nil => rfl
  | cons c l ih =>
    cases n with
    | zero => simp [codeFrom, codeBytes, Nat.mod_add_div]
    | succ n => exact ih n

/-- The little-endian bytes of a scalar are those of its two codes. -/
theorem natLe_eq_scaleCodes (c : BitVec 32) : (natLe 4 c.toNat).map BitVec.toNat = (scaleCodes c).flatMap codeBytes := by
  have hc := c.isLt
  simp only [natLe, scaleCodes, codeBytes, List.map_cons, List.map_nil, List.flatMap_cons, List.flatMap_nil, List.cons_append, List.nil_append,
    BitVec.toNat_ofNat, BitVec.toNat_setWidth, BitVec.toNat_ushiftRight, Nat.shiftRight_eq_div_pow, List.append_nil, List.cons.injEq, and_true]
  omega

theorem flatten_flatMap_codeBytes (l : List (List (BitVec 16))) : l.flatten.flatMap codeBytes = l.flatMap (·.flatMap codeBytes) := by
  rw [← List.flatMap_id, List.flatMap_assoc]; rfl

theorem replicate_flatMap_codeBytes (n : Nat) : (List.replicate n (0 : BitVec 16)).flatMap codeBytes = List.replicate (2 * n) 0 := by
  rw [List.flatMap_replicate, show codeBytes 0 = List.replicate 2 0 from rfl, List.flatten_replicate_replicate, Nat.mul_comm]

theorem imageBytes_eq (x : MReg) : imageBytes x = imageHeader x ++ (imageCodes x).flatMap codeBytes := by
  cases hd : x.dense with
  | true =>
    have hcodes : imageCodes x = x.arr.flatten := by rw [imageCodes, hd]; rfl
    rw [hcodes, flatten_flatMap_codeBytes, imageBytes, imageHeader, hd]; rfl
  | false =>
    have hcodes : imageCodes x = x.s.flatMap scaleCodes ++ List.replicate (128 - 2 * x.s.length) 0 ++ (x.u.flatten ++ x.v.flatten) := by
      rw [imageCodes, hd]; rfl
    have hpad : 2 * (128 - 2 * x.s.length) = 256 - 4 * x.s.length := by omega
    have hscale : (fun c => (scaleCodes c).flatMap codeBytes) = fun c => (natLe 4 c.toNat).map BitVec.toNat :=
      funext fun c => (natLe_eq_scaleCodes c).symm
    rw [hcodes, List.flatMap_append, List.flatMap_append, List.flatMap_append, List.flatMap_assoc, hscale, replicate_flatMap_codeBytes, hpad,
      flatten_flatMap_codeBytes, flatten_flatMap_codeBytes, imageBytes, imageHeader, hd, ← List.append_assoc, ← List.append_assoc,
      ← List.append_assoc]
    rfl

/-- n columns of 128 codes that stand in a row from a byte of an image on. -/
def columnsFrom (bs : List Nat) (o n : Nat) : List (List (BitVec 16)) :=
  (List.range n).map fun j => (List.range 128).map fun i => codeFrom bs (o + 256 * j + 2 * i)

theorem imageReg_dense (k : Nat) (bs : List Nat) : imageReg true k bs = ⟨true, [], [], [], columnsFrom bs 0 128, false⟩ := by
  simp only [imageReg, columnsFrom, codeFrom, if_true, Nat.zero_add]

theorem imageReg_factor (k : Nat) (bs : List Nat) : imageReg false k bs =
    ⟨false, (List.range k).map fun i => (codeFrom bs (4 * i + 2)).append (codeFrom bs (4 * i)), columnsFrom bs 256 k,
      columnsFrom bs (256 + 256 * k) k, [], false⟩ := by
  simp only [imageReg, columnsFrom, codeFrom, Bool.false_eq_true, if_false, Nat.mul_add, Nat.add_assoc]

/-- Codes of columns stand in the columns' order, 128 to each. -/
theorem getElem?_flatten_columns {l : List (List (BitVec 16))} (h : ∀ c ∈ l, c.length = 128) {i j : Nat} (hi : i < l.length)
    (hj : j < 128) : l.flatten[128 * i + j]? = l[i][j]? := by
  induction l generalizing i with
  | nil => cases hi
  | cons c l ih =>
    have hc : c.length = 128 := h c (.head _)
    rw [List.flatten_cons]
    cases i with
    | zero => rw [Nat.mul_zero, Nat.zero_add]; exact List.getElem?_append_left (by omega)
    | succ i =>
      rw [List.getElem?_append_right (by omega), show 128 * (i + 1) + j - c.length = 128 * i + j by omega]
      exact ih (fun c hc => h c (.tail _ hc)) (Nat.lt_of_succ_lt_succ hi)

/-- Columns that were stored among other codes are read back. -/
theorem columnsFrom_stored {l : List (List (BitVec 16))} (h : ∀ c ∈ l, c.length = 128) (before after : List (BitVec 16)) {o : Nat}
    (ho : o = 2 * before.length) : columnsFrom ((before ++ l.flatten ++ after).flatMap codeBytes) o l.length = l := by
  have hlen := length_flatten_columns h
  refine List.ext_getElem (by simp [columnsFrom]) fun j _ hj => ?_
  have hc : l[j].length = 128 := h _ (List.getElem_mem hj)
  refine List.ext_getElem (by simp [columnsFrom, hc]) fun i _ hi => ?_
  have hat : o + 256 * j + 2 * i = 2 * (before.length + (128 * j + i)) := by omega
  have hcode : (before ++ l.flatten ++ after)[before.length + (128 * j + i)]? = some l[j][i] := by
    rw [List.append_assoc, List.getElem?_append_right (Nat.le_add_right ..), Nat.add_sub_cancel_left, List.getElem?_append_left (by omega),
      getElem?_flatten_columns h hj (by omega), List.getElem?_eq_getElem hi]
  simp only [columnsFrom, List.getElem_map, List.getElem_range]
  rw [hat, codeFrom_flatMap, hcode, Option.getD_some]

/-- A scalar is its two codes put together. -/
theorem append_scaleCodes (c : BitVec 32) : ((c >>> 16).setWidth 16).append (c.setWidth 16) = c := by
  change (c >>> 16).setWidth 16 ++ c.setWidth 16 = c
  refine BitVec.eq_of_toNat_eq ?_
  have hc := c.isLt
  simp only [BitVec.toNat_append, BitVec.toNat_setWidth, BitVec.toNat_ushiftRight, Nat.shiftRight_eq_div_pow]
  rw [← Nat.shiftLeft_add_eq_or_of_lt (Nat.mod_lt _ (by decide)), Nat.shiftLeft_eq]
  omega

theorem getElem?_flatMap_scaleCodes (l : List (BitVec 32)) {i : Nat} (hi : i < l.length) :
    (l.flatMap scaleCodes)[2 * i]? = some (l[i].setWidth 16) ∧ (l.flatMap scaleCodes)[2 * i + 1]? = some ((l[i] >>> 16).setWidth 16) := by
  induction l generalizing i with
  | nil => cases hi
  | cons c l ih =>
    cases i with
    | zero => exact ⟨rfl, rfl⟩
    | succ i => exact ih (Nat.lt_of_succ_lt_succ hi)

/-- Scalars at the head of the stored codes are read back. -/
theorem scales_stored (l : List (BitVec 32)) (after : List (BitVec 16)) :
    ((List.range l.length).map fun i => (codeFrom ((l.flatMap scaleCodes ++ after).flatMap codeBytes) (4 * i + 2)).append
      (codeFrom ((l.flatMap scaleCodes ++ after).flatMap codeBytes) (4 * i))) = l := by
  refine List.ext_getElem (by simp) fun i _ hi => ?_
  obtain ⟨hlow, hhigh⟩ := getElem?_flatMap_scaleCodes l hi
  have hin : 2 * i + 1 < (l.flatMap scaleCodes).length := by rw [length_flatMap_scaleCodes]; omega
  simp only [List.getElem_map, List.getElem_range]
  rw [show 4 * i + 2 = 2 * (2 * i + 1) by omega, show 4 * i = 2 * (2 * i) by omega, codeFrom_flatMap, codeFrom_flatMap,
    List.getElem?_append_left hin, List.getElem?_append_left (Nat.lt_of_succ_lt hin), hlow, hhigh]
  exact append_scaleCodes l[i]

/-- A register as R144 has it: an array of 128 rows, or scalars with as many columns of U and V, at most 64. -/
structure MReg.Shaped (x : MReg) : Prop where
  dense (h : x.dense = true) : x.s = [] ∧ x.u = [] ∧ x.v = [] ∧ x.arr.length = 128
  factor (h : x.dense = false) : x.arr = [] ∧ x.s.length ≤ 64 ∧ x.u.length = x.s.length ∧ x.v.length = x.s.length
  columns : ∀ c ∈ x.arr ++ x.u ++ x.v, c.length = 128

theorem MReg.Shaped.length_image {x : MReg} (h : x.Shaped) : (imageBytes x).length = imageSize x.dense x.s.length := by
  obtain ⟨hdense, hfactor, hcols⟩ := h
  simp only [List.forall_mem_append] at hcols
  obtain ⟨⟨harr, hu⟩, hv⟩ := hcols
  rw [imageBytes_eq, List.length_append, length_imageHeader, length_flatMap_codeBytes]
  cases hd : x.dense with
  | true =>
    obtain ⟨-, -, -, hrows⟩ := hdense hd
    simp [imageCodes, imageSize, hd, length_flatten_columns harr, hrows]
  | false =>
    obtain ⟨-, hk, hlu, hlv⟩ := hfactor hd
    simp only [imageCodes, imageSize, hd, Bool.false_eq_true, if_false, List.length_append, length_flatMap_scaleCodes, List.length_replicate,
      length_flatten_columns hu, length_flatten_columns hv, hlu, hlv]
    omega

/-- An image that is stored and loaded is the same register. -/
theorem MReg.Shaped.load_store {x : MReg} (h : x.Shaped) (hclean : x.poison = false) :
    imageReg x.dense x.s.length ((imageBytes x).drop 64) = x := by
  obtain ⟨hdense, hfactor, hcols⟩ := h
  simp only [List.forall_mem_append] at hcols
  obtain ⟨⟨harr, hu⟩, hv⟩ := hcols
  rw [imageBytes_eq, ← length_imageHeader x, List.drop_left]
  obtain ⟨dense, s, u, v, arr, poison⟩ := x
  subst hclean
  cases dense with
  | true =>
    obtain ⟨rfl, rfl, rfl, hrows⟩ := hdense rfl
    have hload := columnsFrom_stored harr [] [] rfl
    rw [List.nil_append, List.append_nil, hrows] at hload
    rw [imageReg_dense]
    exact congrArg (MReg.mk true [] [] [] · false) hload
  | false =>
    obtain ⟨rfl, hk, hlu, hlv⟩ := hfactor rfl
    dsimp only at hk hlu hlv
    have hpad : (s.flatMap scaleCodes ++ List.replicate (128 - 2 * s.length) (0 : BitVec 16)).length = 128 := by
      rw [List.length_append, length_flatMap_scaleCodes, List.length_replicate]; omega
    have hloadS := scales_stored s (List.replicate (128 - 2 * s.length) 0 ++ (u.flatten ++ v.flatten))
    have hloadU := columnsFrom_stored hu (s.flatMap scaleCodes ++ List.replicate (128 - 2 * s.length) 0) v.flatten (o := 256)
      (by rw [hpad])
    have hloadV := columnsFrom_stored hv (s.flatMap scaleCodes ++ List.replicate (128 - 2 * s.length) 0 ++ u.flatten) []
      (o := 256 + 256 * s.length) (by rw [List.length_append, hpad, length_flatten_columns hu, hlu]; omega)
    rw [List.append_nil] at hloadV
    rw [hlu] at hloadU
    rw [hlv] at hloadV
    have hcodes : imageCodes ⟨false, s, u, v, [], false⟩
      = s.flatMap scaleCodes ++ List.replicate (128 - 2 * s.length) 0 ++ (u.flatten ++ v.flatten) := rfl
    rw [imageReg_factor, hcodes]
    simp only [List.append_assoc] at hloadS hloadU hloadV ⊢
    rw [hloadS, hloadU, hloadV]

end Sys2Proof.Machine
end

section
/-! SUPPORT. The commands of the mx queue as they execute: registers, marks of poison, scalar answers, images and rows (R152 to R162). -/

namespace Sys2Proof.Machine

@[simp] theorem setQueue_spec (k : Nat) (l : List Cmd) (c : Core) : (setQueue k l c).spec = c.spec := by unfold setQueue; split <;> rfl

@[simp] theorem popCmd_spec (q : Cmd) (s : State) : (popCmd q s).c.spec = s.c.spec := by
  obtain ⟨v, w, h⟩ := popCmd_eq q s
  rw [h]; exact setQueue_spec ..

@[simp] theorem orFlags_spec (k : Nat) (a : Word) (fl : Flags) (s : State) : (orFlags k a fl s).c.spec = s.c.spec := by
  obtain ⟨v, h⟩ := orFlags_eq k a fl s
  rw [h]; rfl

@[simp] theorem setM_spec (m : Nat) (x : MReg) (s : State) : (setM m x s).c.spec = s.c.spec := by
  unfold setM; rw [State.onC_c]; split <;> rfl

theorem orFlags_zero (k : Nat) (a : Word) (s : State) : orFlags k a 0 s = s := rfl

theorem setM_toNat (m : BitVec 4) (x : MReg) (s : State) : setM m.toNat x s = s.onC fun c => { c with m := c.m.set m.toNat x m.isLt } := by
  simp only [setM, dif_pos m.isLt]

/-- Flags that enter the record of the mx slot leave the other records, and no flags leave all of them (R375). -/
theorem orFlags_record (a : Word) (fl : Flags) (s : State) : ∃ v, orFlags 4 a fl s = s.onC (fun c => { c with srec := v })
    ∧ (∀ k : Nat, k ≠ 4 → v[k]? = s.c.srec[k]?) ∧ (fl = 0 → v = s.c.srec) := by
  unfold orFlags
  split
  · exact ⟨s.c.srec, rfl, fun _ _ => rfl, fun _ => rfl⟩
  · next hfl =>
    refine ⟨_, rfl, fun k hk => ?_, fun h => absurd h hfl⟩
    exact Vector.getElem?_set_ne _ (Ne.symm hk)

/-- What leaving the mx queue changes where no flags of cp are held back. -/
theorem popCmd_mx {q : Cmd} {s : State} (hq : q.slot = 4) (hf : s.c.cpFlags = []) : popCmd q s = s.onC fun c =>
    { c with mxq := c.mxq.filter fun x => x.no != q.no, counts := countDown q.cnt c.counts } := by
  unfold popCmd
  rw [hq]
  change flushFlags s.c.cpFlags _ = _
  rw [hf, flushFlags]
  simp only [State.onC, queueOf, setQueue, hf]

section
variable {q : Cmd} {s : State} {env : EngineEnv}

theorem unheld_of_spec_none (h : s.c.spec = none) : unheld s = s := by
  unfold unheld State.onC; rw [← h]

theorem slot_of_headOf {k : Slot} (h : headOf k q s) : q.slot = k.idx := h.1

theorem spec_of_headOf {k : Slot} (h : headOf k q s) : s.c.spec = none := by
  obtain ⟨-, -, hspec, -⟩ := h; exact hspec

theorem laneHolds_of_headOf {k : Slot} (h : headOf k q s) : laneHolds s q = false := by
  obtain ⟨-, -, -, hlane, -⟩ := h; exact hlane

/-- A command at the head of the mx queue leaves what its run gives. -/
theorem execMx_of_head {t : State} (h : headOf .mx q s) (hrun : mxRun env q s = .ok t) : exec (.mxCommandExecute env) s = .next t := by
  obtain ⟨-, hfailing, -, hlane, hbehind, hhead⟩ := h
  have hq : s.c.mxq.head? = some q := hhead
  change execMxCommandExecute env s = _
  rw [execMxCommandExecute, hq]
  simp only [runCmd, hfailing, hlane, hbehind, hrun]
  rfl

theorem engFlags_mx (hq : q.slot = 4) (fl : Flags) (s : State) : engFlags q fl s = orFlags 4 q.addr fl s := by
  rw [engFlags, hq]; rfl

/-- The speculation of state s, put back once a command has read and written past it (R97). -/
def keepSpec (s t : State) : State := t.onC fun c => { c with spec := s.c.spec }

theorem map_keepSpec {t : State} (hspec : s.c.spec = none) (ht : t.c.spec = none) :
    (Except.ok t : EngRes State).map (keepSpec s) = .ok t := by
  refine congrArg Except.ok ?_
  rw [keepSpec, hspec, ← ht]; rfl

/-- Where no lane operation holds a command up, no earlier afac of its destination waits (R132). -/
theorem mxWrite_eq (hlane : laneHolds s q = false) {md : BitVec 4} (hmd : mxDst q.i = some md) (err : Bool) (srcs : List (BitVec 4))
    (r : MReg × Flags) : mxWrite q err md srcs r s =
      if err || srcs.any fun m => (s.mreg m).poison then
        match q.mres with
        | some (_, dense, k) => finishReg q md (poisonedReg dense k, 0) (countPoison (0, s.me / 64 % 4) s)
        | none => finishReg q md r (countPoison (0, s.me / 64 % 4) s)
      else finishReg q md r s := by
  refine if_neg fun h => ?_
  obtain ⟨x, hx, hafac⟩ := List.any_eq_true.mp h
  have hholds : laneHolds s q = true := by
    refine List.any_eq_true.mpr ⟨x, hx, ?_⟩
    split at hafac
    · next hi =>
      simp only [Bool.and_eq_true, beq_iff_eq] at hafac
      obtain ⟨rfl, hno⟩ := hafac
      simp [hno, hi, hmd]
    · cases hafac
  rw [hlane] at hholds; cases hholds

theorem finishReg_eq (hq : q.slot = 4) (md : BitVec 4) (r : MReg × Flags) (s : State) :
    finishReg q md r s = .ok (popCmd q (orFlags 4 q.addr r.2 (setM md.toNat r.1 s))) := by
  rw [finishReg, engFlags_mx hq]

section register
variable {md : BitVec 4} {srcs : List (BitVec 4)} {r : MReg × Flags} (h : headOf .mx q s) (hmd : mxDst q.i = some md)
  (hrun : mxRun env q s = (mxWrite q false md srcs r s).map (keepSpec s))
include h hmd hrun

/-- A register command writes its destination whole (R152). -/
theorem registerCommand_writes (hclean : ∀ m ∈ srcs, (s.mreg m).poison = false) :
    exec (.mxCommandExecute env) s = .next (popCmd q (orFlags 4 q.addr r.2 (setM md.toNat r.1 s))) := by
  have hspec := spec_of_headOf h
  have hany : (srcs.any fun m => (s.mreg m).poison) = false := List.any_eq_false.mpr fun m hm => by simp [hclean m hm]
  refine execMx_of_head h ?_
  rw [hrun, mxWrite_eq (laneHolds_of_headOf h) hmd, hany, Bool.or_false, if_neg (by decide), finishReg_eq (slot_of_headOf h)]
  exact map_keepSpec hspec (by simp [hspec])

/-- A register command with a poisoned source marks its destination (R162; the count by log 51). -/
theorem registerCommand_marks {dense : Bool} {k : Nat} (hpoison : ∃ m ∈ srcs, (s.mreg m).poison = true)
    (hres : q.mres = some (md.toNat, dense, k)) : exec (.mxCommandExecute env) s =
      .next (popCmd q (setM md.toNat (poisonedReg dense k) (countPoison (0, s.me / 64 % 4) s))) := by
  have hspec := spec_of_headOf h
  refine execMx_of_head h ?_
  rw [hrun, mxWrite_eq (laneHolds_of_headOf h) hmd, List.any_eq_true.mpr hpoison, Bool.or_true, if_pos rfl, hres]
  dsimp only
  rw [finishReg_eq (slot_of_headOf h), orFlags_zero]
  exact map_keepSpec hspec (by rw [popCmd_spec, setM_spec]; exact hspec)

end register

/-- An operand that may be read now is reached, and holds no poison (R210). -/
theorem engReady_ok {t : Tens} {run0 : Bool} {idxs : List (List Nat)} (h : engReady q s t run0 idxs = .ok ()) :
    engReach q s t run0 idxs = .ok () ∧ firstPoison s t run0 idxs = none := by
  unfold engReady at h
  cases hreach : engReach q s t run0 idxs with
  | error e => rw [hreach] at h; cases h
  | ok u =>
    rw [hreach, bind_ok] at h
    cases hp : firstPoison s t run0 idxs with
    | none => exact ⟨rfl, rfl⟩
    | some i => rw [hp] at h; cases h

theorem mxRun_mld {g : Guard} {m : BitVec 4} {h : BitVec 5} {t : Tens} {dense : Bool} {k : Nat} {bs : List Nat} (hspec : s.c.spec = none)
    (hi : q.i = .mld g m h) (hts : q.ts = [t]) (himage : q.image = some (dense, k))
    (hready : engReady q s t false (span 64 (imageSize dense k)) = .ok ())
    (hbs : (span 64 (imageSize dense k)).mapM (codeAt s t) = .ok bs) : mxRun env q s =
      (mxWrite q env.error m [] (imageReg dense k bs, 0) s).map (keepSpec s) := by
  obtain ⟨hreach, hpoison⟩ := engReady_ok hready
  rw [mxRun, hi, hts, himage]
  dsimp only
  rw [unheld_of_spec_none hspec, hreach, bind_ok, hbs, engGet, bind_ok, hpoison, Option.isSome_none, Bool.or_false]
  rfl

/-- mrnk and mocc land their answer, whatever a speculation holds (R152). -/
theorem mxRun_scalar {g : Guard} {m : BitVec 4} {rs : BitVec 6} {v : Nat} {x : MReg} (hx : x = s.c.m[m.toNat]'m.isLt)
    (h : (q.i = .mrnk g m rs ∧ v = if x.dense then 128 else x.s.length)
      ∨ (q.i = .mocc g m rs ∧ v = if x.dense then 8 else (x.s.length + 7) / 8)) :
    mxRun env q s = .ok (popCmd q (landCell q (BitVec.ofNat 64 v) s)) := by
  subst hx
  obtain ⟨hi, rfl⟩ | ⟨hi, rfl⟩ := h
  all_goals
    rw [mxRun, hi]; rfl

/-- Steps that leave the core leave it together. -/
theorem foldl_c {α : Type} {f : State → α → State} (h : ∀ s a, (f s a).c = s.c) (l : List α) (s : State) : (l.foldl f s).c = s.c := by
  induction l generalizing s with
  | nil => rfl
  | cons a l ih => rw [List.foldl_cons, ih, h]

theorem poisonHomes_c (hs : List Nat) (s : State) : (poisonHomes hs s).c = s.c :=
  foldl_c (fun s b => by split <;> rfl) ..

section store
variable {t : Tens} {l : List (List Nat × Nat)} {hs : List Nat} (hspec : s.c.spec = none)
  (hhomes : homesOf (fun i => elemHomes s .write t.d (coords t i)) (l.map (·.1)) = .ok hs)
include hspec hhomes

/-- A store from a poisoned register, or with an error, poisons the blocks of its destination (R162; log 51). -/
theorem mxStore_poisons (fl : Flags) : (mxStore q true t l fl s).map (keepSpec s)
    = .ok (popCmd q (poisonHomes hs s)) := by
  rw [mxStore, hhomes, engGet, bind_ok, if_pos rfl]
  exact map_keepSpec hspec (by rw [popCmd_spec, poisonHomes_c, hspec])

theorem mxStore_lands (hq : q.slot = 4) {cells : List Host.Cell} (hcells : regionCells s t l = .ok cells)
    (hpartial : partialPoison s cells = false) (fl : Flags) :
    (mxStore q false t l fl s).map (keepSpec s) = .ok (landed q cells fl s) := by
  rw [mxStore, hhomes, engGet, bind_ok, if_neg (by decide), hcells, engGet, bind_ok, engWrite, hpartial, if_neg (by decide), bind_ok]
  exact map_keepSpec hspec (by rw [popCmd_spec, engFlags_mx hq, orFlags_spec]; exact hspec)

end store

theorem mxRun_mst {g : Guard} {m : BitVec 4} {h : BitVec 5} {t : Tens} {x : MReg} (hspec : s.c.spec = none) (hi : q.i = .mst g m h)
    (hts : q.ts = [t]) (hx : x = s.c.m[m.toNat]'m.isLt) : mxRun env q s = (mxStore q (env.error || x.poison) t
      ((if x.poison then List.replicate (imageSize x.dense x.s.length) 0 else imageBytes x).zipIdx.map fun b => ([b.2], b.1)) 0 s).map
        (keepSpec s) := by
  subst hx
  rw [mxRun, hi, hts]
  dsimp only
  rw [unheld_of_spec_none hspec]; rfl

/-- Rows that can be read are what an engine reads, each through a function of the row. -/
theorem mapM_engGet {α β γ : Type} {f : α → Except TransFault β} {l : List α} {rows : List β} (h : l.mapM f = .ok rows) (w : β → γ) :
    l.mapM (fun a => engGet (f a) >>= fun row => .ok (w row)) = .ok (rows.map w) := by
  induction l generalizing rows with
  | nil => cases h; rfl
  | cons a l ih =>
    rw [List.mapM_cons] at h ⊢
    cases ha : f a with
    | error e => rw [ha] at h; cases h
    | ok row =>
      cases hl : l.mapM f with
      | error e => rw [ha, hl] at h; cases h
      | ok rest => rw [ha, hl] at h; cases h; rw [engGet, bind_ok, bind_ok, ih hl]; rfl

theorem mxRun_mapl {g : Guard} {d a : BitVec 5} {m : BitVec 4} {td ta : Tens} {x : MReg} {a1 a2 : Int} {rows : List (List (Num × Num))}
    {outs : List (Nat × Flags)} (hspec : s.c.spec = none) (hi : q.i = .mapl g d a m) (hts : q.ts = [td, ta])
    (hx : x = s.c.m[m.toNat]'m.isLt) (hready : engReady q s ta false (allIdx ta.ext) = .ok ())
    (ha1 : a1 = ((q.stgAt 0).setWidth 10).toInt) (ha2 : a2 = ((q.stgAt 0 >>> 16).setWidth 10).toInt)
    (hrows : (List.range (ext0 ta)).mapM (fun r => (List.range 128).mapM fun k => do
      let code ← codeAt s ta [r, k]
      let sc ← scaleAt s ta.d ta.scale false (coords ta [r, k])
      .ok (valOfCode ta code, sc)) = .ok rows)
    (houts : outs = rows.flatMap (maplRow a1 a2 td.d.fmt x)) : mxRun .quiet q s =
      (mxStore q x.poison td ((allIdx td.ext).zip (outs.map (·.1))) (outs.foldl (fun f o => f ||| o.2) 0) s).map (keepSpec s) := by
  subst hx ha1 ha2 houts
  obtain ⟨hreach, hpoison⟩ := engReady_ok hready
  rw [mxRun, hi, hts]
  dsimp only
  rw [unheld_of_spec_none hspec, hreach, bind_ok, ← ext0, mapM_engGet hrows, bind_ok, hpoison, Option.isSome_none, Bool.or_false,
    ← List.flatMap_def]
  rfl

end

/-- An element of a dense result is its value rounded to BF16 (R155). -/
theorem denseFrom_elem (f : Nat → Nat → Num × Flags) {i j : Nat} (hi : i < 128) (hj : j < 128) :
    (denseFrom f).1.elem i j = decodeNum 1 [] ((rndNum 1 [] 0 (f i j).1).1 % 2 ^ 16) := by
  simp [denseFrom, MReg.elem, hi, hj]

theorem mtrnOf_elem {a : MReg} (hd : a.dense = true) (hrows : a.arr.length = 128) (hcols : ∀ r ∈ a.arr, r.length = 128) {i j : Nat}
    (hi : i < 128) (hj : j < 128) : (mtrnOf a).elem i j = a.elem j i := by
  have hj' : j < a.arr.length := by omega
  have hcol : i < a.arr[j].length := by rw [hcols _ (List.getElem_mem hj')]; exact hi
  simp [mtrnOf, MReg.elem, hd, hi, hj', hcol]

/-- Settles O45: each command's run at the head of the queue is one write of a register, a cell, an image or rows, and a command with
poison marks where it would have written. -/
theorem matrixExecute : Obligations.MatrixExecute := by
  refine ⟨?registers, ?frame, ?scalars, ?stores, ?applies, fun f i j hi hj => ⟨rfl, denseFrom_elem f hi hj⟩,
    fun a i j hd hrows hcols hi hj => mtrnOf_elem hd hrows hcols hi hj, ?images⟩
  case registers =>
    rintro g d a b rs cap h s env q md srcs x r rfl hhead henv hword
    have hspec := spec_of_headOf hhead
    have hcmd : mxDst q.i = some md ∧ mxRun env q s = (mxWrite q false md srcs r s).map (keepSpec s) := by
      rcases hword with ⟨hi, rfl, rfl, rfl⟩ | ⟨hi, rfl, rfl, rfl⟩ | ⟨hi, rfl, rfl, rfl⟩ | ⟨hi, rfl, rfl, rfl⟩ | ⟨hi, rfl, rfl, rfl⟩
        | ⟨hi, rfl, rfl, rfl⟩ | ⟨hi, rfl, rfl, rfl⟩ | ⟨hi, rfl, rfl, rfl⟩ | ⟨hi, rfl, rfl, rfl⟩
        | ⟨t, dense, k, bs, hi, rfl, rfl, hts, himage, hready, hbs, rfl⟩
      rotate_left 9
      · exact ⟨by rw [hi]; rfl, by rw [mxRun_mld hspec hi hts himage hready hbs, henv]⟩
      all_goals exact ⟨by rw [hi]; rfl, by rewrite [mxRun, hi, unheld_of_spec_none hspec, henv]; rfl⟩
    obtain ⟨hmd, hrun⟩ := hcmd
    exact ⟨registerCommand_writes hhead hmd hrun, fun dense k => registerCommand_marks hhead hmd hrun⟩
  case frame =>
    intro q m x fl s hq hf
    obtain ⟨v, hflags, hothers, hnone⟩ := orFlags_record q.addr fl (setM m.toNat x s)
    rw [setM_toNat] at hflags hothers hnone
    refine ⟨_, rfl, ?_⟩
    rw [setM_toNat, hflags, popCmd_mx hq (by exact hf)]
    exact ⟨rfl, rfl, hothers, hnone, rfl, rfl⟩
  case scalars =>
    intro g m rs s env q v x hhead hx hword
    exact execMx_of_head hhead (mxRun_scalar hx hword)
  case stores =>
    rintro g m h s env q t x hs l cells hhead hi hts hx rfl hhomes
    have hspec := spec_of_headOf hhead
    have hrun := mxRun_mst (env := env) hspec hi hts hx
    refine ⟨fun hbad => execMx_of_head hhead ?_, fun hclean herr hcells hpartial => execMx_of_head hhead ?_⟩
    · rw [hrun, Bool.or_eq_true_iff.mpr hbad.symm]
      exact mxStore_poisons hspec hhomes 0
    · rw [hrun, herr, hclean]
      rw [hclean] at hhomes hcells
      exact mxStore_lands hspec hhomes (slot_of_headOf hhead) hcells hpartial 0
  case applies =>
    intro g d a m s q td ta x a1 a2 rows outs hs cells hhead hi hts hx hready ha1 ha2 hrows houts hcells hhomes
    have hspec := spec_of_headOf hhead
    have hrun := mxRun_mapl hspec hi hts hx hready ha1 ha2 hrows houts
    refine ⟨fun hpoison => execMx_of_head hhead ?_, fun hclean hpartial => execMx_of_head hhead ?_⟩
    · rw [hrun, hpoison]
      exact mxStore_poisons hspec hhomes _
    · rw [hrun, hclean]
      exact mxStore_lands hspec hhomes (slot_of_headOf hhead) hcells hpartial _
  case images =>
    intro x hclean hdense hfactor hcols
    have hshaped : x.Shaped := ⟨hdense, hfactor, hcols⟩
    exact ⟨hshaped.length_image, hshaped.load_store hclean⟩

end Sys2Proof.Machine
end

section
/-! SUPPORT. The scheduler: the launch table, the modelled core as it takes up, leaves and takes back a task, and what each event of
the scheduler answers (R235 to R241, R286 to R300, R320, R372). -/

namespace Sys2Proof.Machine

/-- Leaving out entries by their keys hides those keys and no other. -/
theorem get?_filter_key {α : Type} (keep : Nat → Bool) (m : SMap α) (a : Nat) :
    SMap.get? (m.filter fun c => keep c.1) a = if keep a then SMap.get? m a else none := by
  induction m with
  | nil => exact (ite_self _).symm
  | cons p m ih =>
    obtain ⟨k, v⟩ := p
    rw [List.filter_cons]
    by_cases hk : keep k = true
    · rw [if_pos hk]
      by_cases ha : k = a
      · subst ha; simp only [SMap.get?, hk, if_true]
      · simp only [SMap.get?, if_neg ha, ih]
    · rw [if_neg hk, ih]
      by_cases ha : k = a
      · subst ha; simp only [if_neg hk]
      · simp only [SMap.get?, if_neg ha]

theorem memGet_filter_kept {keep : Nat → Bool} (m : List Host.Cell) {a : Nat} (h : keep a = true) :
    memGet (m.filter fun c => keep c.1) a = memGet m a := by
  unfold memGet; rw [get?_filter_key keep, if_pos h]

theorem memGet_filter_dropped {keep : Nat → Bool} (m : List Host.Cell) {a : Nat} (h : keep a = false) :
    memGet (m.filter fun c => keep c.1) a = 0 := by
  unfold memGet; rw [get?_filter_key keep, h]; rfl

/-- The pool reads zero in what is left of a memory without its pool (R236). -/
theorem memGet_otherPart_pool (m : List Host.Cell) {a : Nat} (h : isPoolHome a = true) : memGet (otherPart m) a = 0 :=
  memGet_filter_dropped (keep := fun a => !isPoolHome a) m (by rw [h]; rfl)

/-! The launch table. -/

theorem ownLaunch_iff {s : State} {die q seq : Nat} : ownLaunch s die q seq = true ↔
    s.c.info.running = true ∧ s.c.info.die = die ∧ s.c.info.queue = q ∧ s.c.info.seq = seq := by
  simp only [ownLaunch, Bool.and_eq_true, beq_iff_eq, and_assoc]

theorem die_of_launchAt {s : State} {die q seq : Nat} {l : Launch} (h : launchAt s die q seq = some l) : l.die = die := by
  have hrow := List.find?_some h
  simp only [isRow, Bool.and_eq_true, beq_iff_eq] at hrow
  exact hrow.1.1

/-- What holds of every changed launch holds of each row that bears the name afterwards. -/
theorem of_mem_onLaunch {die q seq : Nat} {f : Launch → Launch} {s : State} {P : Launch → Prop} (hf : ∀ l, P (f l)) {l : Launch}
    (hl : l ∈ (onLaunch die q seq f s).fe.launches) (hrow : isRow die q seq l = true) : P l := by
  obtain ⟨x, -, rfl⟩ := List.mem_map.mp hl
  by_cases hx : isRow die q seq x = true
  · rw [if_pos hx]; exact hf x
  · rw [if_neg hx] at hrow; exact absurd hrow hx

@[simp] theorem rowFused_saved (t : Nat) (b : Bool) (l : Launch) : (rowFused t b l).saved = l.saved := by
  unfold rowFused; split <;> rfl

/-! The modelled core leaves its task, and takes one up. -/

@[simp] theorem leaveCore_c (s : State) : (leaveCore s).c = { Core.start with fresh := s.c.fresh } := rfl
@[simp] theorem leaveCore_fe (s : State) : (leaveCore s).fe = s.fe := rfl
@[simp] theorem leaveCore_outer (s : State) : (leaveCore s).outer = [] := rfl

theorem leaveCore_pool (s : State) {a : Nat} (h : isPoolHome a = true) : memGet (leaveCore s).mem a = 0 := memGet_otherPart_pool _ h

theorem Regs.setCell_same (x : Regs) (c : BitVec 6) (v : Word) : (x.setCell c v).s[c.toNat]'c.isLt = v :=
  Vector.getElem_set_self _

theorem Regs.setCell_other {x : Regs} {c : BitVec 6} {v : Word} {i : Nat} (hi : i < 64) (h : c.toNat ≠ i) :
    (x.setCell c v).s[i] = x.s[i] :=
  Vector.getElem_set_ne c.isLt hi h

theorem startTask_of_image {l : Launch} {s : State} {m : Image} (h : imageAt s l.ctx l.recd.image = some m) (t : Nat) :
    (startTask l t s).c = startCore (takeSnapshot s) l m t ∧ (startTask l t s).mem = otherPart (takeSnapshot s).mem := by
  unfold startTask; rw [h]; exact ⟨rfl, rfl⟩

/-- The general registers at the start of a task: the arguments in s1 to s3, all else as at a start (R236). -/
theorem startCore_s (s : State) (l : Launch) (m : Image) (t : Nat) :
    (startCore s l m t).r.s[1] = (l.recd.args[0]?).getD 0 ∧ (startCore s l m t).r.s[2] = (l.recd.args[1]?).getD 0
      ∧ (startCore s l m t).r.s[3] = (l.recd.args[2]?).getD 0
      ∧ ∀ i : Fin 64, i.val ∉ [1, 2, 3] → (startCore s l m t).r.s[i] = Regs.start.s[i] := by
  refine ⟨?_, ?_, Regs.setCell_same _ 3 _, fun i hi => ?_⟩
  · exact (Regs.setCell_other _ (by decide)).trans ((Regs.setCell_other _ (by decide)).trans (Regs.setCell_same _ 1 _))
  · exact (Regs.setCell_other _ (by decide)).trans (Regs.setCell_same _ 2 _)
  · simp only [List.mem_cons, List.not_mem_nil, or_false, not_or] at hi
    obtain ⟨h1, h2, h3⟩ := hi
    have hs1 : (Regs.start.setCell 1 ((l.recd.args[0]?).getD 0)).s[i] = Regs.start.s[i] := Regs.setCell_other i.isLt (Ne.symm h1)
    exact (Regs.setCell_other (c := 3) i.isLt (Ne.symm h3)).trans ((Regs.setCell_other (c := 2) i.isLt (Ne.symm h2)).trans hs1)

/-! The start of a packet (R286, R232, R235). -/

theorem startEvent_of_ctx {l : Launch} {s : State} {c : Context} (h : SMap.get? s.mon.ctxs l.ctx = some c) :
    startEvent l s = endPacket l.die l.q l.seq none { s with mon := { s.mon with ctxs := SMap.put s.mon.ctxs l.ctx { c with
      events := SMap.put c.events (l.pkt.arg % 256) ((SMap.get? c.events (l.pkt.arg % 256)).getD 0
        + (if l.pkt.amt = 0 then 1 else BitVec.ofNat 64 l.pkt.amt)) } } } := by
  unfold startEvent; rw [h]

section
variable {die : BitVec 2} {q : BitVec 10} {seq : Nat} {s : State} {l : Launch} (hl : launchAt s die.toNat q.toNat seq = some l)
include hl

section
variable (hstarted : l.started = false) (hdeps : depsMet s l = true) (hpower : s.health.power = 0)
include hstarted hdeps hpower

theorem execPacketStart_event (ht : l.pkt.type = 3) : execPacketStart die q seq s = .next (startEvent l s) := by
  simp [execPacketStart, hl, hstarted, hdeps, hpower, ht]

variable {bs : List Byte} (ht : l.pkt.type ≠ 3) (hbs : recordBytes s l.ctx l.pkt.arg = some bs)
include ht hbs

theorem execPacketStart_refused {reason : Nat} (hr : recordRefusal s l.ctx (recordOf bs) = some reason) :
    execPacketStart die q seq s = .next (endPacket l.die l.q l.seq (some (reason, 0)) s) := by
  simp [execPacketStart, hl, hstarted, hdeps, hpower, ht, hbs, hr]

theorem execPacketStart_placed {p : List (Nat × Nat)} (hr : recordRefusal s l.ctx (recordOf bs) = none)
    (hpoint : pointMet s l = true) (hturn : launchTurn s l = true)
    (hplace : placeLaunch (recordOf bs) (launchCores s l.ctx (recordOf bs)) = some p) :
    execPacketStart die q seq s = .next (bindLaunch { l with recd := recordOf bs } p { s with fe := { s.fe with
      owed := s.fe.owed.filter fun o => o.2 != classOf s l } }) := by
  simp [execPacketStart, hl, hstarted, hdeps, hpower, ht, hbs, hr, hpoint, hturn, hplace]

end

/-! What reaches a launch that runs, and its end. -/

theorem execLaunchComplete_retired (env : BoundaryEnv) (hstarted : l.started = true) (hall : ∀ r ∈ l.tasks, r.retired = true) :
    execLaunchComplete die q seq env s =
      .next (endPacket l.die l.q l.seq (l.failed.map fun c => (32, c)) (finalBoundary l env s)) := by
  have hall : l.tasks.all (fun r => r.retired) = true := List.all_eq_true.mpr hall
  simp only [execLaunchComplete, hl, hstarted, hall, Bool.and_self, if_true]

variable (hstarted : l.started = true) (hsaved : l.saved = false)
include hstarted hsaved

theorem execTimeSliceExpiry_running :
    execTimeSliceExpiry die q seq s = .next (onLaunch die.toNat q.toNat seq (fun l => { l with sliced := true }) s) := by
  simp [execTimeSliceExpiry, hl, hstarted, hsaved]

theorem execPreemptionRequest_outranked (hpre : l.preempt = false) (hrank : ∃ r ∈ s.fe.launches, outranks s r l = true) :
    execPreemptionRequest die q seq s = .next (requestLaunch die.toNat q.toNat seq s) := by
  have hdie : l.die < 4 := by rw [die_of_launchAt hl]; exact die.isLt
  have hfree : runsFree l = true := by simp [runsFree, hdie, hstarted, hsaved, hpre]
  have hany : (s.fe.launches.any fun r => outranks s r l) = true := List.any_eq_true.mpr hrank
  simp only [execPreemptionRequest, hl, hfree, hany, Bool.and_self, if_true]

variable {r : TaskRow} {t : Nat} (hr : r ∈ l.tasks) (ht : r.t = t) (hretired : r.retired = false) (hcore : r.core ≠ s.me)
include hr ht hretired hcore

/-- A task of another core retires as its row says (log 3). -/
theorem execTaskRetire_elsewhere (hown : ownLaunch s die.toNat q.toNat seq = false ∨ s.c.info.t ≠ t) :
    execTaskRetire die q seq t s = .next
      (onLaunch die.toNat q.toNat seq (markRow t fun r => { r with ended := true, retired := true }) s) := by
  have hnot : ¬(ownLaunch s die.toNat q.toNat seq = true ∧ s.c.info.t = t) := by
    rintro ⟨ho, hi⟩
    rcases hown with h | h
    · rw [h] at ho; cases ho
    · exact h hi
  have hany : (l.tasks.any fun r => r.t == t && !r.retired && r.core != s.me) = true :=
    List.any_eq_true.mpr ⟨r, hr, by simp [ht, hretired, hcore]⟩
  simp only [execTaskRetire, if_neg hnot, hl, hstarted, hsaved, hany, Bool.not_false, Bool.and_self, if_true]

/-- A fault of a task on another core, other than a residue mismatch, is its launch's (R372). -/
theorem execSchedulerFaultDelivery_fails {cause : BitVec 8} (hne : cause ≠ 0xF3) (hc : taskCause cause.toNat = true) :
    execSchedulerFaultDelivery die q seq t cause s = .next (onLaunch die.toNat q.toNat seq (failRow t cause.toNat) s) := by
  have hsome : (l.tasks.find? fun r => r.t == t && !r.retired && r.core != s.me).isSome = true :=
    List.find?_isSome.mpr ⟨r, hr, by simp [ht, hretired, hcore]⟩
  obtain ⟨x, hx⟩ := Option.isSome_iff_exists.mp hsome
  simp only [execSchedulerFaultDelivery, hl, hx, hstarted, hsaved, hc, hne, false_and, if_false, Bool.not_true, Bool.or_self,
    Bool.false_eq_true]

end

/-- A pre-emption request reaches every task of the launch, this core's with them (R295). -/
theorem requestLaunch_effect (die q seq : Nat) (s : State) :
    (requestLaunch die q seq s).fe = (onLaunch die q seq (fun l => { l with preempt := true }) s).fe
      ∧ (requestLaunch die q seq s).c = { s.c with preempt := s.c.preempt || ownLaunch s die q seq } := by
  unfold requestLaunch
  cases ownLaunch s die q seq with
  | true => rw [Bool.or_true]; exact ⟨rfl, rfl⟩
  | false => rw [Bool.or_false]; exact ⟨rfl, rfl⟩

/-- The modelled core's task retires: its ranked atomics and far writes stay with the launch (R240). -/
theorem execTaskRetire_own {die : BitVec 2} {q : BitVec 10} {seq t : Nat} {s : State}
    (hown : ownLaunch s die.toNat q.toNat seq = true) (ht : s.c.info.t = t) (hmay : mayRetire s = true) :
    ∃ mon, execTaskRetire die q seq t s = .next (leaveCore { onLaunch die.toNat q.toNat seq (fun l =>
      { markRow t (fun r => { r with ended := true, retired := true }) l with
        ranked := l.ranked ++ leftRanked s.c, far := l.far ++ s.c.far }) s with mon := mon }) := by
  obtain ⟨-, hdie, hq, hseq⟩ := ownLaunch_iff.mp hown
  simp only [execTaskRetire, hown, ht, true_and, if_true, retireOwn, hmay, hdie, hq, hseq]
  exact ⟨_, rfl⟩

/-! Floors, operating points, and clusters. -/

theorem execClassFloorOwed_ready {s : State} {l : Launch} {prio : BitVec 3} (die : BitVec 2) (hl : l ∈ s.fe.launches)
    (hready : readyLaunch s l = true) (hclass : classOf s l = prio.toNat) : execClassFloorOwed die prio s =
      .next { s with fe := { s.fe with owed := (s.fe.owed ++ [(die.toNat, prio.toNat)]).eraseDups } } := by
  have hany : (s.fe.launches.any fun l => readyLaunch s l && classOf s l == prio.toNat) = true :=
    List.any_eq_true.mpr ⟨l, hl, by rw [hready, hclass, beq_self_eq_true]; rfl⟩
  unfold execClassFloorOwed; rw [if_pos hany]

/-- Does a launch run on a die, or stand next to start there (R287)? -/
def setsPoint (s : State) (die : Nat) (l : Launch) : Bool :=
  l.die == die && ((l.started && !l.saved) || (waitsForCores s l && turnAmong s (waitsForCores s) l))

theorem setsPoint_iff {s : State} {die : Nat} {l : Launch} : setsPoint s die l = true ↔ l.die = die
    ∧ (l.started = true ∧ l.saved = false ∨ waitsForCores s l = true ∧ turnAmong s (waitsForCores s) l = true) := by
  simp only [setsPoint, Bool.and_eq_true, Bool.or_eq_true, Bool.not_eq_true', beq_iff_eq]

/-- The die runs at the least class that one of its launches needs. -/
theorem execOperatingPointReached_least {s : State} {l : Launch} {die fc : BitVec 2} (hl : l ∈ s.fe.launches)
    (hsets : setsPoint s die.toNat l = true) (hfc : max l.pkt.fc (fcCap s) = fc.toNat)
    (hleast : ∀ x ∈ s.fe.launches, setsPoint s die.toNat x = true → fc.toNat ≤ max x.pkt.fc (fcCap s)) :
    execOperatingPointReached die fc s = .next { s with fe := { s.fe with point := s.fe.point.set die.toNat fc die.isLt } } := by
  have hmin : ((s.fe.launches.filter (setsPoint s die.toNat)).map fun l => max l.pkt.fc (fcCap s)).min? = some fc.toNat := by
    refine List.min?_eq_some_iff.mpr ⟨List.mem_map.mpr ⟨l, List.mem_filter.mpr ⟨hl, hsets⟩, hfc⟩, fun b hb => ?_⟩
    obtain ⟨x, hx, rfl⟩ := List.mem_map.mp hb
    obtain ⟨hmem, hset⟩ := List.mem_filter.mp hx
    exact hleast x hmem hset
  exact if_pos hmin

/-- A cluster that no launch holds or keeps goes to another tenant, its SRAM zeroed (R320). -/
theorem execClusterSramZeroing_free {s : State} {cl : BitVec 4} {tenant t : Nat} (ht : SMap.get? s.fe.clusters cl.toNat = some t)
    (hne : t ≠ tenant)
    (hfree : ∀ l ∈ s.fe.launches, keepsCluster l cl.toNat = false ∧ ∀ i, i < 16 → holdsCore l (16 * cl.toNat + i) = false) :
    ∃ u, execClusterSramZeroing cl tenant s = .next u ∧ u.fe.clusters = SMap.put s.fe.clusters cl.toNat tenant ∧ u.c = s.c
      ∧ u.mem = if s.me / 16 = cl.toNat then s.mem.filter fun c => !isClusterHome c.1 else s.mem := by
  have hbusy : (s.fe.launches.any fun l => keepsCluster l cl.toNat || (List.range 16).any fun i => holdsCore l (16 * cl.toNat + i)) =
      false := by
    refine List.any_eq_false.mpr fun l hl => ?_
    obtain ⟨hkeeps, hholds⟩ := hfree l hl
    have hrange : ((List.range 16).any fun i => holdsCore l (16 * cl.toNat + i)) = false :=
      List.any_eq_false.mpr fun i hi => by rw [hholds i (List.mem_range.mp hi)]; exact Bool.false_ne_true
    rw [hkeeps, hrange]; exact Bool.false_ne_true
  simp only [execClusterSramZeroing, ht, hne, hbusy, Bool.false_eq_true, or_self, if_false, decide_eq_true_eq]
  exact ⟨_, rfl, rfl, rfl, rfl⟩

/-! Saving and restoring (R296, R299, R300). -/

theorem execContextSave_task {s : State} (hrun : s.c.info.running = true) (hpre : s.c.preempt = true) (hpoint : savePoint s = true)
    (hlanded : saveLanded s = true) : execContextSave false s = .next (leaveCore ((onLaunch s.c.info.die s.c.info.queue s.c.info.seq
      (fun l => rowFused s.c.info.t s.c.fused.fused (allSaved l)) { s with fe := { s.fe with saved := s.fe.saved ++ [saveTask s] } }).onC
        fun c => { c with fresh := c.fresh + c.colls.length })) := by
  simp only [execContextSave, hrun, hpre, hpoint, hlanded, Bool.and_self, if_true, Bool.false_eq_true, if_false]

theorem execContextSave_elsewhere {s : State} {l : Launch} (hrun : s.c.info.running = false)
    (hl : (s.fe.launches.find? fun l => l.started && l.preempt && !l.saved) = some l) :
    execContextSave false s = .next (onLaunch l.die l.q l.seq allSaved s) := by
  simp only [execContextSave, hrun, hl, Bool.false_and, Bool.false_eq_true, if_false]

theorem restoreTask_effect (y : SavedTask) (s : State) :
    (restoreTask y s).c = { rearmSaved { y.core with arr := { y.core.arr with upset := [] } } with
      fresh := s.c.fresh, info := { y.core.info with patch := s.mon.sfCur } }
      ∧ (restoreTask y s).mem = memSetAll y.pool y.snap ∧ (restoreTask y s).fe = s.fe :=
  ⟨rfl, rfl, rfl⟩

/-- A placement that brings a task to the modelled core restores it there. -/
theorem restoreLaunch_here {l : Launch} {p : List (Nat × Nat)} {s : State} {x : Nat × Nat} {y : SavedTask}
    (hx : (p.find? fun x => x.2 == s.me && l.tasks.any fun r => r.t == x.1 && !r.retired) = some x)
    (hy : (s.fe.saved.find? fun y => isRow y.die y.q y.seq l && y.t == x.1) = some y) :
    ∃ fe, restoreLaunch l p s = some (restoreTask y { s with fe := fe })
      ∧ fe.saved = s.fe.saved.filter fun z => !isRow z.die z.q z.seq l := by
  simp only [restoreLaunch, hx, hy, Option.map_some]
  exact ⟨_, rfl, rfl⟩

theorem execContextRestore_restored {die : BitVec 2} {q : BitVec 10} {seq : Nat} {s u : State} {l : Launch} {p : List (Nat × Nat)}
    (hl : launchAt s die.toNat q.toNat seq = some l) (hsaved : l.saved = true) (hturn : launchTurn s l = true)
    (hpower : s.health.power = 0) (hp : placeRestore l (launchCores s l.ctx l.recd) = some p) (hu : restoreLaunch l p s = some u) :
    execContextRestore die q seq s = .next u := by
  simp [execContextRestore, hl, hsaved, hturn, hpower, hp, hu]

/-- A restart of a scheduler level puts the overflow bits of its die that are in handling back into the mask (log 60). -/
theorem mem_restartScheduler_overflow {die : BitVec 2} {s : State} {k : Nat} :
    k ∈ (restartScheduler die s).fe.overflow ↔ k ∈ s.fe.overflow ∨ (k ∈ s.fe.handling ∧ k / 1024 = die.toNat) := by
  simp only [restartScheduler, List.mem_eraseDups, List.mem_append, List.mem_filter, beq_iff_eq]

/-- Settles O55: each event's answer is the lemma above about its own function; the rest is what the answer leaves in each field. -/
theorem schedulerEvents : Obligations.SchedulerEvents := by
  refine ⟨?starts, ?begins, ?retires, ?elsewhere, ?completes, ?requests, ?floors, ?points, ?clusters, ?saves, ?savesElsewhere,
    ?restores, ?restarts, fun die tenant s => rfl⟩
  case starts =>
    intro die q seq s l hl hstarted hdeps hpower
    refine ⟨fun c ht hc => ⟨_, execPacketStart_event hl hstarted hdeps hpower ht, startEvent_of_ctx hc⟩, fun ht bs hbs =>
      ⟨fun reason hr => execPacketStart_refused hl hstarted hdeps hpower ht hbs hr, fun p hr hpoint hturn hplace => ?_⟩⟩
    exact execPacketStart_placed hl hstarted hdeps hpower ht hbs hr hpoint hturn hplace
  case begins =>
    rintro l t s u m himage rfl
    obtain ⟨hc, hmem⟩ := startTask_of_image himage t
    obtain ⟨h1, h2, h3, hrest⟩ := startCore_s (takeSnapshot s) l m t
    rw [hc, hmem]
    exact ⟨rfl, h1, h2, h3, hrest, rfl, rfl, rfl, rfl, rfl, rfl, fun a ha => memGet_otherPart_pool _ ha⟩
  case retires =>
    intro die q seq t s hown ht hmay
    obtain ⟨mon, h⟩ := execTaskRetire_own hown ht hmay
    exact ⟨_, h, leaveCore_c _, leaveCore_outer _, congrArg FrontEnd.launches (leaveCore_fe _), fun a ha => leaveCore_pool _ ha⟩
  case elsewhere =>
    intro die q seq t s l r cause hl hstarted hsaved hr ht hretired hcore
    exact ⟨execTaskRetire_elsewhere hl hstarted hsaved hr ht hretired hcore,
      execSchedulerFaultDelivery_fails hl hstarted hsaved hr ht hretired hcore⟩
  case completes => exact fun die q seq env s l hl hstarted hall => execLaunchComplete_retired hl env hstarted hall
  case requests =>
    intro die q seq s l hl hstarted hsaved
    refine ⟨execTimeSliceExpiry_running hl hstarted hsaved, fun hpre hrank => ?_⟩
    exact ⟨_, execPreemptionRequest_outranked hl hstarted hsaved hpre hrank, requestLaunch_effect ..⟩
  case floors =>
    intro die prio s l hl hready hclass
    refine ⟨_, execClassFloorOwed_ready die hl hready hclass, ?_, fun o ho => ?_, rfl⟩ <;>
      simp only [List.mem_eraseDups, List.mem_append]
    · exact .inr (List.mem_singleton.mpr rfl)
    · exact .inl ho
  case points =>
    intro die fc s l hl hdie hruns hfc hleast
    refine execOperatingPointReached_least hl (setsPoint_iff.mpr ⟨hdie, hruns⟩) hfc fun x hx hset => ?_
    obtain ⟨hxdie, hxruns⟩ := setsPoint_iff.mp hset
    exact hleast x hx hxdie hxruns
  case clusters =>
    intro cl tenant t s ht hne hfree
    obtain ⟨u, hu, hclusters, hc, hmem⟩ := execClusterSramZeroing_free ht hne hfree
    refine ⟨u, hu, by rw [hclusters, SMap.get?_put, if_pos rfl], hc, fun hme a ha => ?_, fun a ha => ?_⟩
    · rw [hmem, if_pos hme]
      exact memGet_filter_dropped (keep := fun a => !isClusterHome a) _ (by rw [ha]; rfl)
    · rw [hmem]
      by_cases hme : s.me / 16 = cl.toNat
      · rw [if_pos hme]
        have hout : isClusterHome a = false := ha.resolve_right (not_not_intro hme)
        exact memGet_filter_kept (keep := fun a => !isClusterHome a) _ (by rw [hout]; rfl)
      · rw [if_neg hme]
  case saves =>
    intro s hrun hpre hpoint hlanded
    refine ⟨_, execContextSave_task hrun hpre hpoint hlanded, leaveCore_c _, congrArg FrontEnd.saved (leaveCore_fe _), fun l hl hrow => ?_⟩
    exact of_mem_onLaunch (P := fun l => l.saved = true) (fun l => rowFused_saved ..) hl hrow
  case savesElsewhere => exact fun s l hrun hl => execContextSave_elsewhere hrun hl
  case restores =>
    intro die q seq s l p x y hl hsaved hturn hpower hp hx hy
    obtain ⟨fe, hu, hfe⟩ := restoreLaunch_here hx hy
    obtain ⟨hc, hmem, hfront⟩ := restoreTask_effect y { s with fe := fe }
    exact ⟨_, execContextRestore_restored hl hsaved hturn hpower hp hu, hc, hmem, (congrArg FrontEnd.saved hfront).trans hfe⟩
  case restarts => exact fun die s => ⟨_, rfl, rfl, rfl, fun k => mem_restartScheduler_overflow, rfl, rfl, rfl⟩

end Sys2Proof.Machine
end

section
/-! SUPPORT. Plans: the table of handles, the plan commands of the sy queue, the acceptance, breaks and commit of a block, the binding
plane and the page walk (R249, R250, R264 to R271, R309, R380). -/

namespace Sys2Proof.Machine

/-! The table of handles (R265). -/

/-- A state whose context ctx, c so far, has a plan handle in its table at place n. -/
def withPlan (ctx n : Nat) (h : PlanHandle) (c : Context) (s : State) : State :=
  { s with mon := { s.mon with ctxs := SMap.put s.mon.ctxs ctx { c with plans := SMap.put c.plans n h } } }

/-- The table of handles has no part in a translation. -/
theorem translate_withPlan {s : State} {ctx : Nat} {c : Context} (hc : SMap.get? s.mon.ctxs ctx = some c) (n : Nat) (h : PlanHandle)
    (k : Acc) (dev : Bool) (va : Nat) : translate (withPlan ctx n h c s) ctx k dev va = translate s ctx k dev va := by
  have hput : SMap.get? (withPlan ctx n h c s).mon.ctxs ctx = some { c with plans := SMap.put c.plans n h } := by
    rw [withPlan, SMap.get?_put, if_pos rfl]
  unfold translate
  rw [hput, hc]
  rfl

theorem setPlan_eq {s : State} {c : Context} (hc : s.ctx? = some c) (n : Nat) (h : PlanHandle) : setPlan n h s =
    match translate s s.c.info.ctx .write true (c.recd.prbase + 1024 * n) with
    | .error _ => withPlan s.c.info.ctx n h c s
    | .ok a => (withPlan s.c.info.ctx n h c s).write (cellsAt a (planRecord h)) := by
  have hc' : SMap.get? s.mon.ctxs s.c.info.ctx = some c := hc
  rw [← translate_withPlan hc' n h]
  simp only [setPlan, setPlanIn, hc', if_true]
  rfl

@[simp] theorem setPlan_c (n : Nat) (h : PlanHandle) (s : State) : (setPlan n h s).c = s.c := by
  cases hc : s.ctx? with
  | none =>
    have hc' : SMap.get? s.mon.ctxs s.c.info.ctx = none := hc
    rw [setPlan, setPlanIn, hc']
  | some c => rw [setPlan_eq hc]; split <;> rfl

theorem planOf_setPlan {s : State} {c : Context} (hc : s.ctx? = some c) (n : Nat) (h : PlanHandle) :
    planOf (setPlan n h s) n = some h := by
  have hmon : (setPlan n h s).mon = (withPlan s.c.info.ctx n h c s).mon := by rw [setPlan_eq hc]; split <;> rfl
  have hctx : (setPlan n h s).ctx? = some { c with plans := SMap.put c.plans n h } := by
    rw [State.ctx?, hmon, setPlan_c, withPlan, SMap.get?_put, if_pos rfl]
  rw [planOf, hctx, Option.bind_some, SMap.get?_put, if_pos rfl]

/-- The record of a handle stands where its context keeps it. -/
theorem setPlan_mem {s : State} {c : Context} (hc : s.ctx? = some c) {n a : Nat} (h : PlanHandle)
    (ha : translate s s.c.info.ctx .write true (c.recd.prbase + 1024 * n) = .ok a) :
    (setPlan n h s).mem = (s.write (cellsAt a (planRecord h))).mem := by
  rw [setPlan_eq hc, ha]; rfl

/-! The commands at the head of the sy queue (R163, R190, R266, R271, R272). -/


section commands
variable {q : Cmd} {s : State}

theorem execSy_of_head {t : State} (h : headOf .sy q s) (hrun : syRun q s = .ok t) : exec .syCommandExecute s = .next t := by
  obtain ⟨-, hfailing, -, hlane, hbehind, hhead⟩ := h
  have hq : s.c.syq.head? = some q := hhead
  change execSyCommandExecute s = _
  rw [execSyCommandExecute, hq]
  simp only [runCmd, hfailing, hlane, hbehind, hrun]
  rfl

/-- A command that fails without a poisoned read leaves memory as it was (R165). -/
theorem execSy_fails {c n : Nat} {d : Word} (h : headOf .sy q s) (hrun : syRun q s = .error (.fail c n d [])) (hc : c ≠ 0x71) :
    exec .syCommandExecute s = .next ((applyFree [] s).onC fun x => { x with failing := some ⟨q, c, n, d⟩ }) := by
  obtain ⟨-, hfailing, -, hlane, hbehind, hhead⟩ := h
  have hq : s.c.syq.head? = some q := hhead
  change execSyCommandExecute s = _
  rw [execSyCommandExecute, hq]
  simp only [runCmd, hfailing, hlane, hbehind, hrun, beq_false_of_ne hc, Bool.and_false]
  rfl

theorem slipBefore_of_no_lanes (q : Cmd) {c : Core} (h : c.lanes.flatten = []) : slipBefore q c = false := by
  rw [slipBefore, h, List.any_nil]

section run
variable {g : Guard} {n : BitVec 10} {r : EngRes State} (h : headOf .sy q s) (hlanes : s.c.lanes.flatten = [])
  (hi : (q.i, r) ∈ [(.plan g n, runPlan n.toNat q s), (.hint g n, runHint n.toNat q s), (.pin g n, runPin n.toNat true q s),
    (.unpin g n, runPin n.toNat false q s)])
include h hlanes hi

theorem syRun_planCommand : syRun q s = r.map (keepSpec s) := by
  simp only [List.mem_cons, List.not_mem_nil, or_false, Prod.mk.injEq] at hi
  rw [syRun, unheld_of_spec_none (spec_of_headOf h), slipBefore_of_no_lanes q hlanes]
  obtain ⟨hi, rfl⟩ | ⟨hi, rfl⟩ | ⟨hi, rfl⟩ | ⟨hi, rfl⟩ := hi
  all_goals rw [hi]; rfl

/-- A plan command that ends well puts its handle and leaves the queue. -/
theorem planCommand_puts {m : Nat} {x : PlanHandle} (hr : r = .ok (popCmd q (setPlan m x s))) :
    exec .syCommandExecute s = .next (popCmd q (setPlan m x s)) := by
  have hspec := spec_of_headOf h
  refine execSy_of_head h ?_
  rw [syRun_planCommand h hlanes hi, hr]
  exact map_keepSpec hspec (by rw [popCmd_spec, setPlan_c, hspec])

theorem planCommand_fails {c : Nat} {d : Word} (hr : r = .error (.fail c 1 d [])) (hc : c ≠ 0x71) : exec .syCommandExecute s =
    .next ((applyFree [] s).onC fun k => { k with failing := some ⟨q, c, 1, d⟩ }) := by
  refine execSy_fails h ?_ hc
  rw [syRun_planCommand h hlanes hi, hr]; rfl

end run

section runPlan
variable {n : Nat} (hidle : ∀ h, planOf s n = some h → h.run = none)
include hidle

theorem planOf_not_running : (planOf s n).any (fun h => h.run.isSome) = false := by
  cases hp : planOf s n with
  | none => rfl
  | some h => rw [Option.any_some, hidle h hp]; rfl

theorem runPlan_unreadable {c : Nat} {d : Word} (hb : loadBlock s ((q.stgAt 0).toNat % 2 ^ 52) = .error (c, d)) :
    runPlan n q s = .error (.fail c 1 d []) := by
  simp only [runPlan, planOf_not_running hidle, Bool.false_eq_true, if_false, hb]

theorem runPlan_built {ns : List PlanNode} {ch : PlanChoice} (hb : loadBlock s ((q.stgAt 0).toNat % 2 ^ 52) = .ok ns)
    (hok : (((planOf s n).map fun h => h.hints).getD []).all (hintOk (opsOf s) s ns) = true)
    (hch : buildPlan s ns (((planOf s n).map fun h => h.hints).getD []) [] [] PlanChoice.none = some ch) :
    runPlan n q s = .ok (popCmd q (setPlan n
      { state := 1, pinned := false, replans := 0, qaddr := (q.stgAt 0).toNat % 2 ^ 52, block := ns, choice := ch
        vers := versionsOf s ns, uavail := (s.health.uavail[s.me / 64]?).getD 0
        hints := ((planOf s n).map fun h => h.hints).getD [], run := none } s)) := by
  simp only [runPlan, planOf_not_running hidle, Bool.false_eq_true, if_false, hb, hok, Bool.not_true, hch]

end runPlan

theorem runHint_absent (q : Cmd) {n : Nat} (hp : planOf s n = none) : runHint n q s = .error (.fail 0x92 1 0 []) := by rw [runHint, hp]

theorem runHint_added {n : Nat} {h : PlanHandle} {hs : List Hint} (hp : planOf s n = some h)
    (hadd : addHint h s (q.stgAt 0) (q.stgAt 1) = some hs) : runHint n q s = .ok (popCmd q (setPlan n { h with hints := hs } s)) := by
  simp only [runHint, hp, hadd]

theorem runPin_absent (q : Cmd) {n : Nat} (p : Bool) (hp : planOf s n = none) : runPin n p q s = .error (.fail 0x92 1 0 []) := by rw [runPin, hp]

theorem runPin_present {n : Nat} {h : PlanHandle} (p : Bool) (hp : planOf s n = some h) :
    runPin n p q s = .ok (popCmd q (setPlan n { h with pinned := p } s)) := by rw [runPin, hp]

end commands

/-! The acceptance of a pexec (R250, R264, R266). -/

/-- A handle placed anew on the cores that the die has (R264). -/
def placed (s : State) (h : PlanHandle) : PlanHandle :=
  { h with uavail := (s.health.uavail[s.me / 64]?).getD 0, choice := { h.choice with slots := slotsOf s } }

/-- The handle that acceptance places: the plan as it is where no version has changed, and else the block planned anew (R266). -/
def upToDate (s : State) (h h0 : PlanHandle) : Prop :=
  (changedVersions s h = [] ∧ h0 = h) ∨ (changedVersions s h ≠ [] ∧ h.pinned = false
    ∧ ∃ c, buildPlan s h.block h.hints [] [] PlanChoice.none = some c
      ∧ h0 = { h with choice := c, vers := versionsOf s h.block, replans := h.replans + 1 })

theorem upToDate_block {s : State} {h h0 : PlanHandle} (hup : upToDate s h h0) : h0.block = h.block := by
  obtain ⟨-, rfl⟩ | ⟨-, -, c, -, rfl⟩ := hup <;> rfl

theorem acceptHandle_stale {s : State} {h : PlanHandle} (hv : changedVersions s h ≠ []) (hpin : h.pinned = true) :
    acceptHandle s h = .error (0x90, BitVec.ofNat 64 ((changedVersions s h).foldl min 4095), h) := by
  simp only [acceptHandle, List.isEmpty_eq_false_iff.mpr hv, hpin, Bool.not_false, Bool.and_self, if_true]

theorem acceptHandle_upToDate {s : State} {h h0 : PlanHandle} (hup : upToDate s h h0) : acceptHandle s h =
    if slotsOf s = 0 then .error (0x94, BitVec.ofNat 64 (s.me / 64), placed s h0) else .ok (placed s h0) := by
  obtain ⟨hv, rfl⟩ | ⟨hv, hpin, c, hc, rfl⟩ := hup
  · simp only [acceptHandle, hv, List.isEmpty_nil, Bool.not_true, Bool.false_and, Bool.false_eq_true, if_false, if_true, placed]
  · simp only [acceptHandle, List.isEmpty_eq_false_iff.mpr hv, hpin, hc, Bool.and_false, Bool.false_eq_true, if_false,
      Option.map_some, placed]

section accept
variable {s : State} {q : Cmd} {g : Guard} {n : BitVec 10} (hq : s.c.syq.head? = some q) (hf : s.c.failing = none)
  (hi : q.i = .pexec g n)
include hq hf hi

theorem execPexecAccept_absent (hp : planOf s n.toNat = none) :
    execPexecAccept n s = .next (s.onC fun x => { x with failing := some ⟨q, 0x92, 1, 0⟩ }) := by
  simp [execPexecAccept, hq, hf, hi, isPexec, hp]

variable {h : PlanHandle} (hp : planOf s n.toNat = some h) (hidle : h.run = none) (hconf : planConflict s h.block = false)
  (hslip : slipBefore q s.c = false)
include hp hidle hconf hslip

/-- An execution that is not accepted leaves state 3, and its failure pending. -/
theorem execPexecAccept_fails {c : Nat} {d : Word} {h' : PlanHandle} (hacc : acceptHandle s h = .error (c, d, h')) :
    execPexecAccept n s =
      .next ((setPlan n.toNat { h' with state := 3 } s).onC fun x => { x with failing := some ⟨q, c, 1, d⟩ }) := by
  simp [execPexecAccept, hq, hf, hi, isPexec, hp, hidle, hconf, hslip, hacc]

/-- An accepted block captures its leaves, and what its results will go to. -/
theorem execPexecAccept_starts {h' : PlanHandle} {r1 r : PlanRun} (hacc : acceptHandle s h = .ok h') (hspec : s.c.spec = none)
    (hleaves : ((blockTensors h'.block).filter fun t => (producer h'.block t).isNone).foldlM (fun r t => readLeaf q s t r)
      ⟨q.no, q.addr, q.word, postOrder h'.block, [], [], [], [], []⟩ = .ok r1)
    (houts : h'.block.foldlM (fun r m => readOut q s m r) r1 = .ok r) :
    execPexecAccept n s = .next (popCmd q (setPlan n.toNat { h' with state := 2, run := some r } s)) := by
  simp [execPexecAccept, hq, hf, hi, isPexec, hp, hidle, hconf, hslip, hacc, unheld_of_spec_none hspec, hleaves, houts, bind_ok]

end accept

/-! The breaks of an execution (R268 to R270, R380), and the commit of its block (R249). -/

section breaks
variable {n : BitVec 10} {s : State} {h : PlanHandle} {r : PlanRun} (hp : planOf s n.toNat = some h) (hf : s.c.failing = none)
  (hr : h.run = some r)
include hp hf hr

theorem execPlanBreak_fails {c : Nat} {d : Word} (htodo : r.todo ≠ []) (hfail : (runToBreak h r.todo r s).fail = some (c, d)) :
    execPlanBreak n s = .next (failBlock n.toNat h r c d (runToBreak h r.todo r s).st) := by
  simp only [execPlanBreak, hp, hf, hr, List.isEmpty_eq_false_iff.mpr htodo, Bool.false_eq_true, if_false, hfail]

theorem execPlanBreak_reached {x : RunStop} (htodo : r.todo ≠ []) (hx : x = runToBreak h r.todo r s) (hfail : x.fail = none) :
    execPlanBreak n s = .next (if 7 ∈ s.c.upsets ∧ drained h r x.run ≠ [] then planMismatch n.toNat h r (drained h r x.run) s
      else endBreak n.toNat h r { x.run with reruns := [] } x.out x.st) := by
  subst hx
  simp only [execPlanBreak, hp, hf, hr, List.isEmpty_eq_false_iff.mpr htodo, Bool.false_eq_true, if_false, hfail]
  rw [apply_ite Host.Outcome.next]
  exact if_congr (by simp) rfl rfl

theorem execPlanBlockCommit_end {cells : List (List Host.Cell)} (htodo : r.todo = []) (hspec : s.c.spec = none)
    (hcells : h.block.mapM (commitCells s r) = .ok cells) : execPlanBlockCommit n s =
      if partialPoison s cells.flatten then .next (failBlock n.toNat h r 0x71 0 s)
      else .next (setPlan n.toNat { h with state := 1, run := none }
        ((h.block.filter fun m => m.ncons == 0).foldl (fun s m => publish m.out s) (s.write cells.flatten))) := by
  simp only [execPlanBlockCommit, hp, hf, hr, htodo, List.isEmpty_nil, Bool.not_true, Bool.false_eq_true, if_false,
    unheld_of_spec_none hspec, hcells]

end breaks

/-- A residue mismatch is that of a node which has just drained: its launch runs again, or the block fails (log 80). -/
theorem planMismatch_node (n : Nat) (h : PlanHandle) (r : PlanRun) {nodes : List Nat} (s : State) (hne : nodes ≠ []) :
    ∃ i ∈ nodes, planMismatch n h r nodes s =
      if r.reruns.count i < 2 then setPlan n { h with run := some { r with reruns := i :: r.reruns } }
        (countResidue (s.onC fun c => { c with upsets := c.upsets.erase 7, fresh := c.fresh + 1 }))
      else failBlock n h r 0xF3 0 (countResidue (s.onC fun c => { c with upsets := c.upsets.erase 7, fresh := c.fresh + 1 })) := by
  have hlt : (Config.freeWord s.c.fresh).toNat % nodes.length < nodes.length := Nat.mod_lt _ (List.length_pos_iff.mpr hne)
  refine ⟨_, List.getElem_mem hlt, ?_⟩
  simp only [planMismatch, List.getElem?_eq_getElem hlt, Option.getD_some]

theorem endBreak_eq (n : Nat) (h : PlanHandle) (r r' : PlanRun) (out : Bool) {s s' : State}
    (hs : s' = s.onC fun c => { c with fresh := c.fresh + h.block.length }) :
    endBreak n h r r' out s = match overBreak h r r' s.c.fresh, h.pinned with
      | none, _ => setPlan n (afterBreak h r r' out s') s'
      | some _, false => setPlan n (afterBreak { h with replans := h.replans + 1 } r r' out s') s'
      | some id, true => failBlock n h r' 0x91 (BitVec.ofNat 64 id) s' := by
  subst hs; rfl

theorem afterBreak_kept {h : PlanHandle} (r r' : PlanRun) {out : Bool} (s : State) (hkeep : out = false ∨ h.pinned = true) :
    afterBreak h r r' out s = { h with run := some r' } := by
  unfold afterBreak
  refine if_neg ?_
  obtain rfl | hpin := hkeep
  · exact Bool.false_ne_true
  · rw [hpin, Bool.not_true, Bool.and_false]; exact Bool.false_ne_true

/-- An estimate out of bounds has what has not started planned anew (R269). -/
theorem afterBreak_again {h : PlanHandle} {r r' : PlanRun} {s : State} {c : PlanChoice} (hpin : h.pinned = false)
    (hc : buildPlan s h.block h.hints (breakSeen h r r')
      ((List.range h.block.length).filter fun i => !r'.todo.contains i || (h.block[i]?).any PlanNode.pin) h.choice = some c) :
    afterBreak h r r' true s = { h with choice := c, replans := h.replans + 1, run := some r' } := by
  simp only [afterBreak, hpin, Bool.not_false, Bool.and_self, if_true, hc]

/-! The binding plane and the page walk (R267, R309). -/

theorem execBindingPlaneUpdate_matches {diff : List Host.Cell} {chk : Nat} {s : State}
    (hchk : Config.bindingChecksum (memSetAll diff (if s.bind.active then s.bind.plane1 else s.bind.plane0)) = chk) :
    execBindingPlaneUpdate diff chk s = .next { s with bind :=
      if s.bind.active then { s.bind with plane0 := memSetAll diff s.bind.plane1, active := false, resend := false }
      else { s.bind with plane1 := memSetAll diff s.bind.plane0, active := true, resend := false } } := by
  unfold execBindingPlaneUpdate
  refine (if_pos hchk).trans ?_
  cases s.bind.active <;> rfl

theorem execBindingPlaneUpdate_differs {diff : List Host.Cell} {chk : Nat} {s : State}
    (hchk : Config.bindingChecksum (memSetAll diff (if s.bind.active then s.bind.plane1 else s.bind.plane0)) ≠ chk) :
    execBindingPlaneUpdate diff chk s = .next { s with bind := { s.bind with resend := true } } := if_neg hchk

theorem execPageTableWalk_missed {va : Word} {s : State} {c : Context} (hc : s.ctx? = some c) (hrun : s.c.info.running = true)
    (hva : va.toNat < 2 ^ 52) (hranges : ∀ e ∈ c.ranges, rangeHolds e.2 va.toNat = false)
    (htlb : ∀ t ∈ s.mon.tlb, ¬(t.1 = s.c.info.ctx ∧ t.2.1 ≤ va.toNat ∧ va.toNat < t.2.1 + t.2.2.1)) :
    execPageTableWalk va s = .next (match walkFrom (homeMem s) va.toNat 3 c.recd.ptroot with
      | some p => { s with mon := { s.mon with tlb := s.mon.tlb ++ [(s.c.info.ctx, p)] } }
      | none => s) := by
  have hany : (c.ranges.any fun e => rangeHolds e.2 va.toNat) = false :=
    List.any_eq_false.mpr fun e he => by rw [hranges e he]; exact Bool.false_ne_true
  have hmiss : (s.mon.tlb.any fun t => t.1 == s.c.info.ctx && decide (t.2.1 ≤ va.toNat) && decide (va.toNat < t.2.1 + t.2.2.1)) = false :=
    List.any_eq_false.mpr fun t ht => by
      simp only [Bool.and_eq_true, beq_iff_eq, decide_eq_true_eq, and_assoc]
      exact htlb t ht
  have hlow : decide (2 ^ 52 ≤ va.toNat) = false := decide_eq_false (Nat.not_le.mpr hva)
  simp only [execPageTableWalk, hc, hrun, hlow, hany, hmiss, Bool.not_true, Bool.or_self, Bool.false_eq_true, if_false]
  cases walkFrom (homeMem s) va.toNat 3 c.recd.ptroot <;> rfl

/-- Settles O53: each command and event answers by the lemma above about its own function. Its name differs from the obligation's,
which a function of the model bears. -/
theorem planEvents_hold : Obligations.PlanEvents := by
  refine ⟨?plan, ?unreadable, ?hints, ?table, ?accept, ?breaks, ?mismatch, fun n h r r' out s s' hs => endBreak_eq n h r r' out hs,
    fun h r r' s => ⟨afterBreak_kept r r' s (.inl rfl), fun hpin => afterBreak_kept r r' s (.inr hpin), fun hpin c hc =>
      afterBreak_again hpin hc⟩, ?commit, ?binding, fun va s c hc hrun hva hranges htlb =>
      execPageTableWalk_missed hc hrun hva hranges htlb⟩
  case plan =>
    rintro g n s q ns hs ch hq hlanes hi hidle hb rfl hok hch
    exact planCommand_puts hq hlanes (g := g) (n := n) (by simp [hi]) (runPlan_built hidle hb hok hch)
  case unreadable =>
    intro g n s q c d hq hlanes hi hidle hb hc
    exact planCommand_fails hq hlanes (g := g) (n := n) (by simp [hi]) (runPlan_unreadable hidle hb) hc
  case hints =>
    rintro g n s q i hq hlanes hmem rfl
    simp only [List.mem_cons, List.not_mem_nil, or_false] at hmem
    refine ⟨fun hp => ?_, fun h hp => ⟨fun hi => ?_, fun hi => ?_, fun hs hi hadd => ?_⟩⟩
    · obtain hi | hi | hi := hmem
      · exact planCommand_fails hq hlanes (g := g) (n := n) (by simp [hi]) (runHint_absent q hp) (by decide)
      · exact planCommand_fails hq hlanes (g := g) (n := n) (by simp [hi]) (runPin_absent q true hp) (by decide)
      · exact planCommand_fails hq hlanes (g := g) (n := n) (by simp [hi]) (runPin_absent q false hp) (by decide)
    · exact planCommand_puts hq hlanes (g := g) (n := n) (by simp [hi]) (runPin_present true hp)
    · exact planCommand_puts hq hlanes (g := g) (n := n) (by simp [hi]) (runPin_present false hp)
    · exact planCommand_puts hq hlanes (g := g) (n := n) (by simp [hi]) (runHint_added hp hadd)
  case table =>
    exact fun n h s c hc => ⟨planOf_setPlan hc n h, setPlan_c n h s, fun a ha => setPlan_mem hc h ha⟩
  case accept =>
    intro g n s q hq hf hi
    refine ⟨execPexecAccept_absent hq hf hi, fun h hp hidle hconf hslip => ⟨fun v l hv hpin => ?_, ?_⟩⟩
    · rw [← hv]
      exact execPexecAccept_fails hq hf hi hp hidle hconf hslip (acceptHandle_stale (hv ▸ List.cons_ne_nil v l) hpin)
    · rintro h0 h' (hup : upToDate s h h0) (rfl : h' = placed s h0)
      have hacc := acceptHandle_upToDate hup
      refine ⟨fun hslots => ?_, ?_⟩
      · rw [if_pos hslots] at hacc
        exact execPexecAccept_fails hq hf hi hp hidle hconf hslip hacc
      · rintro hslots r0 r1 r rfl hspec hleaves houts
        rw [if_neg hslots] at hacc
        rw [← upToDate_block hup] at hleaves houts
        exact execPexecAccept_starts hq hf hi hp hidle hconf hslip hacc hspec hleaves houts
  case breaks =>
    intro n s h r x hp hf hr htodo hx
    exact ⟨fun c d hfail => by subst hx; exact execPlanBreak_fails hp hf hr htodo hfail,
      execPlanBreak_reached hp hf hr htodo hx⟩
  case mismatch =>
    rintro n h r nodes s t hne rfl
    obtain ⟨i, hi, hm⟩ := planMismatch_node n h r s hne
    exact ⟨i, hi, fun hlt => hm.trans (if_pos hlt), fun hge => hm.trans (if_neg (Nat.not_lt.mpr hge))⟩
  case commit =>
    intro n s h r cells hp hf hr htodo hspec hcells
    have hend := execPlanBlockCommit_end hp hf hr htodo hspec hcells
    exact ⟨fun hclean => hend.trans (by rw [hclean]; rfl), fun hpoison => hend.trans (if_pos hpoison)⟩
  case binding =>
    rintro diff chk s new rfl
    refine ⟨fun hchk hact => ?_, fun hchk hact => ?_, execBindingPlaneUpdate_differs⟩ <;>
      exact (execBindingPlaneUpdate_matches hchk).trans (by simp [hact])

end Sys2Proof.Machine
end

section
/-! SUPPORT. A precise fault that nothing delays or diverts and that no handler takes: the task ends, and its launch fails with the cause
(R28, R241, R369, R371, R372). -/

namespace Sys2Proof.Machine

/-- Where nothing delays or diverts a precise fault it is delivered at once (R28, R357). -/
theorem raise_of_trapReady {k cause : Nat} {tv : Word} {s : State} (h : trapReady s = true) :
    raise k cause (some tv) s = deliver k cause tv (toHandler cause) s := by
  simp only [trapReady, Bool.and_eq_true, Bool.not_eq_true', Option.isNone_iff_eq_none, List.isEmpty_iff, List.all_eq_true,
    beq_iff_eq] at h
  obtain ⟨⟨⟨⟨hemu, hspec⟩, hlanes⟩, hpatch⟩, hcells⟩ := h
  have howes : engineOwes s.c = false := List.any_eq_false.mpr fun q hq => by simp [hcells q hq]
  have hwaits : waitsInFlight s.c = false := by rw [waitsInFlight, hlanes, howes]; rfl
  have hslot : faultSlot cause k s = none := by rw [faultSlot, hpatch]; rfl
  simp [raise, raiseWith, tvalOf, speculating, hspec, hwaits, strike, hemu, hslot]

/-- Without a handler, in handler mode, or against the cause's recipient, a fault goes to the scheduler (R369, R371). -/
theorem deliver_of_noHandler {k cause : Nat} {tv : Word} {s : State}
    (h : s.c.trap.handler = true ∨ s.c.trap.entry = none ∨ toHandler cause = false) :
    deliver k cause tv (toHandler cause) s = faultToScheduler cause k false tv s := by
  unfold deliver
  split
  · next hentry hhandler hto => simp [hentry, hhandler, hto] at h
  · rfl

theorem endByFault_mem (cause : Nat) (s : State) : (endByFault cause s).mem = s.mem := rfl

theorem endByFault_mon (cause : Nat) (s : State) : (endByFault cause s).mon = s.mon := rfl

theorem endByFault_length (cause : Nat) (s : State) : (endByFault cause s).fe.launches.length = s.fe.launches.length := List.length_map _

/-- A fault other than a residue mismatch fails the task's launch, under the first cause of it (R240, R380). -/
theorem endByFault_launches {cause : Nat} (hne : cause ≠ 0xF3) (s : State) :
    (endByFault cause s).fe.launches = s.fe.launches.map fun l => if isRow s.c.info.die s.c.info.queue s.c.info.seq l then
      failRow s.c.info.t cause { l with ranked := l.ranked ++ leftRanked s.c, far := l.far ++ s.c.far } else l := by
  have hcause : (cause == 0xF3) = false := beq_false_of_ne hne
  simp only [endByFault, hcause, Bool.false_and, Bool.false_eq_true, if_false]

theorem failRow_failed {t cause : Nat} {l : Launch} (h : l.failed = none) : (failRow t cause l).failed = some cause := by
  rw [failRow, h]; rfl

/-- A fault on its way to the scheduler ends the task behind one change of its trap registers, none in handler mode (R371). -/
theorem faultToScheduler_eq (cause slot : Nat) (deferred : Bool) (tval : Word) (s : State) :
    ∃ t, faultToScheduler cause slot deferred tval s = endByFault cause { s with c := { s.c with trap := t } }
      ∧ (s.c.trap.handler = true → t = s.c.trap) :=
  ⟨_, rfl, fun h => if_pos h⟩

/-- Settles O25: the fault is delivered to the scheduler, which ends the task and fails its launch. -/
theorem handlerFaultsEndTheTask : Obligations.HandlerFaultsEndTheTask := by
  rintro k cause tv s t hready hne hscheduler rfl
  obtain ⟨trap, hraise, hkept⟩ := faultToScheduler_eq cause k false tv s
  rw [raise_of_trapReady hready, deliver_of_noHandler hscheduler, hraise]
  refine ⟨rfl, rfl, fun hhandler => by rw [hkept hhandler]; rfl, endByFault_mem .., endByFault_mon .., endByFault_length .., ?_⟩
  intro n l hl hrow hfailed
  have hrow' : isRow ({ s.c with trap := trap } : Core).info.die s.c.info.queue s.c.info.seq l = true := hrow
  rw [endByFault_launches hne, List.getElem?_map, hl, Option.map_some, Option.map_some]
  dsimp only
  rw [if_pos hrow', failRow_failed (by exact hfailed)]

end Sys2Proof.Machine
end

section
/-! SUPPORT. The front end: what its operations leave in each field, the doorbells, ring reads, the letterbox, the launch port and the end
of packets (R274 to R288, R321 to R323). -/

namespace Sys2Proof.Machine

/-! Host writes, queues, and the end of a disable command. -/

/-- What each of a run of steps leaves, the run leaves. -/
theorem foldl_keeps {α γ : Type} {f : State → α → State} (g : State → γ) (h : ∀ s a, g (f s a) = g s) (l : List α) (s : State) :
    g (l.foldl f s) = g s := by
  induction l generalizing s with
  | nil => rfl
  | cons a l ih => rw [List.foldl_cons, ih, h]

@[simp] theorem State.writeOuter_c (l : List Host.Cell) (s : State) : (s.writeOuter l).c = s.c := by unfold State.writeOuter; split <;> rfl
@[simp] theorem State.writeOuter_mon (l : List Host.Cell) (s : State) : (s.writeOuter l).mon = s.mon := by unfold State.writeOuter; split <;> rfl
@[simp] theorem State.writeOuter_fe (l : List Host.Cell) (s : State) : (s.writeOuter l).fe = s.fe := by unfold State.writeOuter; split <;> rfl
@[simp] theorem State.writeOuter_links (l : List Host.Cell) (s : State) : (s.writeOuter l).links = s.links := by
  unfold State.writeOuter; split <;> rfl
@[simp] theorem State.writeOuter_health (l : List Host.Cell) (s : State) : (s.writeOuter l).health = s.health := by
  unfold State.writeOuter; split <;> rfl

@[simp] theorem hostPut_c (a : Nat) (bs : List Byte) (s : State) : (hostPut a bs s).c = s.c := by
  unfold hostPut; split <;> simp

@[simp] theorem hostPut_mon (a : Nat) (bs : List Byte) (s : State) : (hostPut a bs s).mon = s.mon := by
  unfold hostPut; split <;> simp

/-- A host write changes nothing of the front end but the writes that wait for the link. -/
theorem hostPut_fe (a : Nat) (bs : List Byte) (s : State) : ∃ w, (hostPut a bs s).fe = { s.fe with waiting := w } := by
  unfold hostPut
  split
  · exact ⟨s.fe.waiting, by simp⟩
  · exact ⟨_, rfl⟩

@[simp] theorem hostPut_launches (a : Nat) (bs : List Byte) (s : State) : (hostPut a bs s).fe.launches = s.fe.launches := by
  obtain ⟨w, h⟩ := hostPut_fe a bs s; rw [h]

@[simp] theorem hostPut_saved (a : Nat) (bs : List Byte) (s : State) : (hostPut a bs s).fe.saved = s.fe.saved := by
  obtain ⟨w, h⟩ := hostPut_fe a bs s; rw [h]

@[simp] theorem hostPut_letters (a : Nat) (bs : List Byte) (s : State) : (hostPut a bs s).fe.letters = s.fe.letters := by
  obtain ⟨w, h⟩ := hostPut_fe a bs s; rw [h]

@[simp] theorem queueAt_hostPut (a : Nat) (bs : List Byte) (s : State) (k : Nat) : queueAt (hostPut a bs s) k = queueAt s k := by
  obtain ⟨w, h⟩ := hostPut_fe a bs s; rw [queueAt, h]; rfl

/-- A change of a queue changes nothing but the table of queues. -/
theorem onQueue_eq (k : Nat) (f : Queue → Queue) (s : State) :
    onQueue k f s = { s with fe := { s.fe with queues := (onQueue k f s).fe.queues } } := by
  unfold onQueue; split <;> rfl

@[simp] theorem onQueue_c (k : Nat) (f : Queue → Queue) (s : State) : (onQueue k f s).c = s.c := by rw [onQueue_eq]
@[simp] theorem onQueue_mon (k : Nat) (f : Queue → Queue) (s : State) : (onQueue k f s).mon = s.mon := by rw [onQueue_eq]
@[simp] theorem onQueue_launches (k : Nat) (f : Queue → Queue) (s : State) : (onQueue k f s).fe.launches = s.fe.launches := by rw [onQueue_eq]
@[simp] theorem onQueue_saved (k : Nat) (f : Queue → Queue) (s : State) : (onQueue k f s).fe.saved = s.fe.saved := by rw [onQueue_eq]
@[simp] theorem onQueue_letters (k : Nat) (f : Queue → Queue) (s : State) : (onQueue k f s).fe.letters = s.fe.letters := by rw [onQueue_eq]

/-- The queues after the change of one. -/
theorem queueAt_onQueue (k : Nat) (f : Queue → Queue) (s : State) (j : Nat) :
    queueAt (onQueue k f s) j = if j = k then (queueAt s k).map f else queueAt s j := by
  unfold onQueue
  cases hq : queueAt s k with
  | none =>
    dsimp only
    split
    · next h => rw [h, hq]; rfl
    · rfl
  | some x =>
    change SMap.get? (SMap.put s.fe.queues k (f x)) j = _
    rw [SMap.get?_put]; rfl

theorem queueAt_onQueue_same {k : Nat} {f : Queue → Queue} {s : State} {x : Queue} (h : queueAt s k = some x) :
    queueAt (onQueue k f s) k = some (f x) := by
  rw [queueAt_onQueue, if_pos rfl, h]; rfl

@[simp] theorem mailDone_c (die : BitVec 2) (tag : BitVec 16) (op status detail : Nat) (resp : List Byte) (s : State) :
    (mailDone die tag op status detail resp s).c = s.c := rfl

@[simp] theorem mailDone_fe (die : BitVec 2) (tag : BitVec 16) (op status detail : Nat) (resp : List Byte) (s : State) :
    (mailDone die tag op status detail resp s).fe = s.fe := rfl

@[simp] theorem mailDone_ctxs (die : BitVec 2) (tag : BitVec 16) (op status detail : Nat) (resp : List Byte) (s : State) :
    (mailDone die tag op status detail resp s).mon.ctxs = s.mon.ctxs := rfl

/-- The completion of a disable command touches the mark of its queue and the mailbox (R284). -/
theorem settleDisable_cases (k : Nat) (s : State) : settleDisable k s = s
    ∨ ∃ m, settleDisable k s = { onQueue k (fun x => { x with disabling := false }) s with mon := { s.mon with mail := m } } := by
  unfold settleDisable
  cases hq : queueAt s k with
  | none => exact .inl rfl
  | some x =>
    dsimp only
    split
    · exact .inr ⟨_, by rw [mailDone, onQueue_mon]⟩
    · exact .inl rfl

@[simp] theorem settleDisable_c (k : Nat) (s : State) : (settleDisable k s).c = s.c := by
  obtain h | ⟨m, h⟩ := settleDisable_cases k s <;> rw [h]
  exact onQueue_c ..

@[simp] theorem settleDisable_ctxs (k : Nat) (s : State) : (settleDisable k s).mon.ctxs = s.mon.ctxs := by
  obtain h | ⟨m, h⟩ := settleDisable_cases k s <;> rw [h]

@[simp] theorem settleDisable_launches (k : Nat) (s : State) : (settleDisable k s).fe.launches = s.fe.launches := by
  obtain h | ⟨m, h⟩ := settleDisable_cases k s <;> rw [h]
  exact onQueue_launches ..

@[simp] theorem settleDisable_saved (k : Nat) (s : State) : (settleDisable k s).fe.saved = s.fe.saved := by
  obtain h | ⟨m, h⟩ := settleDisable_cases k s <;> rw [h]
  exact onQueue_saved ..

theorem settleDisable_of_not_disabling {k : Nat} {s : State} {x : Queue} (h : queueAt s k = some x) (hx : x.disabling = false) :
    settleDisable k s = s := by
  unfold settleDisable; rw [h]; dsimp only; rw [hx]; rfl

/-- The wake of idle queues touches their shares alone (R293). -/
theorem wakeQueues_eq (s t : State) : ∃ m, wakeQueues s t = { t with fe := { t.fe with shares := m } } := by
  have hidle (k : Nat) (t : State) : idleShare k t = { t with fe := { t.fe with shares := (idleShare k t).fe.shares } } := by
    unfold idleShare; dsimp only; split <;> rfl
  unfold wakeQueues
  generalize ((t.fe.launches.map fun l => qKey l.die l.q).eraseDups).filter (fun k => !queueActive s k && queueActive t k) = l
  induction l generalizing t with
  | nil => exact ⟨t.fe.shares, rfl⟩
  | cons k l ih =>
    obtain ⟨m, h⟩ := ih (idleShare k t)
    refine ⟨m, h.trans ?_⟩
    rw [hidle k t]

/-! The order of queues' entries: a queue of a context stays one, and none comes into service. -/

/-- Every queue of s stands in t for the same context, and none that is out of service has come into service. -/
def queuesStand (s t : State) : Prop :=
  ∀ k x, queueAt s k = some x → ∃ y, queueAt t k = some y ∧ y.e.ctx = x.e.ctx ∧ (x.e.en = false → y.e.en = false)

theorem queuesStand_of_eq {s t : State} (h : t.fe.queues = s.fe.queues) : queuesStand s t :=
  fun k x hx => ⟨x, by rw [queueAt, h]; exact hx, rfl, id⟩

theorem queuesStand_trans {s t u : State} (h : queuesStand s t) (h' : queuesStand t u) : queuesStand s u := by
  intro k x hx
  obtain ⟨y, hy, hctx, hen⟩ := h k x hx
  obtain ⟨z, hz, hctx', hen'⟩ := h' k y hy
  exact ⟨z, hz, hctx'.trans hctx, fun hoff => hen' (hen hoff)⟩

theorem queuesStand_onQueue {k : Nat} {f : Queue → Queue} {s : State} (hctx : ∀ x, (f x).e.ctx = x.e.ctx)
    (hen : ∀ x, x.e.en = false → (f x).e.en = false) : queuesStand s (onQueue k f s) := by
  intro j x hx
  rw [queueAt_onQueue]
  split
  · next h => subst h; rw [hx]; exact ⟨f x, rfl, hctx x, hen x⟩
  · exact ⟨x, hx, rfl, id⟩

theorem queuesStand_settleDisable (k : Nat) (s : State) : queuesStand s (settleDisable k s) := by
  obtain h | ⟨m, h⟩ := settleDisable_cases k s <;> rw [h]
  · exact queuesStand_of_eq rfl
  · exact queuesStand_onQueue (k := k) (f := fun x => { x with disabling := false }) (fun _ => rfl) fun _ => id

theorem queuesStand_foldl {α : Type} {f : State → α → State} (h : ∀ s a, queuesStand s (f s a)) (l : List α) (s : State) :
    queuesStand s (l.foldl f s) := by
  induction l generalizing s with
  | nil => exact queuesStand_of_eq rfl
  | cons a l ih => exact queuesStand_trans (h s a) (ih (f s a))

/-! The end of a packet (R285, R288). -/

/-- t is s but for memory, the writes that wait for the link, and the queue of key k, which is y. -/
def touchesQueue (k : Nat) (y : Option Queue) (s t : State) : Prop :=
  t.c = s.c ∧ t.mon = s.mon ∧ t.fe.saved = s.fe.saved ∧ t.fe.launches = s.fe.launches
    ∧ ∀ j, queueAt t j = if j = k then y else queueAt s j

theorem touchesQueue_refl (k : Nat) (s : State) : touchesQueue k (queueAt s k) s s :=
  ⟨rfl, rfl, rfl, rfl, fun j => by split <;> simp [*]⟩

theorem touchesQueue_trans {k : Nat} {y z : Option Queue} {s t u : State} (h : touchesQueue k y s t) (h' : touchesQueue k z t u) :
    touchesQueue k z s u := by
  obtain ⟨hc, hmon, hsaved, hlaunches, hq⟩ := h
  obtain ⟨hc', hmon', hsaved', hlaunches', hq'⟩ := h'
  refine ⟨hc'.trans hc, hmon'.trans hmon, hsaved'.trans hsaved, hlaunches'.trans hlaunches, fun j => ?_⟩
  rw [hq', hq]
  split <;> rfl

theorem touchesQueue_at {k : Nat} {y : Option Queue} {s t : State} (h : touchesQueue k y s t) : queueAt t k = y :=
  (h.2.2.2.2 k).trans (if_pos rfl)

theorem touchesQueue_hostPut (k a : Nat) (bs : List Byte) (s : State) : touchesQueue k (queueAt s k) s (hostPut a bs s) := by
  refine ⟨hostPut_c .., hostPut_mon .., hostPut_saved .., hostPut_launches .., fun j => ?_⟩
  rw [queueAt_hostPut]
  split <;> simp [*]

theorem touchesQueue_onQueue (k : Nat) (f : Queue → Queue) (s : State) : touchesQueue k ((queueAt s k).map f) s (onQueue k f s) :=
  ⟨onQueue_c .., onQueue_mon .., onQueue_saved .., onQueue_launches .., queueAt_onQueue k f s⟩

/-- The error log takes the end of a packet that failed (R285). -/
def logFail (k seq : Nat) (fail : Option (Nat × Nat)) (x : Queue) (s : State) : State :=
  match fail with
  | some (reason, cause) =>
    onQueue k (fun x => { x with fails := x.fails + 1 }) (hostPut (x.e.erra + 16 * (x.fails % 16))
      (natLe 8 seq ++ natLe 1 reason ++ natLe 1 (if reason = 32 then cause else 0) ++ natLe 6 0) s)
  | none => s

/-- A packet of a queue has ended: in the queue's count of failures where it failed, and in its completion number. -/
def endedQueue (seq : Nat) (fail : Option (Nat × Nat)) (x : Queue) : Queue :=
  let d := advanceDone (x.ended.length + 1) x.done (seq :: x.ended)
  { x with fails := x.fails + fail.toList.length, done := d, ended := (seq :: x.ended).filter fun n => decide (d < n) }

theorem touchesQueue_logFail {k : Nat} {s : State} {x : Queue} (h : queueAt s k = some x) (seq : Nat) (fail : Option (Nat × Nat)) :
    touchesQueue k (some { x with fails := x.fails + fail.toList.length }) s (logFail k seq fail x s) := by
  cases fail with
  | none => exact h ▸ touchesQueue_refl k s
  | some p =>
    have hput := touchesQueue_hostPut k (x.e.erra + 16 * (x.fails % 16))
      (natLe 8 seq ++ natLe 1 p.1 ++ natLe 1 (if p.1 = 32 then p.2 else 0) ++ natLe 6 0) s
    have hon := touchesQueue_onQueue k (fun x => { x with fails := x.fails + 1 }) (hostPut (x.e.erra + 16 * (x.fails % 16))
      (natLe 8 seq ++ natLe 1 p.1 ++ natLe 1 (if p.1 = 32 then p.2 else 0) ++ natLe 6 0) s)
    rw [touchesQueue_at hput, h] at hon
    exact touchesQueue_trans hput hon

/-- The completion word of a queue is written where the completion number has moved (R288). -/
def writeDone (d : Nat) (x : Queue) (s : State) : State := if d = x.done then s else hostPut x.e.donea (natLe 8 d) s

theorem touchesQueue_writeDone (k d : Nat) (x : Queue) (s : State) : touchesQueue k (queueAt s k) s (writeDone d x s) := by
  unfold writeDone
  split
  · exact touchesQueue_refl k s
  · exact touchesQueue_hostPut ..

/-- The state without the launch of a packet. -/
def withoutLaunch (die q seq : Nat) (s : State) : State :=
  { s with fe := { s.fe with launches := s.fe.launches.filter fun l => !isRow die q seq l } }

theorem endPacket_of_absent {die q : Nat} {s : State} (h : queueAt s (qKey die q) = none) (seq : Nat) (fail : Option (Nat × Nat)) :
    endPacket die q seq fail s = s := by
  unfold endPacket; dsimp only; rw [h]

/-- The end of a packet, but for the completion of a disable command and the wake of queues: its launch goes, and its queue takes the
end. -/
theorem endPacket_of_queue {die q : Nat} {s : State} {x : Queue} (h : queueAt s (qKey die q) = some x) (seq : Nat)
    (fail : Option (Nat × Nat)) : ∃ t, endPacket die q seq fail s = wakeQueues s (settleDisable (qKey die q) t)
      ∧ touchesQueue (qKey die q) (some (endedQueue seq fail x)) (withoutLaunch die q seq s) t := by
  have hlog := touchesQueue_logFail (s := withoutLaunch die q seq s) h seq fail
  have hend := touchesQueue_onQueue (qKey die q) (fun y => { y with
    done := (endedQueue seq fail x).done, ended := (endedQueue seq fail x).ended }) (logFail (qKey die q) seq fail x (withoutLaunch die q seq s))
  rw [touchesQueue_at hlog] at hend
  have hword := touchesQueue_writeDone (qKey die q) (endedQueue seq fail x).done x (onQueue (qKey die q) (fun y => { y with
    done := (endedQueue seq fail x).done, ended := (endedQueue seq fail x).ended }) (logFail (qKey die q) seq fail x (withoutLaunch die q seq s)))
  rw [touchesQueue_at hend] at hword
  refine ⟨_, ?_, touchesQueue_trans hlog (touchesQueue_trans hend hword)⟩
  unfold endPacket; dsimp only; rw [h]; rfl

section
variable (die q seq : Nat) (fail : Option (Nat × Nat)) (s : State)

/-- What the end of a packet leaves, whether or not its queue stands. -/
theorem endPacket_leaves : (endPacket die q seq fail s).c = s.c ∧ (endPacket die q seq fail s).mon.ctxs = s.mon.ctxs
    ∧ (endPacket die q seq fail s).fe.saved = s.fe.saved := by
  cases hq : queueAt s (qKey die q) with
  | none => rw [endPacket_of_absent hq]; exact ⟨rfl, rfl, rfl⟩
  | some x =>
    obtain ⟨t, ht, hc, hmon, hsaved, -, -⟩ := endPacket_of_queue hq seq fail
    obtain ⟨m, hwake⟩ := wakeQueues_eq s (settleDisable (qKey die q) t)
    rw [ht, hwake]
    exact ⟨(settleDisable_c ..).trans hc, (settleDisable_ctxs ..).trans (congrArg Monitor.ctxs hmon), (settleDisable_saved ..).trans hsaved⟩

@[simp] theorem endPacket_c : (endPacket die q seq fail s).c = s.c := (endPacket_leaves ..).1
@[simp] theorem endPacket_ctxs : (endPacket die q seq fail s).mon.ctxs = s.mon.ctxs := (endPacket_leaves ..).2.1
@[simp] theorem endPacket_saved : (endPacket die q seq fail s).fe.saved = s.fe.saved := (endPacket_leaves ..).2.2

/-- A packet's launch goes with it, where its queue stands. -/
theorem endPacket_launches {s : State} {x : Queue} (h : queueAt s (qKey die q) = some x) :
    (endPacket die q seq fail s).fe.launches = s.fe.launches.filter fun l => !isRow die q seq l := by
  obtain ⟨t, ht, -, -, -, hlaunches, -⟩ := endPacket_of_queue h seq fail
  obtain ⟨m, hwake⟩ := wakeQueues_eq s (settleDisable (qKey die q) t)
  rw [ht, hwake]
  exact (settleDisable_launches ..).trans hlaunches

theorem mem_launches_of_endPacket {l : Launch} (hl : l ∈ (endPacket die q seq fail s).fe.launches) : l ∈ s.fe.launches := by
  cases hq : queueAt s (qKey die q) with
  | none => rwa [endPacket_of_absent hq] at hl
  | some x => rw [endPacket_launches die q seq fail hq] at hl; exact (List.mem_filter.mp hl).1

theorem queuesStand_endPacket : queuesStand s (endPacket die q seq fail s) := by
  cases hq : queueAt s (qKey die q) with
  | none => rw [endPacket_of_absent hq]; exact queuesStand_of_eq rfl
  | some x =>
    obtain ⟨t, ht, -, -, -, -, hqueues⟩ := endPacket_of_queue hq seq fail
    obtain ⟨m, hwake⟩ := wakeQueues_eq s (settleDisable (qKey die q) t)
    have hstand : queuesStand s t := by
      intro k y hy
      rw [hqueues]
      split
      · next hk =>
        rw [hk, hq] at hy
        obtain rfl := Option.some.inj hy
        exact ⟨_, rfl, rfl, id⟩
      · exact ⟨y, hy, rfl, id⟩
    rw [ht, hwake]
    exact queuesStand_trans hstand (queuesStand_settleDisable (qKey die q) t)

end

/-- A packet that ends without a failure, on a queue that is not being disabled: its completion number covers every number below the
first that has not ended. -/
theorem endPacket_done {die q : Nat} {s : State} {x : Queue} (h : queueAt s (qKey die q) = some x) (hx : x.disabling = false) (seq : Nat) :
    queueAt (endPacket die q seq none s) (qKey die q) = some (endedQueue seq none x) := by
  obtain ⟨t, ht, hrun⟩ := endPacket_of_queue h seq none
  obtain ⟨m, hwake⟩ := wakeQueues_eq s (settleDisable (qKey die q) t)
  have hq : queueAt t (qKey die q) = some (endedQueue seq none x) := touchesQueue_at hrun
  rw [ht, hwake, settleDisable_of_not_disabling hq hx]
  exact hq

theorem le_advanceDone (n d : Nat) (ended : List Nat) : d ≤ advanceDone n d ended := by
  induction n generalizing d with
  | zero => exact Nat.le_refl d
  | succ n ih =>
    unfold advanceDone
    split
    · exact Nat.le_of_succ_le (ih (d + 1))
    · exact Nat.le_refl d

/-- Every number that the completion number passes has ended (R288). -/
theorem mem_ended_of_le_advanceDone (n d : Nat) (ended : List Nat) {m : Nat} (hlo : d < m) (hhi : m ≤ advanceDone n d ended) :
    m ∈ ended := by
  induction n generalizing d with
  | zero => exact absurd hhi (Nat.not_le.mpr hlo)
  | succ n ih =>
    unfold advanceDone at hhi
    split at hhi
    · next hd =>
      obtain rfl | hlt := Nat.eq_or_lt_of_le hlo
      · exact List.contains_iff_mem.mp hd
      · exact ih (d + 1) hlt hhi
    · exact absurd hhi (Nat.not_le.mpr hlo)

end Sys2Proof.Machine
end

section
/-! SUPPORT. The events of the front end: doorbells, ring reads, the letterbox, the launch port (R278 to R285, R321, R322). -/

namespace Sys2Proof.Machine

/-! The doorbell (R279, R284, R321, R322, R338). -/

section
variable (ctx : BitVec 12) (die : BitVec 2) {v : Word} {s : State} (hlink : s.links.linkUp = true) (hpower : s.health.power ≠ 3)
include hlink hpower

theorem execDoorbell_noIde (hide : s.links.ide = false) :
    execDoorbell ctx die v s = .next { s with links := { s.links with io := none } } := by
  simp [execDoorbell, hlink, hpower, hide]

variable (hide : s.links.ide = true)
include hide

/-- Under IDE a doorbell is that of an enabled queue of its context, or counts as a duplicate. -/
theorem execDoorbell_served : execDoorbell ctx die v s =
    if (queueAt s (qKey die.toNat (v.toNat / 2 ^ 54))).any fun x => x.e.en && decide (x.e.ctx = ctx.toNat) then
      .next (postLetter die.toNat (v.toNat / 2 ^ 54) (v.toNat % 2 ^ 54) { s with health := { s.health with power := 0 } })
    else .next (countDup die s) := by
  have hdown : (!s.links.linkUp || s.health.power == 3) = false := by simp [hlink, hpower]
  unfold execDoorbell
  rw [if_neg (by rw [hdown]; exact Bool.false_ne_true), if_neg (by rw [hide]; exact Bool.false_ne_true)]
  dsimp only
  cases queueAt s (qKey die.toNat (v.toNat / 2 ^ 54)) <;> rfl

theorem execDoorbell_duplicate
    (h : ∀ x, queueAt s (qKey die.toNat (v.toNat / 2 ^ 54)) = some x → x.e.en = false ∨ x.e.ctx ≠ ctx.toNat) :
    execDoorbell ctx die v s = .next (countDup die s) := by
  rw [execDoorbell_served ctx die hlink hpower hide, if_neg]
  rw [Option.any_eq_true]
  rintro ⟨x, hx, hboth⟩
  obtain hen | hctx := h x hx <;> simp_all

theorem execDoorbell_posts {x : Queue} (hq : queueAt s (qKey die.toNat (v.toNat / 2 ^ 54)) = some x) (hen : x.e.en = true)
    (hctx : x.e.ctx = ctx.toNat) : execDoorbell ctx die v s =
      .next (postLetter die.toNat (v.toNat / 2 ^ 54) (v.toNat % 2 ^ 54) { s with health := { s.health with power := 0 } }) := by
  rw [execDoorbell_served ctx die hlink hpower hide, if_pos]
  rw [Option.any_eq_true]
  exact ⟨x, hq, by rw [hen, decide_eq_true hctx]; rfl⟩

end

/-- Does a letter stand for a queue of a die, unread? -/
def unreadOf (die q : Nat) (e : LetterEntry) : Bool := e.die == die && e.q == q && !e.read

theorem unreadOf_iff {die q : Nat} {e : LetterEntry} : unreadOf die q e = true ↔ e.die = die ∧ e.q = q ∧ e.read = false := by
  simp [unreadOf, and_assoc]

/-- A doorbell goes to the letterbox: merged into an unread entry, appended where there is room, else its overflow bit (R279). -/
theorem postLetter_eq (die q n : Nat) (s : State) : postLetter die q n s =
    if s.fe.letters.any (unreadOf die q) then
      { s with fe := { s.fe with letters := s.fe.letters.map fun e => if unreadOf die q e then { e with seq := max e.seq n } else e } }
    else if (s.fe.letters.filter fun e => e.die == die).length < 64 then
      { s with fe := { s.fe with letters := s.fe.letters ++ [⟨die, q, n, false⟩] } }
    else
      { s with fe := { s.fe with overflow :=
        if s.fe.overflow.contains (qKey die q) then s.fe.overflow else qKey die q :: s.fe.overflow } } := rfl

theorem postLetter_health (die q n : Nat) (s : State) : (postLetter die q n s).health = s.health := by
  rw [postLetter_eq]; split
  · rfl
  · split <;> rfl

theorem postLetter_merges {die q : Nat} {e : LetterEntry} {s : State} (n : Nat) (he : e ∈ s.fe.letters) (hhit : unreadOf die q e = true) :
    (postLetter die q n s).fe.overflow = s.fe.overflow ∧ (postLetter die q n s).fe.letters
      = s.fe.letters.map fun e => if unreadOf die q e then { e with seq := max e.seq n } else e := by
  rw [postLetter_eq, if_pos (List.any_eq_true.mpr ⟨e, he, hhit⟩)]
  exact ⟨rfl, rfl⟩

theorem postLetter_appends {die q : Nat} {s : State} (n : Nat) (hnone : ∀ e ∈ s.fe.letters, unreadOf die q e = false)
    (hroom : (s.fe.letters.filter fun e => e.die == die).length < 64) :
    (postLetter die q n s).fe.letters = s.fe.letters ++ [⟨die, q, n, false⟩] ∧ (postLetter die q n s).fe.overflow = s.fe.overflow := by
  have hany : s.fe.letters.any (unreadOf die q) = false := List.any_eq_false.mpr fun e he => by rw [hnone e he]; exact Bool.false_ne_true
  rw [postLetter_eq, if_neg (by rw [hany]; exact Bool.false_ne_true), if_pos hroom]
  exact ⟨rfl, rfl⟩

theorem postLetter_overflows {die q : Nat} {s : State} (n : Nat) (hnone : ∀ e ∈ s.fe.letters, unreadOf die q e = false)
    (hfull : 64 ≤ (s.fe.letters.filter fun e => e.die == die).length) :
    (postLetter die q n s).fe.letters = s.fe.letters ∧ qKey die q ∈ (postLetter die q n s).fe.overflow := by
  have hany : s.fe.letters.any (unreadOf die q) = false := List.any_eq_false.mpr fun e he => by rw [hnone e he]; exact Bool.false_ne_true
  rw [postLetter_eq, if_neg (by rw [hany]; exact Bool.false_ne_true), if_neg (Nat.not_lt.mpr hfull)]
  refine ⟨rfl, ?_⟩
  dsimp only
  split
  · next h => exact List.contains_iff_mem.mp h
  · exact List.mem_cons_self ..

/-! Ring reads and the letterbox (R276 to R281). -/

theorem execFrontEndRingRead_reads {die : BitVec 2} {q : BitVec 10} {s : State} {x : Queue}
    (hq : queueAt s (qKey die.toNat q.toNat) = some x) (hen : x.e.en = true) (hcxl : cxlUp s = true)
    (hheld : doorbellHeld die.toNat q.toNat s = true) : execFrontEndRingRead die q s = .next (onQueue (qKey die.toNat q.toNat)
      (fun x => { x with read := ringPackets s (s.mem.length + s.outer.length) (cursorOf x) }) s) := by
  simp [execFrontEndRingRead, hq, hen, hcxl, hheld]

theorem followLink_seq {s : State} {p p' : RingPos} (h : followLink s p = some p') : p'.seq = p.seq := by
  unfold followLink at h
  split at h
  · rw [← Option.some.inj h]
  · dsimp only at h
    split at h
    · rw [← Option.some.inj h]
    · cases h

/-- The packets of a ring read follow on in their sequence numbers (R278). -/
theorem ringPackets_follow (s : State) (n : Nat) (p : RingPos) {j : Nat} {pk : Packet} (h : (ringPackets s n p)[j]? = some pk) :
    pk.seq = p.seq + j ∧ pk.type ≠ 0 := by
  induction n generalizing p j with
  | zero => cases h
  | succ n ih =>
    unfold ringPackets at h
    split at h
    · cases h
    · next p' hp =>
      dsimp only at h
      split at h
      · cases h
      · next hk =>
        obtain ⟨htype, hseq⟩ := not_or.mp hk
        rw [not_not] at hseq
        cases j with
        | zero =>
          rw [← Option.some.inj h]
          exact ⟨hseq.trans (followLink_seq hp), htype⟩
        | succ j =>
          obtain ⟨hseq', htype'⟩ := ih _ h
          exact ⟨by rw [hseq', ← followLink_seq hp]; dsimp only; omega, htype'⟩

/-- A letterbox read marks the first entry of the die that is unread (R280). -/
theorem markRead_first {die : Nat} {l : List LetterEntry} (h : ∃ e ∈ l, e.die = die ∧ e.read = false) :
    ∃ a e b, markRead die l = a ++ { e with read := true } :: b ∧ l = a ++ e :: b ∧ e.die = die ∧ e.read = false
      ∧ ∀ x ∈ a, x.die = die → x.read = true := by
  induction l with
  | nil => obtain ⟨e, he, -⟩ := h; cases he
  | cons x l ih =>
    unfold markRead
    by_cases hx : x.die = die ∧ x.read = false
    · refine ⟨[], x, l, ?_, rfl, hx.1, hx.2, fun y hy => nomatch hy⟩
      rw [if_pos (by simpa using hx)]; rfl
    · obtain ⟨e, he, hdie, hread⟩ := h
      have hrest : e ∈ l := (List.mem_cons.mp he).resolve_left fun heq => hx (heq ▸ ⟨hdie, hread⟩)
      obtain ⟨a, e', b, hmark, hl, hdie', hread', hbefore⟩ := ih ⟨e, hrest, hdie, hread⟩
      refine ⟨x :: a, e', b, ?_, by rw [hl]; rfl, hdie', hread', fun y hy hyd => ?_⟩
      · rw [if_neg (by simpa using hx), hmark]; rfl
      · obtain rfl | hy := List.mem_cons.mp hy
        · exact Bool.not_eq_false _ ▸ fun hf => hx ⟨hyd, hf⟩
        · exact hbefore y hy hyd

theorem execLetterboxRead_marks {die : BitVec 2} {s : State} (h : ∃ e ∈ s.fe.letters, e.die = die.toNat ∧ e.read = false) :
    execLetterboxRead die s = .next { s with fe := { s.fe with letters := markRead die.toNat s.fe.letters } } := by
  obtain ⟨e, he, hdie, hread⟩ := h
  exact if_pos (List.any_eq_true.mpr ⟨e, he, by simp [hdie, hread]⟩)

/-- The return of a drained segment writes memory of the host alone (R277). -/
theorem touchesQueue_returnSegment (k pool seg : Nat) (s : State) : touchesQueue k (queueAt s k) s (returnSegment pool seg s) := by
  have hput (t : State) (h : touchesQueue k (queueAt s k) s t) (a : Nat) (bs : List Byte) :
      touchesQueue k (queueAt s k) s (hostPut a bs t) := by
    have := touchesQueue_hostPut k a bs t
    rw [touchesQueue_at h] at this
    exact touchesQueue_trans h this
  unfold returnSegment
  dsimp only
  split
  · exact hput s (touchesQueue_refl k s) ..
  · exact hput _ (hput s (touchesQueue_refl k s) ..) ..

theorem returnSegment_letters (pool seg : Nat) (s : State) : (returnSegment pool seg s).fe.letters = s.fe.letters := by
  unfold returnSegment
  dsimp only
  split <;> simp

theorem queueAt_returnSegment (pool seg : Nat) (s : State) (k : Nat) : queueAt (returnSegment pool seg s) k = queueAt s k :=
  touchesQueue_at (touchesQueue_returnSegment k pool seg s)

theorem moveCursor_letters (k : Nat) (s : State) : (moveCursor k s).fe.letters = s.fe.letters := by
  unfold moveCursor
  cases queueAt s k with
  | none => rfl
  | some x =>
    exact (foldl_keeps (·.fe.letters) (fun t seg => returnSegment_letters ..) ..).trans (onQueue_letters ..)

/-- The cursor moves past the last packet that has gone to the port (R281). -/
theorem moveCursor_curSeq {k : Nat} {s : State} {x : Queue} (h : queueAt s k = some x) :
    (queueAt (moveCursor k s) k).map (fun y => y.curSeq) = some (ringMove s (x.lastSeq + 1 - x.curSeq) (cursorOf x)).1.seq := by
  unfold moveCursor
  rw [h]
  dsimp only
  rw [foldl_keeps (queueAt · k) (fun t seg => queueAt_returnSegment ..), queueAt_onQueue_same h]
  rfl

theorem execLetterboxRetire_retires {die : BitVec 2} {q : BitVec 10} {s : State} {x : Queue} {e : LetterEntry}
    (hq : queueAt s (qKey die.toNat q.toNat) = some x) (hcxl : cxlUp s = true)
    (he : (s.fe.letters.find? fun e => e.die == die.toNat && e.q == q.toNat && e.read) = some e) (hseq : e.seq ≤ x.lastSeq) :
    execLetterboxRetire die q s = .next { moveCursor (qKey die.toNat q.toNat) s with fe := { (moveCursor (qKey die.toNat q.toNat) s).fe with
      letters := dropLetter die.toNat q.toNat (moveCursor (qKey die.toNat q.toNat) s).fe.letters } } := by
  simp [execLetterboxRetire, hq, hcxl, he, hseq]

/-! The launch port (R278, R282, R283, R285). -/

section
variable {die : BitVec 2} {q seq : Nat} {s : State} {x : Queue} (hq : queueAt s (qKey die.toNat q) = some x) (hen : x.e.en = true)
include hq hen

theorem portWrite_busy (name : String) (f : Queue → State → Out)
    (hfull : 256 ≤ (s.fe.launches.filter fun l => l.die == die.toNat).length) : portWrite name die q seq f s = .next s := by
  simp [portWrite, hq, hen, hfull]

variable (hroom : (s.fe.launches.filter fun l => l.die == die.toNat).length < 256)
include hroom

theorem portWrite_duplicate (name : String) (f : Queue → State → Out) (hseq : seq ≤ x.lastSeq) :
    portWrite name die q seq f s = .next (countDup die s) := by
  simp [portWrite, hq, hen, Nat.not_le.mpr hroom, hseq]

theorem portWrite_gap (name : String) (f : Queue → State → Out) (hseq : x.lastSeq + 1 < seq) :
    portWrite name die q seq f s = .next (monitorCause 0xD8 s) := by
  have hnew : ¬seq ≤ x.lastSeq := by omega
  simp [portWrite, hq, hen, Nat.not_le.mpr hroom, hnew, hseq]

theorem portWrite_taken (name : String) (f : Queue → State → Out) (hseq : seq = x.lastSeq + 1) : portWrite name die q seq f s =
    f x (onQueue (qKey die.toNat q) (fun x => { x with lastSeq := seq, read := x.read.filter fun y => decide (seq < y.seq) }) s) := by
  have hnew : ¬seq ≤ x.lastSeq := by omega
  have hnext : ¬x.lastSeq + 1 < seq := by omega
  simp [portWrite, hq, hen, Nat.not_le.mpr hroom, hnew, hnext]

end

/-- What the port makes of a packet that is next in its queue (R278, R285). -/
def takePacket (die : BitVec 2) (q : BitVec 10) (pk : Packet) (s : State) (x : Queue) (t : State) : Out :=
  if (packetRefusal s die.toNat x pk).isSome then notNow "LAUNCH_PORT_WRITE"
  else if pk.type = 4 then .next (endPacket die.toNat q.toNat pk.seq none t)
  else .next (wakeQueues t { t with fe := { t.fe with launches := t.fe.launches ++ [newLaunch die.toNat q.toNat x.e.ctx pk] } })

theorem exec_launchPortWrite (die : BitVec 2) (q : BitVec 10) (pk : Packet) (s : State) : exec (.launchPortWrite die q pk) s =
    portWrite "LAUNCH_PORT_WRITE" die q.toNat pk.seq (takePacket die q pk s) s := rfl

theorem takePacket_good {die : BitVec 2} {q : BitVec 10} {pk : Packet} {s : State} {x : Queue} (t : State)
    (hok : packetRefusal s die.toNat x pk = none) : takePacket die q pk s x t =
      if pk.type = 4 then .next (endPacket die.toNat q.toNat pk.seq none t)
      else .next (wakeQueues t { t with fe := { t.fe with
        launches := t.fe.launches ++ [newLaunch die.toNat q.toNat x.e.ctx pk] } }) := by
  rw [takePacket, hok]; rfl

theorem execLaunchPortRefusalWrite_refuses {die : BitVec 2} {q : BitVec 10} {seq : Nat} {reason : BitVec 8} {pk : Packet} {s : State}
    {x : Queue} (hq : queueAt s (qKey die.toNat q.toNat) = some x) (hen : x.e.en = true)
    (hroom : (s.fe.launches.filter fun l => l.die == die.toNat).length < 256) (hseq : seq = x.lastSeq + 1)
    (hread : (x.read.find? fun y => y.seq == seq) = some pk) (hreason : packetRefusal s die.toNat x pk = some reason.toNat) :
    execLaunchPortRefusalWrite die q seq reason s = .next (endPacket die.toNat q.toNat seq (some (reason.toNat, 0))
      (onQueue (qKey die.toNat q.toNat) (fun x => { x with
        lastSeq := seq, read := x.read.filter fun y => decide (seq < y.seq) }) s)) := by
  rw [execLaunchPortRefusalWrite, portWrite_taken hq hen hroom _ _ hseq]
  simp only [hread, hreason, if_true]

/-- Settles O54: each event of the front end answers by the lemma above about its own function. -/
theorem queueEvents : Obligations.QueueEvents := by
  refine ⟨?doorbell, ?ring, fun s n p j pk h => ringPackets_follow s n p h, ?read, ?retire, ?mask, ?port, ?refusal,
    fun n d ended => ⟨le_advanceDone n d ended, fun m => mem_ended_of_le_advanceDone n d ended⟩, ?packet⟩
  case doorbell =>
    rintro ctx die v s q n k hlink hpower rfl rfl rfl
    refine ⟨execDoorbell_noIde ctx die hlink hpower, fun hide => execDoorbell_duplicate ctx die hlink hpower hide, ?_⟩
    intro hide x hq hen hctx
    refine ⟨_, execDoorbell_posts ctx die hlink hpower hide hq hen hctx, postLetter_health .., ?_, ?_⟩
    · intro e he hdie hqe hread
      have hmerge := postLetter_merges (s := { s with health := { s.health with power := 0 } }) (v.toNat % 2 ^ 54) he
        (unreadOf_iff.mpr ⟨hdie, hqe, hread⟩)
      simpa only [unreadOf_iff] using hmerge
    · intro hnone
      have hnone' : ∀ e ∈ s.fe.letters, unreadOf die.toNat (v.toNat / 2 ^ 54) e = false := fun e he => by
        rw [← Bool.not_eq_true, unreadOf_iff]
        rintro ⟨hdie, hqe, hread⟩
        rw [hnone e he hdie hqe] at hread; cases hread
      exact ⟨postLetter_appends (s := { s with health := { s.health with power := 0 } }) _ hnone',
        postLetter_overflows (s := { s with health := { s.health with power := 0 } }) _ hnone'⟩
  case ring =>
    rintro die q s x k rfl hq hen hcxl hheld
    refine ⟨_, execFrontEndRingRead_reads hq hen hcxl hheld, ?_, onQueue_eq .., fun j hj => ?_⟩
    · exact congrArg (Option.map (·.read)) (queueAt_onQueue_same hq)
    · exact (queueAt_onQueue ..).trans (if_neg hj)
  case read =>
    intro die s h
    obtain ⟨a, e, b, hmark, hl, hdie, hread, hbefore⟩ := markRead_first h
    exact ⟨a, e, b, by rw [← hmark]; exact execLetterboxRead_marks h, hl, hdie, hread, hbefore⟩
  case retire =>
    rintro die q s x e k rfl hq hcxl he hseq
    exact ⟨_, execLetterboxRetire_retires hq hcxl he hseq, congrArg _ (moveCursor_letters ..), moveCursor_curSeq hq⟩
  case mask =>
    refine fun die s => ⟨_, rfl, rfl, fun k => ?_, rfl⟩
    simp only [List.mem_eraseDups, List.mem_append, List.mem_filter, beq_iff_eq]
  case port =>
    rintro die q pk s x k rfl hq hen
    rw [exec_launchPortWrite]
    refine ⟨portWrite_busy hq hen _ _, fun hroom => ⟨portWrite_duplicate hq hen hroom _ _, portWrite_gap hq hen hroom _ _, ?_⟩⟩
    rintro hseq hok t rfl
    rw [portWrite_taken hq hen hroom _ _ hseq, takePacket_good _ hok, onQueue_launches]
    exact ⟨fun htype => if_pos htype, fun htype => if_neg htype⟩
  case refusal =>
    rintro die q seq reason pk s x k rfl hq hen hroom hseq hread hreason
    exact execLaunchPortRefusalWrite_refuses hq hen hroom hseq hread hreason
  case packet =>
    intro die q seq s x hq hx
    exact ⟨_, endPacket_done hq hx seq, rfl, rfl, endPacket_launches die q seq none hq⟩

end Sys2Proof.Machine
end

section
/-! SUPPORT. What ends with a queue and with a context: launches end, queues go out of service, and a lost context leaves neither launches
nor saved tasks (R284, R299, R373). -/

namespace Sys2Proof.Machine

/-- The mark of a plan as failed leaves the core and the front end (R343). -/
theorem setPlanIn_leaves (ctx n : Nat) (h : PlanHandle) (s : State) : (setPlanIn ctx n h s).c = s.c ∧ (setPlanIn ctx n h s).fe = s.fe := by
  unfold setPlanIn
  split
  · exact ⟨rfl, rfl⟩
  · dsimp only
    split
    · exact ⟨rfl, rfl⟩
    · split <;> simp

/-- Launches of the list end, each with a reason. -/
def endAll (reason : Nat) (ls : List Launch) (s : State) : State :=
  ls.foldl (fun t l => endPacket l.die l.q l.seq (some (reason, 0)) t) s

section
variable (reason : Nat) (ls : List Launch) (s : State)

@[simp] theorem endAll_c : (endAll reason ls s).c = s.c := foldl_keeps (·.c) (fun _ _ => endPacket_c ..) ..
@[simp] theorem endAll_ctxs : (endAll reason ls s).mon.ctxs = s.mon.ctxs := foldl_keeps (·.mon.ctxs) (fun _ _ => endPacket_ctxs ..) ..
@[simp] theorem endAll_saved : (endAll reason ls s).fe.saved = s.fe.saved := foldl_keeps (·.fe.saved) (fun _ _ => endPacket_saved ..) ..

theorem queuesStand_endAll : queuesStand s (endAll reason ls s) :=
  queuesStand_foldl (fun _ _ => queuesStand_endPacket _ _ _ _ _) ls s

end

theorem mem_launches_of_endAll {reason : Nat} {ls : List Launch} {s : State} {l : Launch} (h : l ∈ (endAll reason ls s).fe.launches) :
    l ∈ s.fe.launches := by
  induction ls generalizing s with
  | nil => exact h
  | cons a ls ih => exact mem_launches_of_endPacket _ _ _ _ _ (ih h)

theorem isRow_self (l : Launch) : isRow l.die l.q l.seq l = true := by simp [isRow]

/-- A launch that ends on a queue that stands is gone. -/
theorem not_mem_endAll {reason : Nat} {ls : List Launch} {s : State} {l : Launch} {x : Queue} (hl : l ∈ ls)
    (hq : queueAt s (qKey l.die l.q) = some x) : l ∉ (endAll reason ls s).fe.launches := by
  induction ls generalizing s x with
  | nil => cases hl
  | cons a ls ih =>
    intro hmem
    change l ∈ (endAll reason ls (endPacket a.die a.q a.seq (some (reason, 0)) s)).fe.launches at hmem
    obtain rfl | hl := List.mem_cons.mp hl
    · have hgone := mem_launches_of_endAll hmem
      rw [endPacket_launches _ _ _ _ hq, List.mem_filter, isRow_self] at hgone
      exact absurd hgone.2 (by decide)
    · obtain ⟨y, hy, -⟩ := queuesStand_endPacket a.die a.q a.seq (some (reason, 0)) s _ x hq
      exact ih hl hy hmem

/-- A queue out of service: its letters are gone, and its accepted packets that have not started have ended (R284). -/
def outOfService (k : Nat) (s : State) : State :=
  let t := onQueue k (fun x => { x with e := { x.e with en := false }, read := [] }) s
  { t with fe := { t.fe with
    letters := t.fe.letters.filter fun e => qKey e.die e.q != k
    overflow := t.fe.overflow.filter (· != k), handling := t.fe.handling.filter (· != k) } }

theorem stopQueue_eq (k reason : Nat) (s : State) : stopQueue k reason s =
    endAll reason (s.fe.launches.filter fun l => qKey l.die l.q == k && !l.started) (outOfService k s) := by
  rw [← onQueue_launches k (fun x => { x with e := { x.e with en := false }, read := [] }) s]; rfl

theorem queuesStand_outOfService (k : Nat) (s : State) : queuesStand s (outOfService k s) :=
  queuesStand_onQueue (k := k) (f := fun x => { x with e := { x.e with en := false }, read := [] }) (fun _ => rfl) fun _ _ => rfl

section
variable (k reason : Nat) (s : State)

@[simp] theorem stopQueue_c : (stopQueue k reason s).c = s.c := by
  rw [stopQueue_eq, endAll_c]; exact onQueue_c ..

@[simp] theorem stopQueue_ctxs : (stopQueue k reason s).mon.ctxs = s.mon.ctxs := by
  rw [stopQueue_eq, endAll_ctxs]; exact congrArg Monitor.ctxs (onQueue_mon ..)

@[simp] theorem stopQueue_saved : (stopQueue k reason s).fe.saved = s.fe.saved := by
  rw [stopQueue_eq, endAll_saved]; exact onQueue_saved ..

theorem queuesStand_stopQueue : queuesStand s (stopQueue k reason s) := by
  rw [stopQueue_eq]
  exact queuesStand_trans (queuesStand_outOfService k s) (queuesStand_endAll _ _ _)

end

theorem mem_launches_of_stopQueue {k reason : Nat} {s : State} {l : Launch} (h : l ∈ (stopQueue k reason s).fe.launches) :
    l ∈ s.fe.launches := by
  rw [stopQueue_eq] at h
  have := mem_launches_of_endAll h
  rwa [outOfService, onQueue_launches] at this

theorem stopQueue_disables {k : Nat} {s : State} {x : Queue} (reason : Nat) (h : queueAt s k = some x) :
    ∃ y, queueAt (stopQueue k reason s) k = some y ∧ y.e.en = false := by
  have hout : queueAt (outOfService k s) k = some { x with e := { x.e with en := false }, read := [] } := queueAt_onQueue_same h
  obtain ⟨y, hy, -, hen⟩ := queuesStand_endAll reason (s.fe.launches.filter fun l => qKey l.die l.q == k && !l.started) _ k _ hout
  rw [stopQueue_eq]
  exact ⟨y, hy, hen rfl⟩

/-- The queues of the list are taken out of service, because of the loss of their context. -/
def stopQueues (ks : List (Nat × Queue)) (s : State) : State := ks.foldl (fun t x => stopQueue x.1 34 t) s

section
variable (ks : List (Nat × Queue)) (s : State)

@[simp] theorem stopQueues_c : (stopQueues ks s).c = s.c := foldl_keeps (·.c) (fun _ _ => stopQueue_c ..) ..
@[simp] theorem stopQueues_ctxs : (stopQueues ks s).mon.ctxs = s.mon.ctxs := foldl_keeps (·.mon.ctxs) (fun _ _ => stopQueue_ctxs ..) ..
@[simp] theorem stopQueues_saved : (stopQueues ks s).fe.saved = s.fe.saved := foldl_keeps (·.fe.saved) (fun _ _ => stopQueue_saved ..) ..

theorem queuesStand_stopQueues : queuesStand s (stopQueues ks s) := queuesStand_foldl (fun _ _ => queuesStand_stopQueue _ _ _) ks s

end

theorem mem_launches_of_stopQueues {ks : List (Nat × Queue)} {s : State} {l : Launch} (h : l ∈ (stopQueues ks s).fe.launches) :
    l ∈ s.fe.launches := by
  induction ks generalizing s with
  | nil => exact h
  | cons k ks ih => exact mem_launches_of_stopQueue (ih h)

theorem stopQueues_disables {ks : List (Nat × Queue)} {s : State} {k : Nat} {x y : Queue} (hk : (k, y) ∈ ks) (h : queueAt s k = some x) :
    ∃ z, queueAt (stopQueues ks s) k = some z ∧ z.e.en = false := by
  induction ks generalizing s x with
  | nil => cases hk
  | cons a ks ih =>
    obtain rfl | hk := List.mem_cons.mp hk
    · obtain ⟨z, hz, hoff⟩ := stopQueue_disables 34 h
      obtain ⟨w, hw, -, hen⟩ := queuesStand_stopQueues ks (stopQueue k 34 s) k z hz
      exact ⟨w, hw, hen hoff⟩
    · obtain ⟨z, hz, -⟩ := queuesStand_stopQueue a.1 34 s k x h
      exact ih hk hz

/-- The core stops and the plans fail where a context is lost. -/
def coreLosesContext (ctx : Nat) (s : State) : State :=
  let t := if s.c.info.running && s.c.info.ctx == ctx then stopCore s else s
  (((SMap.get? t.mon.ctxs ctx).map fun c => c.plans.filter fun p => p.2.run.isSome).getD []).foldl
    (fun t p => setPlanIn ctx p.1 { p.2 with run := none, state := 3 } t) t

theorem coreLosesContext_leaves (ctx : Nat) (s : State) : (coreLosesContext ctx s).fe = s.fe ∧ (coreLosesContext ctx s).c =
    if s.c.info.running = true ∧ s.c.info.ctx = ctx then { taskGone s.c with ranked := [] } else s.c := by
  refine ⟨(foldl_keeps (·.fe) (fun _ _ => (setPlanIn_leaves ..).2) ..).trans ?_, (foldl_keeps (·.c) (fun _ _ => (setPlanIn_leaves ..).1) ..).trans ?_⟩
  · split <;> rfl
  · rw [apply_ite State.c]
    exact if_congr (by simp) rfl rfl

/-- The launches of a context. -/
def launchesOf (ctx : Nat) (s : State) : List Launch := s.fe.launches.filter fun l => l.ctx == ctx

/-- The saved tasks of a context go. -/
def dropSaved (ctx : Nat) (s : State) : State :=
  { s with fe := { s.fe with saved := s.fe.saved.filter fun x => !(launchesOf ctx s).any fun l => isRow x.die x.q x.seq l } }

/-- The launches of a lost context end, and its saved tasks go. -/
def contextEnded (ctx : Nat) (s : State) : State := endAll 33 ((launchesOf ctx s).filter fun l => l.pkt.type == 1) (dropSaved ctx s)

/-- So do the launches of it that another package placed. -/
def launchesLoseContext (ctx : Nat) (s : State) : State :=
  { contextEnded ctx s with fe := { (contextEnded ctx s).fe with
    launches := (contextEnded ctx s).fe.launches.filter fun l => l.ctx != ctx || decide (l.die < 4) } }

theorem launchesLoseContext_c (ctx : Nat) (s : State) : (launchesLoseContext ctx s).c = s.c := endAll_c ..

theorem queuesStand_launchesLoseContext (ctx : Nat) (s : State) : queuesStand s (launchesLoseContext ctx s) :=
  queuesStand_endAll 33 ((launchesOf ctx s).filter fun l => l.pkt.type == 1) (dropSaved ctx s)

theorem mem_saved_of_launchesLoseContext {ctx : Nat} {s : State} {y : SavedTask} (h : y ∈ (launchesLoseContext ctx s).fe.saved) :
    y ∈ s.fe.saved ∧ ∀ l ∈ s.fe.launches, l.ctx = ctx → isRow y.die y.q y.seq l = false := by
  have hdrop : y ∈ (dropSaved ctx s).fe.saved :=
    (endAll_saved 33 ((launchesOf ctx s).filter fun l => l.pkt.type == 1) (dropSaved ctx s)) ▸ h
  obtain ⟨hmem, hnone⟩ := List.mem_filter.mp hdrop
  refine ⟨hmem, fun l hl hctx => ?_⟩
  rw [Bool.not_eq_true'] at hnone
  simpa using List.any_eq_false.mp hnone l (List.mem_filter.mpr ⟨hl, beq_iff_eq.mpr hctx⟩)

/-- A launch of a lost context is gone where its queue stands. -/
theorem mem_launches_of_launchesLoseContext {ctx : Nat} {s : State} {l : Launch} (h : l ∈ (launchesLoseContext ctx s).fe.launches) :
    l ∈ s.fe.launches ∧ (l.ctx = ctx → l.pkt.type = 1 → queueAt s (qKey l.die l.q) = none) := by
  have hend : l ∈ (contextEnded ctx s).fe.launches := (List.mem_filter.mp h).1
  have hl : l ∈ s.fe.launches := mem_launches_of_endAll (s := dropSaved ctx s) hend
  refine ⟨hl, fun hctx htype => ?_⟩
  cases hq : queueAt s (qKey l.die l.q) with
  | none => rfl
  | some x =>
    have hmine : l ∈ (launchesOf ctx s).filter fun l => l.pkt.type == 1 :=
      List.mem_filter.mpr ⟨List.mem_filter.mpr ⟨hl, beq_iff_eq.mpr hctx⟩, beq_iff_eq.mpr htype⟩
    exact absurd hend (not_mem_endAll (s := dropSaved ctx s) hmine hq)

theorem loseContext_eq (ctx : Nat) (s : State) : loseContext ctx s =
    stopQueues ((launchesLoseContext ctx (coreLosesContext ctx s)).fe.queues.filter fun x => x.2.e.ctx == ctx)
      (launchesLoseContext ctx (coreLosesContext ctx s)) := rfl

/-- What the loss of a context leaves: the core without a task of it, its queues out of service, its saved tasks and launches gone. -/
theorem loseContext_effect (ctx : Nat) (s : State) :
    (loseContext ctx s).c = (if s.c.info.running = true ∧ s.c.info.ctx = ctx then { taskGone s.c with ranked := [] } else s.c)
    ∧ (∀ k x, queueAt s k = some x → x.e.ctx = ctx → ∃ y, queueAt (loseContext ctx s) k = some y ∧ y.e.en = false)
    ∧ (∀ y ∈ (loseContext ctx s).fe.saved, y ∈ s.fe.saved ∧ ∀ l ∈ s.fe.launches, l.ctx = ctx → isRow y.die y.q y.seq l = false)
    ∧ (∀ l ∈ (loseContext ctx s).fe.launches, l ∈ s.fe.launches
      ∧ (l.ctx = ctx → l.pkt.type = 1 → queueAt s (qKey l.die l.q) = none)) := by
  obtain ⟨hfe, hc⟩ := coreLosesContext_leaves ctx s
  have hqueue (k : Nat) : queueAt (coreLosesContext ctx s) k = queueAt s k := by rw [queueAt, hfe]; rfl
  rw [loseContext_eq]
  refine ⟨?_, fun k x hx hctx => ?_, fun y hy => ?_, fun l hl => ?_⟩
  · rw [stopQueues_c, launchesLoseContext_c, hc]
  · obtain ⟨y, hy, hyctx, -⟩ := queuesStand_launchesLoseContext ctx (coreLosesContext ctx s) k x ((hqueue k).trans hx)
    exact stopQueues_disables (List.mem_filter.mpr ⟨SMap.mem_of_get? hy, beq_iff_eq.mpr (hyctx.trans hctx)⟩) hy
  · rw [stopQueues_saved] at hy
    have hsaved := mem_saved_of_launchesLoseContext hy
    rwa [hfe] at hsaved
  · have hlaunch := mem_launches_of_launchesLoseContext (mem_launches_of_stopQueues hl)
    rwa [hfe, hqueue] at hlaunch

end Sys2Proof.Machine
end

section
/-! SUPPORT. Health: heat, the failure of a stack, scrubbing, lost cores, and the health log (R372 to R386). -/

namespace Sys2Proof.Machine

/-! Heat and the health log (R338, R373, R385). -/

@[simp] theorem logRecord_log_getLast? (r : HealthRecord) (s : State) : (logRecord r s).health.log.getLast? = some r :=
  List.getLast?_concat ..

/-- A record that is written changes the log alone. -/
theorem logRecord_eq (r : HealthRecord) (s : State) :
    logRecord r s = { s with health := { s.health with log := (logRecord r s).health.log } } := rfl

theorem mem_logRecord_log {r x : HealthRecord} {s : State} (h : x ∈ (logRecord r s).health.log) : x = r ∨ x ∈ s.health.log :=
  (List.mem_append.mp h).elim (fun hx => .inr (List.mem_filter.mp hx).1) fun hx => .inl (List.mem_singleton.mp hx)

/-- An orderly entry to S3 ends in the loss of power, behind a shutdown record (R338, R385). -/
theorem enterS3_effect (s : State) : (enterS3 s).health.power = 3 ∧ (enterS3 s).mon.flash.running = false
    ∧ ∃ r, (enterS3 s).health.log.getLast? = some r ∧ r.kind = 2 :=
  ⟨rfl, rfl, newRecord 2 s, logRecord_log_getLast? .., rfl⟩

/-- Under a cap of class 3 every die runs at class 3 (R287, R373). -/
theorem capPoints_point {s : State} (h : s.health.maxFc = 3) (i : Fin 4) : (capPoints s).fe.point[i] = 3 := by
  have hcap : fcCap s = 3 := by
    have := (Config.fcOfLimit s.health.limit).isLt
    unfold fcCap; omega
  change (s.fe.point.map fun p => if p.toNat < fcCap s then BitVec.ofNat 2 (fcCap s) else p)[i] = 3
  rw [hcap, Fin.getElem_fin, Vector.getElem_map]
  split
  · rfl
  · bv_omega

section
variable {deg : Nat} {s : State} (hpower : s.health.power ≠ 3)
include hpower

theorem execOvertemperature_cool (h : deg < 100) : execOvertemperature deg s = .next { s with
    health := { s.health with tmax := max s.health.tmax deg, maxFc := 0 } } := by
  rw [execOvertemperature, if_neg hpower, if_pos h]

/-- The state under heat from 100 degrees on: class 3 at every die, and 0xF6 to the monitor. -/
def heated (deg : Nat) (s : State) : State :=
  monitorCause 0xF6 (capPoints { s with health := { s.health with tmax := max s.health.tmax deg, maxFc := 3 } })

theorem execOvertemperature_hot (h : 100 ≤ deg) :
    execOvertemperature deg s = .next (if 110 ≤ deg then enterS3 (heated deg s) else heated deg s) := by
  rw [execOvertemperature, if_neg hpower, if_neg (Nat.not_lt.mpr h)]; rfl

end

/-! Uncorrectable errors (R210, R377). -/

/-- A block that cannot be corrected is counted and poisoned, and is no longer clean. -/
theorem uncorrectable_eq (addr : Nat) (s : State) : uncorrectable addr s = { s with
    poison := (uncorrectable addr s).poison, cleaned := (uncorrectable addr s).cleaned
    health := { s.health with ue := (uncorrectable addr s).health.ue } } := rfl

theorem mem_uncorrectable_poison {addr b : Nat} {s : State} : b ∈ (uncorrectable addr s).poison ↔ b = addr / 64 ∨ b ∈ s.poison := by
  change b ∈ (if s.poison.contains (addr / 64) then s.poison else addr / 64 :: s.poison) ↔ _
  split
  · next h =>
    refine ⟨.inr, ?_⟩
    rintro (rfl | h')
    · exact List.contains_iff_mem.mp h
    · exact h'
  · exact List.mem_cons

theorem execScrub_scrubs {addr : Nat} {s : State} (correctable : Bool) (hpower : s.health.power ≠ 3) (haddr : addr < 2 ^ 64) :
    execScrub addr correctable s = .next (if correctable then { s with health := { s.health with
      ce := bump (4 * (errorPlace s addr).2 + (errorPlace s addr).1) s.health.ce } } else uncorrectable addr s) := by
  have hhost : ¬(s.health.power = 3 ∨ hostHome 0 ≤ addr) := by
    rintro (h | h)
    · exact hpower h
    · unfold hostHome at h; omega
  rw [execScrub, if_neg hhost]
  cases correctable <;> rfl

/-- The retries of a transfer poison its block after eight that failed, and nothing before (R377). -/
theorem linkRetries_effect (addr n : Nat) (s : State) : (linkRetries addr n s).c = s.c ∧ (linkRetries addr n s).mem = s.mem
    ∧ ∀ b, b ∈ (linkRetries addr n s).poison ↔ (8 ≤ n ∧ b = addr / 64) ∨ b ∈ s.poison := by
  unfold linkRetries
  dsimp only
  split
  · next h => exact ⟨rfl, rfl, fun b => mem_uncorrectable_poison.trans (or_congr_left (by simp [h]))⟩
  · next h => exact ⟨rfl, rfl, fun b => by simp [h]⟩

/-! One bit of a word set or cleared, as cores, planes and ports are marked. -/

theorem getLsbD_bit {w : Nat} (k : Nat) {i : Nat} (hi : i < w) : ((1 : BitVec w) <<< k).getLsbD i = decide (i = k) := by
  have hone : (1 : BitVec w).getLsbD (i - k) = decide (i - k = 0) := by
    rw [show (1 : BitVec w) = 1#w from rfl, BitVec.getLsbD_one]
    simp; omega
  rw [BitVec.getLsbD_shiftLeft, hone]
  simp only [hi, decide_true, Bool.true_and]
  rw [Bool.eq_iff_iff]
  simp
  omega

theorem getLsbD_clearBit {w : Nat} (x : BitVec w) (k : Nat) {i : Nat} (hi : i < w) :
    (x &&& ~~~((1 : BitVec w) <<< k)).getLsbD i = (x.getLsbD i && decide (i ≠ k)) := by
  rw [BitVec.getLsbD_and, BitVec.getLsbD_not, getLsbD_bit k hi, decide_eq_true hi, Bool.true_and, decide_not]

theorem getLsbD_setBit {w : Nat} (x : BitVec w) (k : Nat) {i : Nat} (hi : i < w) :
    (x ||| ((1 : BitVec w) <<< k)).getLsbD i = (x.getLsbD i || decide (i = k)) := by
  rw [BitVec.getLsbD_or, getLsbD_bit k hi]

/-! Lost cores (R378, R381, R382). -/

/-- The health state once a core is lost: its spare in its place, or the core retired. -/
def healthWithout (core : Nat) (h : Health) : Health :=
  let cl := core / 16 % 16
  let die := core / 64 % 4
  let h := { h with ue := bump (4 * die + 3) h.ue }
  if h.spare.getLsbD cl then
    { h with replace := true, uavail := setW h.uavail die (((h.uavail.toList[die]?).getD 0) &&& ~~~((1 : Word) <<< (core % 64))) }
  else { h with spare := h.spare ||| ((1 : BitVec 16) <<< cl), subst := if hc : cl < 16 then h.subst.set cl (core % 16) hc else h.subst }

theorem replaceCore_eq (core : Nat) (s : State) : replaceCore core s =
    logRecord (newRecord 1 { s with health := healthWithout core s.health }) { s with health := healthWithout core s.health } := rfl

theorem execCoreLost_replaces {core : BitVec 8} {s : State} (hpower : s.health.power ≠ 3) :
    execCoreLost core s = .next (replaceCore core.toNat (endOnCore core.toNat s)) := if_neg hpower

section
variable {core : Nat} {h : Health} (hcore : core < 256)
include hcore

theorem healthWithout_spare (hspare : h.spare.getLsbD (core / 16) = false) :
    (healthWithout core h).spare.getLsbD (core / 16) = true ∧ (healthWithout core h).subst.toList[core / 16]? = some (core % 16)
      ∧ (healthWithout core h).uavail = h.uavail := by
  have hcl : core / 16 < 16 := by omega
  have hmod : core / 16 % 16 = core / 16 := Nat.mod_eq_of_lt hcl
  simp only [healthWithout, hmod, hspare, Bool.false_eq_true, if_false]
  refine ⟨?_, ?_, trivial⟩
  · rw [getLsbD_setBit _ _ hcl, decide_eq_true rfl, Bool.or_true]
  · rw [dif_pos hcl, Vector.getElem?_toList, Vector.getElem?_set_self]

theorem healthWithout_retired (hspare : h.spare.getLsbD (core / 16) = true) :
    (healthWithout core h).replace = true ∧ (healthWithout core h).spare = h.spare ∧ ∀ (d : Fin 4) i, i < 64 →
      ((healthWithout core h).uavail[d]).getLsbD i = ((h.uavail[d]).getLsbD i && decide (64 * d.val + i ≠ core)) := by
  have hmod : core / 16 % 16 = core / 16 := Nat.mod_eq_of_lt (by omega)
  have hdie : core / 64 < 4 := by omega
  have hmod' : core / 64 % 4 = core / 64 := Nat.mod_eq_of_lt hdie
  simp only [healthWithout, hmod, hmod', hspare, if_true]
  refine ⟨trivial, trivial, fun d i hi => ?_⟩
  simp only [setW, hdie, dif_pos, Fin.getElem_fin, Vector.getElem_set]
  split
  · next hd =>
    have hold : (h.uavail.toList[core / 64]?).getD 0 = h.uavail[d.val] := by
      simp [hd]
    have hbit : (i ≠ core % 64) = (64 * d.val + i ≠ core) := by rw [← hd]; exact propext (by omega)
    rw [getLsbD_clearBit _ _ hi, hold]
    simp only [hbit]
  · next hd =>
    have hne : 64 * d.val + i ≠ core := by omega
    simp [hne]

end

section
variable {core : Nat} {s : State}

/-- A core that runs the modelled task ends it (R372). -/
theorem endOnCore_own (hme : core = s.me) (hrun : s.c.info.running = true) : endOnCore core s = endByFault 0xF0 s :=
  if_pos ⟨hme, hrun⟩

variable (hother : core ≠ s.me ∨ s.c.info.running = false)
include hother

theorem runsElsewhere : ¬(core = s.me ∧ s.c.info.running = true) := by
  rintro ⟨hme, hrun⟩
  obtain hne | hidle := hother
  · exact hne hme
  · rw [hrun] at hidle; cases hidle

theorem endOnCore_idle (hnone : ∀ l ∈ s.fe.launches, holdsCore l core = false) : endOnCore core s = s := by
  have hfind : (s.fe.launches.find? fun l => holdsCore l core) = none :=
    List.find?_eq_none.mpr fun l hl => by rw [hnone l hl]; exact Bool.false_ne_true
  rw [endOnCore, if_neg (runsElsewhere hother), hfind]

theorem endOnCore_other {l : Launch} {r : TaskRow} (hl : (s.fe.launches.find? fun l => holdsCore l core) = some l)
    (hr : (l.tasks.find? fun r => r.core == core && !r.retired) = some r) :
    endOnCore core s = onLaunch l.die l.q l.seq (failRow r.t 0xF0) s := by
  rw [endOnCore, if_neg (runsElsewhere hother), hl]
  dsimp only
  rw [hr]

end

/-- Settles O60: each event answers by the lemma above about its own function. -/
theorem healthEvents : Obligations.HealthEvents := by
  refine ⟨?heat, ?stack, ?lost, ?scrub, ?idle, ?own, ?other, ?fails, ?retries, ?hour, ?periodic⟩
  case heat =>
    intro deg s hpower
    refine ⟨execOvertemperature_cool hpower, fun hlo hhi => ?_, fun hhi => ?_⟩
    · refine ⟨heated deg s, ?_, rfl, fun i => capPoints_point rfl i, rfl, rfl, rfl⟩
      exact (execOvertemperature_hot hpower hlo).trans (by rw [if_neg (Nat.not_le.mpr hhi)])
    · obtain ⟨hoff, hrun, r, hlast, hkind⟩ := enterS3_effect (heated deg s)
      refine ⟨enterS3 (heated deg s), r, ?_, hoff, hrun, hlast, hkind⟩
      exact (execOvertemperature_hot hpower (by omega)).trans (by rw [if_pos hhi])
  case stack =>
    intro die s hpower
    exact ⟨_, _, _, if_neg hpower, rfl, logRecord_eq .., logRecord_log_getLast? .., rfl, rfl, rfl⟩
  case lost =>
    rintro ctx s u rfl
    exact loseContext_effect ctx s
  case scrub =>
    intro addr s hpower haddr
    exact ⟨⟨_, execScrub_scrubs true hpower haddr, rfl⟩, ⟨_, execScrub_scrubs false hpower haddr, rfl,
      fun b => mem_uncorrectable_poison, uncorrectable_eq ..⟩⟩
  case idle =>
    intro core s hpower hnone hother
    refine ⟨replaceCore core.toNat s, _, ?_, rfl, rfl, logRecord_log_getLast? .., rfl, ?_, ?_⟩
    · exact (execCoreLost_replaces hpower).trans (by rw [endOnCore_idle hother hnone])
    · exact healthWithout_spare core.isLt
    · exact healthWithout_retired core.isLt
  case own =>
    intro core s hpower hme hrun
    refine ⟨replaceCore core.toNat (endByFault 0xF0 s), ?_, rfl, rfl, rfl, ?_⟩
    · exact (execCoreLost_replaces hpower).trans (by rw [endOnCore_own hme hrun])
    · rw [onLaunch, ← endByFault_launches (by decide)]; rfl
  case other =>
    intro core s l r hpower hother hl hr
    refine ⟨_, execCoreLost_replaces hpower, ?_, ?_⟩ <;> rw [endOnCore_other hother hl hr] <;> rfl
  case fails =>
    rintro t cause l u rfl
    refine ⟨rfl, fun r hr ht => ?_⟩
    obtain ⟨x, -, rfl⟩ := List.mem_map.mp hr
    by_cases hx : x.t = t
    · rw [if_pos hx]; exact ⟨rfl, rfl⟩
    · rw [if_neg hx] at ht; exact absurd ht hx
  case retries =>
    intro addr n s hpower haddr
    have hgo : ¬(s.health.power = 3 ∨ 2 ^ 48 ≤ addr) := not_or.mpr ⟨hpower, Nat.not_le.mpr haddr⟩
    exact ⟨linkRetries addr n s, congrArg Host.Outcome.next (if_neg hgo), linkRetries_effect addr n s⟩
  case hour => exact fun s hpower => congrArg Host.Outcome.next (if_neg hpower)
  case periodic =>
    intro s hpower
    exact ⟨_, _, if_neg hpower, logRecord_eq .., logRecord_log_getLast? .., rfl, rfl, rfl, rfl, rfl, fun x hx => mem_logRecord_log hx⟩

end Sys2Proof.Machine
end

section
/-! SUPPORT. The links: the host link and its windows, planes and ports, flits, connections and their packets (R318, R321, R325, R328 to
R331, R373). -/

namespace Sys2Proof.Machine

/-! The host link (R321, R373). -/

/-- Under a link that serves CXL traffic, host writes reach memory and leave the rest. -/
theorem foldl_hostPut_up (ws : List (Nat × List Byte)) {s : State} (h : cxlUp s = true) :
    (ws.foldl (fun s w => hostPut w.1 w.2 s) s).links = s.links ∧ (ws.foldl (fun s w => hostPut w.1 w.2 s) s).fe = s.fe
      ∧ (ws.foldl (fun s w => hostPut w.1 w.2 s) s).c = s.c := by
  induction ws generalizing s with
  | nil => exact ⟨rfl, rfl, rfl⟩
  | cons w ws ih =>
    have hput : hostPut w.1 w.2 s = s.writeOuter (cellsAt (hostHome w.1) w.2) := if_pos h
    have hup : cxlUp (hostPut w.1 w.2 s) = true := by
      rw [hput, cxlUp, State.writeOuter_links, State.writeOuter_health]; exact h
    obtain ⟨hlinks, hfe, hc⟩ := ih hup
    rw [hput, State.writeOuter_links] at hlinks
    rw [hput, State.writeOuter_fe] at hfe
    rw [hput, State.writeOuter_c] at hc
    rw [← hput] at hlinks hfe hc
    exact ⟨hlinks, hfe, hc⟩

theorem flushWaiting_up {s : State} (h : cxlUp s = true) :
    (flushWaiting s).links = s.links ∧ (flushWaiting s).fe.waiting = [] ∧ (flushWaiting s).c = s.c := by
  obtain ⟨hlinks, hfe, hc⟩ := foldl_hostPut_up s.fe.waiting (s := { s with fe := { s.fe with waiting := [] } }) h
  exact ⟨hlinks, congrArg FrontEnd.waiting hfe, hc⟩

theorem flushWaiting_nothing {s : State} (h : s.fe.waiting = []) : flushWaiting s = s := by
  have hfe : { s.fe with waiting := [] } = s.fe := by rw [← h]
  rw [flushWaiting, h, hfe]; rfl

theorem execIdeEstablish_up {s : State} (hpower : s.health.power ≠ 3) (hrun : s.mon.flash.running = true)
    (hrec : s.mon.flash.recovery = false) :
    execIdeEstablish s = .next (flushWaiting { s with links := { s.links with linkUp := true, ide := true } }) := by
  simp [execIdeEstablish, hpower, hrun, hrec]

/-! Host windows (R318, R325). -/

theorem length_storedBlock (s : State) (b : Nat) : (storedBlock s b).length = 64 := by
  simp only [storedBlock, Config.xtsEncrypt, apply_ite List.length, List.length_map, List.length_range, ite_self]

theorem length_storedBlocks (s : State) (b n : Nat) : ((List.range n).flatMap fun i => storedBlock s (b + i)).length = 64 * n := by
  simp [List.length_flatMap, length_storedBlock, Nat.mul_comm]

theorem execHostWindowRead_blocks {w : BitVec 6} {off len : Nat} {s : State} {x : HostWindow}
    (hx : SMap.get? s.mon.windows w.toNat = some x) (hcxl : cxlUp s = true) (hsize : off + len ≤ x.size) (hpa : x.pa % 64 = 0)
    (hoff : off % 64 = 0) (hlen : len % 64 = 0) : execHostWindowRead w off len s = .next { s with links := { s.links with
      hostRead := (List.range (len / 64)).flatMap fun i => storedBlock s ((x.pa + off) / 64 + i) } } := by
  have hin : ¬x.size < off + len := Nat.not_lt.mpr hsize
  have hskip : (x.pa + off) % 64 = 0 := by omega
  have hcount : (x.pa + off + len + 63) / 64 - (x.pa + off) / 64 = len / 64 := by omega
  have hall : ((List.range (len / 64)).flatMap fun i => storedBlock s ((x.pa + off) / 64 + i)).take len =
      (List.range (len / 64)).flatMap fun i => storedBlock s ((x.pa + off) / 64 + i) :=
    List.take_of_length_le (by rw [length_storedBlocks]; omega)
  simp only [execHostWindowRead, hx, hcxl, Bool.not_true, Bool.false_or, decide_eq_true_eq, hin, if_false, hcount, hskip,
    List.drop_zero, hall]

/-- The whole aligned blocks of data that begin at an address, each as stored. -/
def blockCells (lo : Nat) (data : List Byte) : List Host.Cell :=
  (List.range ((lo + data.length) / 64 - (lo + 63) / 64)).flatMap fun i =>
    cellsAt (tagHome rawTag (64 * ((lo + 63) / 64 + i))) ((data.drop (64 * ((lo + 63) / 64 + i) - lo)).take 64)

theorem execHostWindowWrite_blocks {w : BitVec 6} {off : Nat} {data : List Byte} {s : State} {x : HostWindow}
    (hx : SMap.get? s.mon.windows w.toNat = some x) (hcxl : cxlUp s = true) (hsize : off + data.length ≤ x.size) :
    execHostWindowWrite w off data s = .next (s.writeOuter (blockCells (x.pa + off) data)) := by
  have hin : ¬x.size < off + data.length := Nat.not_lt.mpr hsize
  simp only [execHostWindowWrite, hx, hcxl, Bool.not_true, Bool.false_or, decide_eq_true_eq, hin, if_false, blockCells]

theorem mem_blockCells {lo : Nat} {data : List Byte} {c : Host.Cell} (h : c ∈ blockCells lo data) :
    ∃ b i, i < 64 ∧ c.1 = tagHome rawTag (64 * b) + i ∧ lo ≤ 64 * b ∧ 64 * b + 64 ≤ lo + data.length := by
  obtain ⟨k, hk, hc⟩ := List.mem_flatMap.mp h
  obtain ⟨i, hi, hhome⟩ := mem_cellsAt hc
  rw [List.mem_range] at hk
  rw [List.length_take] at hi
  exact ⟨(lo + 63) / 64 + k, i, by omega, hhome, by omega, by omega⟩

theorem getElem?_mem_cellsAt {a j : Nat} {bs : List Byte} {v : Byte} (h : bs[j]? = some v) : (a + j, v) ∈ cellsAt a bs :=
  List.mem_map.mpr ⟨(v, j), List.mk_mem_zipIdx_iff_getElem?.mpr h, rfl⟩

theorem blockCells_mem {lo b i : Nat} {data : List Byte} (hlo : lo ≤ 64 * b) (hhi : 64 * b + 64 ≤ lo + data.length) (hi : i < 64) :
    ∃ v, data[64 * b - lo + i]? = some v ∧ (tagHome rawTag (64 * b) + i, v) ∈ blockCells lo data := by
  have hlt : 64 * b - lo + i < data.length := by omega
  refine ⟨data[64 * b - lo + i], List.getElem?_eq_getElem hlt, List.mem_flatMap.mpr ⟨b - (lo + 63) / 64, ?_, ?_⟩⟩
  · rw [List.mem_range]; omega
  · have hb : (lo + 63) / 64 + (b - (lo + 63) / 64) = b := by omega
    rw [hb]
    refine getElem?_mem_cellsAt ?_
    rw [List.getElem?_take_of_lt hi, List.getElem?_drop, List.getElem?_eq_getElem hlt]

/-! Planes, ports and flits (R328, R329, R331, R373). -/

section
variable {p : BitVec 6} {payload : List Byte} {s : State} (hplane : s.links.planes.getLsbD p.toNat = true) (hpod : s.links.pod ≠ none)
  (hlen : payload.length = 256)
include hplane hpod hlen

theorem execFlitReceive_taken (ok : Bool) : execFlitReceive p ok payload s = .next (if ok then
      { s with links := { s.links with flits := s.links.flits ++ [(p.toNat, payload)] } }
    else { s with links := { s.links with badFlits := bump p.toNat s.links.badFlits } }) := by
  have hplanes : s.links.planes ≠ 0 := by
    intro h; rw [h] at hplane; simp at hplane
  have hup : scaleUp s = true := by
    rw [scaleUp, Option.isSome_iff_ne_none.mpr hpod, Bool.true_and, bne_iff_ne]; exact hplanes
  have hgo : (!s.links.planes.getLsbD p.toNat || !scaleUp s || payload.length != 256) = false := by simp [hplane, hup, hlen]
  rw [execFlitReceive, if_neg (by rw [hgo]; exact Bool.false_ne_true)]
  cases ok <;> rfl

end

theorem get?_bump (k : Nat) (m : SMap Nat) : SMap.get? (bump k m) k = some (min (2 ^ 64 - 1) ((SMap.get? m k).getD 0 + 1)) := by
  rw [bump, SMap.get?_put, if_pos rfl]

/-! Connections (R330, R331). -/

theorem connAt_setConn (c : Conn) (s : State) (n : Nat) : connAt (setConn c s) n = if n = c.id then c else connAt s n := by
  unfold connAt setConn
  split
  · next h => simp [h]
  · next h =>
    have hfind : (s.links.conns.filter fun x => x.id != c.id).find? (fun x => x.id == n) = s.links.conns.find? fun x => x.id == n := by
      rw [List.find?_filter]
      refine congrArg (fun p => List.find? p s.links.conns) (funext fun x => ?_)
      by_cases hx : x.id = n
      · simp [hx, h]
      · simp [hx]
    rw [List.find?_cons_of_neg (by simpa using Ne.symm h), hfind]

section
variable {name : String} {ttype : Nat} {h : TransportHeader} {f : Conn → State → State} {s : State} (hports : s.links.ports ≠ 0)
include hports

/-- A packet of no type, or of another version of its own type, is dropped. -/
theorem transport_dropped (hdrop : 3 < h.ttype ∨ h.ttype = ttype ∧ h.tver ≠ 1) (ok : Bool) : transport name ttype h ok f s = .next s := by
  have hmine : ¬(s.links.ports = 0 ∨ (h.ttype ≠ ttype ∧ h.ttype ≤ 3)) := by
    rintro (hp | ⟨hne, hle⟩)
    · exact hports hp
    · obtain hlt | ⟨heq, -⟩ := hdrop
      · omega
      · exact hne heq
  rw [transport, if_neg hmine, if_pos (hdrop.symm.imp_left And.right)]

variable (htype : h.ttype = ttype) (hty : ttype ≤ 3) (hver : h.tver = 1)
include htype hty hver

theorem transport_mine (ok : Bool) : transport name ttype h ok f s =
    if !ok || (connAt s h.conn).job.isNone then .next (setConn { connAt s h.conn with bad := (connAt s h.conn).bad + 1 } s)
    else .next (f { takeAck h.ackpsn (connAt s h.conn) with echoes := (connAt s h.conn).echoes + h.congestion.toNat } s) := by
  have hmine : ¬(s.links.ports = 0 ∨ (h.ttype ≠ ttype ∧ h.ttype ≤ 3)) := by
    rintro (hp | ⟨hne, -⟩)
    · exact hports hp
    · exact hne htype
  have hgood : ¬(h.tver ≠ 1 ∨ 3 < h.ttype) := by omega
  rw [transport, if_neg hmine, if_neg hgood]

/-- A packet with a bad tag, or on a connection that no job has, is counted and dropped. -/
theorem transport_bad {ok : Bool} (hbad : ok = false ∨ (connAt s h.conn).job = none) : transport name ttype h ok f s =
    .next (setConn { connAt s h.conn with bad := (connAt s h.conn).bad + 1 } s) := by
  rw [transport_mine hports htype hty hver, if_pos]
  obtain rfl | hjob := hbad
  · rfl
  · rw [hjob, Bool.or_eq_true]; exact .inr rfl

theorem transport_good (hjob : (connAt s h.conn).job ≠ none) : transport name ttype h true f s =
    .next (f { takeAck h.ackpsn (connAt s h.conn) with echoes := (connAt s h.conn).echoes + h.congestion.toNat } s) := by
  have hsome : (connAt s h.conn).job.isNone = false := by rwa [Option.isNone_eq_false_iff, Option.isSome_iff_ne_none]
  rw [transport_mine hports htype hty hver, if_neg (by rw [hsome]; decide)]

end

/-- An acknowledgment leaves what a connection waits for and its number. -/
theorem takeAck_leaves (ack : Nat) (c : Conn) : (takeAck ack c).id = c.id := by
  unfold takeAck; split <;> rfl

theorem le_nextPsn (k n : Nat) (seen : List Nat) : n ≤ nextPsn k n seen := by
  induction k generalizing n with
  | zero => exact Nat.le_refl n
  | succ k ih =>
    unfold nextPsn
    split
    · exact Nat.le_of_succ_le (ih (n + 1))
    · exact Nat.le_refl n

/-- Every number that the next expected one passes has been seen (R331). -/
theorem mem_seen_of_lt_nextPsn (k n : Nat) (seen : List Nat) {p : Nat} (hlo : n ≤ p) (hhi : p < nextPsn k n seen) : p ∈ seen := by
  induction k generalizing n with
  | zero => exact absurd hhi (Nat.not_lt.mpr hlo)
  | succ k ih =>
    unfold nextPsn at hhi
    split at hhi
    · next hn =>
      obtain rfl | hlt := Nat.eq_or_lt_of_le hlo
      · exact List.contains_iff_mem.mp hn
      · exact ih (n + 1) hlt hhi
    · exact absurd hhi (Nat.not_lt.mpr hlo)

/-- Bytes put one after another under successive numbers. -/
theorem get?_putBytes (bs : List Byte) (off k j : Nat) (m : List Host.Cell) :
    SMap.get? ((bs.zipIdx k).foldl (fun m x => SMap.put m (off + x.2) x.1) m) (off + j) =
      if k ≤ j ∧ j < k + bs.length then bs[j - k]? else SMap.get? m (off + j) := by
  induction bs generalizing k m with
  | nil =>
    have : ¬(k ≤ j ∧ j < k + ([] : List Byte).length) := by simp
    rw [if_neg this]; rfl
  | cons b bs ih =>
    rw [List.zipIdx_cons, List.foldl_cons, ih, SMap.get?_put]
    by_cases hk : j = k
    · subst hk
      simp
    · have hne : off + j ≠ off + k := by omega
      rw [if_neg hne]
      by_cases hin : k + 1 ≤ j ∧ j < k + 1 + bs.length
      · obtain ⟨i, rfl⟩ : ∃ i, j = k + 1 + i := ⟨j - (k + 1), by omega⟩
        rw [if_pos hin, if_pos (by simp; omega), show k + 1 + i - k = i + 1 by omega, show k + 1 + i - (k + 1) = i by omega,
          List.getElem?_cons_succ]
      · rw [if_neg hin, if_neg (by simp; omega)]

/-- The part of a message that a packet brings stands in it, first of the messages of its connection. -/
theorem addPart_head (h : TransportHeader) (payload : List Byte) (c : Conn) : ∃ x, (addPart h payload c).msgs.head? = some x
    ∧ x.1 = h.msgid ∧ ∀ j, j < payload.length → SMap.get? x.2.2.1 (h.offset + j) = payload[j]? := by
  refine ⟨_, rfl, rfl, fun j hj => ?_⟩
  exact (get?_putBytes payload h.offset 0 j _).trans (by rw [if_pos ⟨Nat.zero_le _, by omega⟩, Nat.sub_zero])

theorem takeData_refused {h : TransportHeader} {payload : List Byte} {c : Conn} (s : State)
    (hout : h.psn < c.next ∨ c.next + 4096 < h.psn ∨ h.psn ∈ c.seen ∨ 4096 < payload.length) : takeData h payload c s = setConn c s :=
  if_pos (by simpa [List.contains_iff_mem] using hout)

theorem takeData_taken {h : TransportHeader} {payload : List Byte} {c : Conn} (s : State) (hlo : c.next ≤ h.psn)
    (hhi : h.psn ≤ c.next + 4096) (hnew : h.psn ∉ c.seen) (hlen : payload.length ≤ 4096) : ∃ e,
      takeData h payload c s = setConn e (deliverMsg e h.msgid h.dest s) ∧ e.id = c.id ∧ c.next ≤ e.next
        ∧ (∀ p, c.next ≤ p → p < e.next → p = h.psn ∨ p ∈ c.seen)
        ∧ ∃ x, e.msgs.head? = some x ∧ x.1 = h.msgid ∧ ∀ j, j < payload.length → SMap.get? x.2.2.1 (h.offset + j) = payload[j]? := by
  have hin : ¬(h.psn < c.next ∨ c.next + 4096 < h.psn ∨ c.seen.contains h.psn = true ∨ 4096 < payload.length) := by
    rw [List.contains_iff_mem]; simp only [hnew, false_or]; omega
  refine ⟨_, if_neg hin, rfl, le_nextPsn .., fun p hp hlt => ?_, addPart_head ..⟩
  exact List.mem_cons.mp (mem_seen_of_lt_nextPsn _ _ _ hp hlt)

/-! Messages (R331, log 108). -/

theorem deliverMsg_unready {e : Conn} {id : Nat} (dest : Option Word) (s : State) (h : ∀ m ∈ e.msgs, m.1 = id → m.2.1 ≠ 1) :
    deliverMsg e id dest s = s := by
  unfold deliverMsg
  split
  · next hm _ => exact absurd rfl (h _ (List.mem_of_find?_eq_some hm) (by simpa using List.find?_some hm))
  · rfl

theorem deliverMsg_nowhere (e : Conn) (id : Nat) (s : State) : deliverMsg e id none s = s := by
  unfold deliverMsg
  split
  · next id' cells n a x _ hdest _ => cases hdest
  · rfl

theorem deliverMsg_writes {e : Conn} {id n : Nat} {cells : List Host.Cell} {a : Word} {x : Nat × Context} {s : State} {hs : List Nat}
    (hmsg : (e.msgs.find? fun m => m.1 == id) = some (id, 1, cells, some n))
    (hctx : (s.mon.ctxs.find? fun x => x.2.job.isSome && x.2.job == e.job) = some x)
    (hhomes : ((List.range n).mapM fun i => translate s x.1 .write false (a.toNat + i)) = .ok hs) :
    deliverMsg e id (some a) s = s.writeOuter
      (sharedCells (hs.zip ((List.range n).map fun i => (SMap.get? cells i).getD 0))) := by
  unfold deliverMsg
  rw [hmsg, hctx]
  simp only [remoteWrite, List.length_map, List.length_range, hhomes]

/-- The four packets of scale-out traffic, each as a transport of its type. -/
theorem exec_transport {h : TransportHeader} {payload : List Byte} {i : Bool → Instr} {ty : Nat}
    (hi : (i, ty) ∈ [((fun ok => .transportDataReceive h payload ok), 0), ((fun ok => .transportAckReceive h ok), 1),
      ((fun ok => .transportNackReceive h ok), 2), ((fun ok => .transportKeepaliveReceive h ok), 3)]) : ∃ name, ty ≤ 3
      ∧ ∀ ok s, exec (i ok) s = transport name ty h ok (if ty = 0 then takeData h payload else setConn) s := by
  simp only [List.mem_cons, List.not_mem_nil, or_false, Prod.mk.injEq] at hi
  obtain ⟨rfl, rfl⟩ | ⟨rfl, rfl⟩ | ⟨rfl, rfl⟩ | ⟨rfl, rfl⟩ := hi
  · exact ⟨"TRANSPORT_DATA_RECEIVE", by decide, fun ok s => rfl⟩
  · exact ⟨"TRANSPORT_ACK_RECEIVE", by decide, fun ok s => rfl⟩
  · exact ⟨"TRANSPORT_NACK_RECEIVE", by decide, fun ok s => rfl⟩
  · exact ⟨"TRANSPORT_KEEPALIVE_RECEIVE", by decide, fun ok s => rfl⟩

/-- Settles O59: each event of the links answers by the lemma above about its own function. -/
theorem linkEvents : Obligations.LinkEvents := by
  refine ⟨?ide, ?lost, ?integrity, ?read, ?write, ?planes, ?port, ?flit, ?packets, ?message, fun e id dest s h => deliverMsg_unready dest s h,
    ?table, ?timeout, ?send⟩
  case ide =>
    intro s hpower hrun hrec
    have hup : cxlUp { s with links := { s.links with linkUp := true, ide := true } } = true := by simp [cxlUp, hpower]
    obtain ⟨hlinks, hwaiting, hc⟩ := flushWaiting_up hup
    exact ⟨_, execIdeEstablish_up hpower hrun hrec, hlinks, hwaiting, hc, fun h => flushWaiting_nothing h⟩
  case lost => exact fun s h => if_neg (by rw [h]; decide)
  case integrity => exact fun s h => if_neg (by rw [h]; decide)
  case read =>
    intro w off len s x hx hcxl hsize hpa hoff hlen
    exact ⟨_, execHostWindowRead_blocks hx hcxl hsize hpa hoff hlen, rfl, rfl⟩
  case write =>
    intro w off data s x hx hcxl hsize
    exact ⟨_, execHostWindowWrite_blocks hx hcxl hsize, fun c hc => mem_blockCells hc, fun b hlo hhi i hi => blockCells_mem hlo hhi hi⟩
  case planes =>
    intro p s
    refine ⟨fun h => ⟨_, if_pos h, rfl, fun i hi => getLsbD_clearBit _ _ hi⟩, fun h hrun hrec => ?_⟩
    exact ⟨_, if_neg (by simp [h, hrun, hrec]), rfl, fun i hi => getLsbD_setBit _ _ hi⟩
  case port => exact fun p s h => ⟨_, if_pos h, rfl, fun i hi => getLsbD_clearBit _ _ hi⟩
  case flit =>
    intro p payload s hplane hpod hlen
    exact ⟨execFlitReceive_taken hplane hpod hlen true, _, execFlitReceive_taken hplane hpod hlen false, rfl, get?_bump ..⟩
  case packets =>
    intro h payload s i ty c d hi hports
    obtain ⟨name, hty, hexec⟩ := exec_transport hi
    refine ⟨fun hdrop ok => (hexec ok s).trans (transport_dropped hports hdrop ok), ?_⟩
    rintro htype hver rfl hid rfl
    have hgood (hjob : (connAt s h.conn).job ≠ none) := (hexec true s).trans (transport_good hports htype hty hver hjob)
    refine ⟨fun ok hbad => (hexec ok s).trans (transport_bad hports htype hty hver hbad), fun hne hjob => ?_, fun hdata hjob => ⟨fun hout => ?_, ?_⟩⟩
    · rw [hgood hjob, if_neg hne]; rfl
    · rw [hgood hjob, if_pos hdata]
      exact congrArg Host.Outcome.next (takeData_refused s hout)
    · intro hlo hhi hnew hlen
      obtain ⟨e, htake, heid, hrest⟩ := takeData_taken s hlo hhi hnew hlen
      refine ⟨e, ?_, heid.trans (takeAck_leaves h.ackpsn _), hrest⟩
      rw [hgood hjob, if_pos hdata]
      exact congrArg Host.Outcome.next htake
  case message =>
    rintro e id n cells hs a x s at_ hmsg hctx hhomes rfl
    exact ⟨deliverMsg_writes hmsg hctx hhomes, deliverMsg_nowhere e id s⟩
  case table =>
    intro c s
    exact ⟨(connAt_setConn c s c.id).trans (if_pos rfl), fun n hn => (connAt_setConn c s n).trans (if_neg hn)⟩
  case timeout =>
    rintro conn s c rfl h
    exact if_neg (by simpa using h)
  case send =>
    rintro conn n s c hports rfl hid
    refine ⟨sendPackets conn n s, congrArg Host.Outcome.next (if_neg hports), ?_⟩
    exact (connAt_setConn _ s conn).trans (if_pos hid.symm)

end Sys2Proof.Machine
end

section
/-! SUPPORT. Mailbox commands that are served, the flash and its marker records, firmware updates, patch sets, boot, and the loss of power
(R323, R324, R338, R362 to R367, R386). -/

namespace Sys2Proof.Machine

/-- A command that a ready mailbox serves answers as its function says. -/
theorem answers_of_serve {i : Instr} {name : String} {m : Mb} {op status detail : Nat} {resp : List Byte} {f : State → MailRes} {s t : State}
    (hr : mailReady m s) (o : Out) (hi : exec i s = o) (ho : o = mailCall name m op f s) (hf : f s = ⟨t, status, detail, resp⟩) :
    answers i s m op status detail resp t := by
  rw [answers, hi, ho, mailCall_of_mailReady hr, hf]

theorem recovery_of_mailReady {m : Mb} {s : State} (hr : mailReady m s) : s.mon.flash.recovery = false := by
  obtain ⟨-, -, -, hrec, -⟩ := hr; exact hrec

/-! The flash: bytes that are programmed, and the marker records (R363, R364, Table 23-12). -/

theorem length_programHead (off : Nat) (l : List Byte) : (l.take off ++ List.replicate (off - l.length) (0xFF : Byte)).length = off := by
  rw [List.length_append, List.length_take, List.length_replicate]; omega

/-- Data that is programmed stands at its place. -/
theorem program_getElem?_data {off i : Nat} {data : List Byte} (l : List Byte) (hi : i < data.length) :
    (program off data l)[off + i]? = data[i]? := by
  have hhead := length_programHead off l
  rw [program, List.append_assoc, List.getElem?_append_right (by omega), hhead, Nat.add_sub_cancel_left, List.getElem?_append_left hi]

/-- What stood before its place stays. -/
theorem program_getElem?_before {off i : Nat} (data : List Byte) {l : List Byte} (hi : i < off) (hl : i < l.length) :
    (program off data l)[i]? = l[i]? := by
  rw [program, List.append_assoc, List.append_assoc, List.getElem?_append_left (by rw [List.length_take]; omega), List.getElem?_take_of_lt hi]

theorem length_halfWritten (fresh off : Nat) (data l : List Byte) : (halfWritten fresh off data l).length = data.length := by
  simp [halfWritten]

/-- Each byte of a write that failed is the new one or the old one. -/
theorem halfWritten_getElem? (fresh off : Nat) {data : List Byte} (l : List Byte) {i : Nat} (hi : i < data.length) :
    (halfWritten fresh off data l)[i]? = data[i]? ∨ (halfWritten fresh off data l)[i]? = some ((l[off + i]?).getD 0xFF) := by
  simp only [halfWritten, List.getElem?_map, List.getElem?_zipIdx, List.getElem?_eq_getElem hi, Option.map_some, Nat.zero_add]
  split
  · exact .inl rfl
  · exact .inr rfl

theorem slotImage_writeSlot_same (b : Bool) (off : Nat) (data : List Byte) (f : Flash) :
    slotImage (writeSlot b off data f) b = program off data (slotImage f b) := by cases b <;> rfl

theorem slotImage_writeSlot_other (b : Bool) (off : Nat) (data : List Byte) (f : Flash) :
    slotImage (writeSlot b off data f) (!b) = slotImage f (!b) := by cases b <;> rfl

theorem openBytes_of_opened {f : Flash} {b : Bool} (h : f.opened = some b) : openBytes f = some (slotImage f b) := by
  rw [openBytes, h]; rfl

theorem markers_toList (f : Flash) : f.markers.toList = [f.markers[0], f.markers[1]] := by
  refine List.ext_getElem (by simp) fun i h1 h2 => ?_
  have hi : i < 2 := h2
  match i, hi with
  | 0, _ => simp
  | 1, _ => simp

/-- The current record stands at its place, and the other one is no newer. -/
theorem currentMarker_cases {f : Flash} {n : Nat} {c : Marker} (h : currentMarker f = some (n, c)) :
    (n = 0 ∧ f.markers[0] = some c) ∨ (n = 1 ∧ f.markers[1] = some c) := by
  unfold currentMarker at h
  rw [markers_toList] at h
  cases h0 : f.markers[0] <;> cases h1 : f.markers[1] <;> rw [h0, h1] at h <;> dsimp only at h
  case none.none => cases h
  case none.some => simp at h; simp [h]
  case some.none => simp at h; simp [h]
  case some.some a b =>
    split at h <;> simp at h <;> simp [h]

theorem flipPlace_of_current {f : Flash} {n : Nat} {c : Marker} (h : currentMarker f = some (n, c)) : flipPlace f = 1 - n := by
  rw [flipPlace, h]
  obtain ⟨rfl, -⟩ | ⟨rfl, -⟩ := currentMarker_cases h <;> rfl

/-- A flip programs the record that is not current, and the current one stands. -/
theorem flipMarker_markers {f : Flash} {n : Nat} {c : Marker} (h : currentMarker f = some (n, c)) (r : Option Marker) :
    (flipMarker r f).markers.toList = if n = 0 then [some c, r] else [r, some c] := by
  have hplace := flipPlace_of_current h
  have hlt : flipPlace f < 2 := by omega
  rw [markers_toList]
  simp only [flipMarker, dif_pos hlt, Vector.getElem_set]
  obtain ⟨rfl, hc⟩ | ⟨rfl, hc⟩ := currentMarker_cases h <;> simp [hplace, hc]

/-- A record of a higher number that is flipped in becomes current, at the other place (R363, R364). -/
theorem currentMarker_flip {f : Flash} {n : Nat} {c r : Marker} (h : currentMarker f = some (n, c)) (hseq : c.seq < r.seq) :
    currentMarker (flipMarker (some r) f) = some (1 - n, r) := by
  rw [currentMarker, flipMarker_markers h]
  obtain ⟨rfl, -⟩ | ⟨rfl, -⟩ := currentMarker_cases h
  · simp [hseq]
  · simp [Nat.lt_asymm hseq]

/-- A record that is left torn leaves the current one current (Table 23-12). -/
theorem currentMarker_torn {f : Flash} {n : Nat} {c : Marker} (h : currentMarker f = some (n, c)) :
    currentMarker (flipMarker none f) = some (n, c) ∧ (flipMarker none f).markers.toList[1 - n]? = some none := by
  rw [currentMarker, flipMarker_markers h]
  obtain ⟨rfl, -⟩ | ⟨rfl, -⟩ := currentMarker_cases h
  · exact ⟨rfl, rfl⟩
  · exact ⟨rfl, rfl⟩

theorem otherPlace_ne {f : Flash} {n : Nat} {c : Marker} (h : currentMarker f = some (n, c)) : 1 - n ≠ n := by
  obtain ⟨rfl, -⟩ | ⟨rfl, -⟩ := currentMarker_cases h <;> decide

/-! Firmware updates (R364, R365). -/

/-- The flash with a slot opened and erased. -/
def openSlot (b : Bool) (f : Flash) : Flash :=
  { f with opened := some b, checked := none, slotA := if b then f.slotA else [], slotB := if b then [] else f.slotB }

section
variable {m : Mb} {s : State} (hr : mailReady m s)
include hr

theorem fwOpen_opens (target : BitVec 8) (hopen : s.mon.flash.opened = none) : answers (.fwOpen m target) s m 0xA0 0 0 []
    (onFlash (openSlot (!((currentMarker s.mon.flash).map fun c => c.2.active).getD false)) s) := by
  have hrec := recovery_of_mailReady hr
  exact answers_of_serve hr (execFwOpen m target s) rfl rfl (by simp only [hopen, hrec]; rfl)

theorem fwOpen_refused (target : BitVec 8) {b : Bool} (hopen : s.mon.flash.opened = some b) :
    answers (.fwOpen m target) s m 0xA0 4 1 [] s :=
  answers_of_serve hr (execFwOpen m target s) rfl rfl (by simp only [hopen]; rfl)

section
variable {off : Nat} {data : List Byte} {b : Bool} (hopen : s.mon.flash.opened = some b)
include hopen

theorem fwWrite_outside (h : 32768 < data.length ∨ 2 ^ 23 < off + data.length) : answers (.fwWrite m off data) s m 0xA1 3 0 [] s :=
  answers_of_serve hr (execFwWrite m off data s) rfl rfl (by simp only [hopen]; exact if_pos h)

variable (hlen : data.length ≤ 32768) (hoff : off + data.length ≤ 2 ^ 23)
include hlen hoff

theorem fwWrite_fails (hfails : s.mon.flash.fails = some 0) : answers (.fwWrite m off data) s m 0xA1 4 10 []
    (flashFailed data.length (fun f => writeSlot b off (halfWritten s.c.fresh off data (slotImage s.mon.flash b)) f) s).st := by
  have hin : ¬(32768 < data.length ∨ 2 ^ 23 < off + data.length) := by omega
  refine answers_of_serve hr (execFwWrite m off data s) rfl rfl ?_
  simp only [hopen, if_neg hin, writeFails, hfails]
  rfl

theorem fwWrite_writes (hfails : s.mon.flash.fails ≠ some 0) : answers (.fwWrite m off data) s m 0xA1 0 0 []
    (onFlash (fun f => wrote 1 (writeSlot b off data f)) s) := by
  have hin : ¬(32768 < data.length ∨ 2 ^ 23 < off + data.length) := by omega
  refine answers_of_serve hr (execFwWrite m off data s) rfl rfl ?_
  simp only [hopen, if_neg hin, writeFails, beq_iff_eq, if_neg hfails]
  rfl

end

theorem fwCheck_refused {b : Bool} {d : Nat} (hopen : s.mon.flash.opened = some b)
    (hd : firmwareRefusal s.mon.flash.floorFw (slotImage s.mon.flash b) = some d) : answers (.fwCheck m) s m 0xA2 4 d [] s :=
  answers_of_serve hr (execFwCheck m s) rfl rfl (by simp only [openBytes_of_opened hopen, hd]; rfl)

theorem fwCheck_verifies {b : Bool} (hopen : s.mon.flash.opened = some b)
    (hok : firmwareRefusal s.mon.flash.floorFw (slotImage s.mon.flash b) = none) :
    answers (.fwCheck m) s m 0xA2 0 0 (measureOf (slotImage s.mon.flash b))
      (onFlash (fun f => { f with checked := some (measureOf (slotImage s.mon.flash b)) }) s) :=
  answers_of_serve hr (execFwCheck m s) rfl rfl (by simp only [openBytes_of_opened hopen, hok])

section
variable {b : Bool} {meas : List Byte} {n : Nat} {c : Marker} (hopen : s.mon.flash.opened = some b)
  (hcheck : s.mon.flash.checked = some meas) (hcur : currentMarker s.mon.flash = some (n, c))
include hopen hcheck hcur

theorem fwFlip_fails (hfails : s.mon.flash.fails = some 0) :
    answers (.fwFlip m) s m 0xA3 4 10 [] (flashFailed 0 (flipMarker none) s).st :=
  answers_of_serve hr (execFwFlip m s) rfl rfl (by simp only [hopen, hcheck, hcur, writeFails, hfails]; rfl)

theorem fwFlip_flips (hfails : s.mon.flash.fails ≠ some 0) : answers (.fwFlip m) s m 0xA3 0 0 [] (onFlash (fun f =>
    wrote 1 { flipMarker (some ⟨c.seq + 1, b, c.patch, meas, c.psmeas⟩) f with opened := none, checked := none }) s) :=
  answers_of_serve hr (execFwFlip m s) rfl rfl (by
    simp only [hopen, hcheck, hcur, writeFails, beq_iff_eq, if_neg hfails]; rfl)

end

/-! Patch sets (R362, R364). -/

/-- The flash with an image in the copy of the patch set that a marker does not name. -/
def stageCopy (c : Marker) (bs : List Byte) (f : Flash) : Flash :=
  if c.patch = 1 then { f with patch1 := bs } else { f with patch0 := bs }

/-- The marker that names that copy. -/
def stagedMarker (c : Marker) (bs : List Byte) : Marker :=
  ⟨c.seq + 1, c.active, if c.patch = 1 then 2 else 1, c.fwmeas, measureOf bs⟩

omit hr in
theorem hostImage_up (hcxl : cxlUp s = true) (addr len : Nat) : hostImage s addr len = hostBytes s addr len := if_pos hcxl

section
variable {addr len : Nat} (hcxl : cxlUp s = true) (hlen : len ≤ 2 ^ 20)
include hcxl hlen

theorem stagePatch_refused {d : Nat} (hd : patchRefusal s.mon.flash.floorPs s.mon.flash.fwver (hostBytes s addr len) = some d) :
    answers (.stagePatch m addr len) s m 0xA4 4 d [] s :=
  answers_of_serve hr (execStagePatch m addr len s) rfl rfl (by
    simp only [hostImage_up hcxl, if_neg (Nat.not_lt.mpr hlen), hd]; rfl)

omit hlen in
theorem livePatch_refused {d : Nat} (hd : patchRefusal s.mon.flash.floorPs s.mon.flash.fwver (hostBytes s addr len) = some d) :
    answers (.livePatch m addr len) s m 0xA5 4 d [] s :=
  answers_of_serve hr (execLivePatch m addr len s) rfl rfl (by simp only [hostImage_up hcxl, hd]; rfl)

variable (hok : patchRefusal s.mon.flash.floorPs s.mon.flash.fwver (hostBytes s addr len) = none)
include hok

section
variable {n : Nat} {c : Marker} (hcur : currentMarker s.mon.flash = some (n, c))
include hcur

theorem stagePatch_copyFails (hfails : s.mon.flash.fails = some 0) : ∃ bs, answers (.stagePatch m addr len) s m 0xA4 4 10 []
    (flashFailed (hostBytes s addr len).length (fun _ => stageCopy c bs s.mon.flash) s).st := by
  refine ⟨halfWritten s.c.fresh 0 (hostBytes s addr len) (if c.patch = 1 then s.mon.flash.patch1 else s.mon.flash.patch0),
    answers_of_serve hr (execStagePatch m addr len s) rfl rfl ?_⟩
  simp only [hostImage_up hcxl, if_neg (Nat.not_lt.mpr hlen), hok, hcur, writeFails, hfails, stageCopy, Option.map_some, Option.getD_some]
  by_cases hp : c.patch = 1 <;> simp [hp] <;> rfl

theorem stagePatch_recordFails (hfails : s.mon.flash.fails = some 1) : answers (.stagePatch m addr len) s m 0xA4 4 10 []
    (flashFailed 0 (fun _ => flipMarker none (stageCopy c (hostBytes s addr len) s.mon.flash)) s).st := by
  refine answers_of_serve hr (execStagePatch m addr len s) rfl rfl ?_
  simp only [hostImage_up hcxl, if_neg (Nat.not_lt.mpr hlen), hok, hcur, writeFails, hfails, stageCopy, Option.map_some, Option.getD_some]
  by_cases hp : c.patch = 1 <;> simp [hp] <;> rfl

theorem stagePatch_stages (h0 : s.mon.flash.fails ≠ some 0) (h1 : s.mon.flash.fails ≠ some 1) :
    answers (.stagePatch m addr len) s m 0xA4 0 0 [] (onFlash (fun _ =>
      wrote 2 (flipMarker (some (stagedMarker c (hostBytes s addr len))) (stageCopy c (hostBytes s addr len) s.mon.flash))) s) := by
  refine answers_of_serve hr (execStagePatch m addr len s) rfl rfl ?_
  simp only [hostImage_up hcxl, if_neg (Nat.not_lt.mpr hlen), hok, hcur, writeFails, beq_iff_eq, if_neg h0, if_neg h1, stageCopy,
    stagedMarker, Option.map_some, Option.getD_some]
  by_cases hp : c.patch = 1 <;> simp [hp] <;> rfl

end

omit hlen

theorem livePatch_loads (hold : oldSetUsed s = false) : answers (.livePatch m addr len) s m 0xA5 0 0 []
    (commitSet (patchSetOf (hostBytes s addr len)) s) :=
  answers_of_serve hr (execLivePatch m addr len s) rfl rfl (by simp only [hostImage_up hcxl, hok, liveLoad, hold]; rfl)

theorem livePatch_used (hold : oldSetUsed s = true) : answers (.livePatch m addr len) s m 0xA5 4 9 [] s :=
  answers_of_serve hr (execLivePatch m addr len s) rfl rfl (by simp only [hostImage_up hcxl, hok, liveLoad, hold]; rfl)

end

theorem clearLive_clears (hold : oldSetUsed s = false) : answers (.clearLive m) s m 0xA8 0 0 [] (commitSet PatchSet.empty s) :=
  answers_of_serve hr (execClearLive m s) rfl rfl (by simp only [liveLoad, hold]; rfl)

theorem clearLive_used (hold : oldSetUsed s = true) : answers (.clearLive m) s m 0xA8 4 9 [] s :=
  answers_of_serve hr (execClearLive m s) rfl rfl (by simp only [liveLoad, hold]; rfl)

theorem fwState_reports : answers (.fwState m) s m 0xA6 0 0 ((s.mon.flash.markers.toList.flatMap markerImage) ++ setMeas s.mon.sfCur
    ++ lastMeas s ++ (List.range 32).flatMap fun i => natLe 8 ((SMap.get? s.mon.sfHits i).getD 0)) s :=
  answers_of_serve hr (execFwState m s) rfl rfl rfl

/-- FW_RESET waits for no mailbox but its own, and for launches that run (R364). -/
theorem execFwReset_ready : execFwReset m s = if !s.fe.launches.any fun l => l.started && !l.saved then .next (enterS3 s)
    else mailCall "FW_RESET" m 0xA7 (fun s => mailNo s 2) s := by
  obtain ⟨hlink, hpower, hrun, -, hbusy⟩ := hr
  have hup : (s.links.linkUp && s.health.power != 3 && s.mon.flash.running && !mailBusy m.die s) = true := by
    simp [hlink, hpower, hrun, hbusy]
  rw [execFwReset, hup, Bool.true_and]

theorem fwReset_resets (h : ∀ l ∈ s.fe.launches, l.started = true → l.saved = true) : exec (.fwReset m) s = .next (enterS3 s) := by
  have hnone : (s.fe.launches.any fun l => l.started && !l.saved) = false := List.any_eq_false.mpr fun l hl => by
    have := h l hl
    cases hs : l.started <;> simp_all
  exact (execFwReset_ready hr).trans (by rw [hnone]; rfl)

theorem fwReset_refused (h : ∃ l ∈ s.fe.launches, l.started = true ∧ l.saved = false) : answers (.fwReset m) s m 0xA7 4 2 [] s := by
  obtain ⟨l, hl, hstarted, hsaved⟩ := h
  have hany : (s.fe.launches.any fun l => l.started && !l.saved) = true :=
    List.any_eq_true.mpr ⟨l, hl, by rw [hstarted, hsaved]; rfl⟩
  exact answers_of_serve hr (execFwReset m s) rfl ((execFwReset_ready hr).trans (by rw [hany]; rfl)) rfl

end

/-! Boot (R366, R386, R401), and the loss of power (R338, R367). -/

/-- A slot that boot runs verifies, and it is the active one unless that does not. -/
theorem bootSlot_verifies {f : Flash} {b : Bool} (h : bootSlot f = some b) : firmwareRefusal f.floorFw (slotImage f b) = none
    ∧ (b = ((currentMarker f).map fun c => c.2.active).getD false ∨ firmwareRefusal f.floorFw (slotImage f (!b)) ≠ none) := by
  unfold bootSlot at h
  dsimp only at h
  generalize ((currentMarker f).map fun c => c.2.active).getD false = first at h ⊢
  split at h
  · next hfirst =>
    obtain rfl := Option.some.inj h
    exact ⟨Option.isNone_iff_eq_none.mp hfirst, .inl rfl⟩
  · next hfirst =>
    split at h
    · next hother =>
      obtain rfl := Option.some.inj h
      rw [Bool.not_not]
      exact ⟨Option.isNone_iff_eq_none.mp hother, .inr fun hnone => hfirst (Option.isNone_iff_eq_none.mpr hnone)⟩
    · cases h

/-- The health state that a boot takes from the latest record (R386). -/
def bootHealth (r : Option HealthRecord) (h : Health) : Health :=
  match r with
  | some r => { h with
      power := 0, spare := r.spare, replace := r.replace
      subst := Vector.ofFn fun i => (r.subst[i.val]?).getD 0, uavail := Vector.ofFn fun i => (r.uavail[i.val]?).getD 0 }
  | none => { h with power := 0 }

theorem bootHealth_power (r : Option HealthRecord) (h : Health) : (bootHealth r h).power = 0 := by cases r <;> rfl

/-- The links that a boot brings up (R401). -/
def bootLinks (reports : List SwitchReport) (l : Links) : Links :=
  { l with
    linkUp := true, ide := false, ports := BitVec.allOnes 32, pod := podOf reports
    planes := if (podOf reports).isNone then 0
      else reports.foldl (fun p r => p ||| ((1 : BitVec 64) <<< r.plane.toNat)) 0 }

/-- The package with its health state and its links up, on the images of a boot. -/
def broughtUp (reports : List SwitchReport) (t : State) : State :=
  { t with
    health := bootHealth (latestRecord t) t.health
    links := if t.mon.flash.recovery then { t.links with linkUp := true } else bootLinks reports t.links }

theorem execBoot_eq {s : State} (hoff : s.mon.flash.running = false) (failed : List (BitVec 8)) (reports : List SwitchReport) :
    execBoot failed reports s = .next (if (bootImages s).mon.flash.recovery then broughtUp reports (bootImages s)
      else failed.foldl (fun t c => replaceCore c.toNat t) (broughtUp reports (bootImages s))) := by
  rw [execBoot, if_neg (by rw [hoff]; decide)]
  generalize bootImages s = t
  dsimp only
  unfold broughtUp bootHealth bootLinks
  cases latestRecord t <;> dsimp only

theorem bootImages_of_none {s : State} (hslot : bootSlot s.mon.flash = none) :
    bootImages s = onFlash (fun f => { f with recovery := true, running := true }) s := by
  unfold bootImages; rw [hslot]

/-- The monitor's part after a boot from a slot, with the staged set that it loads (R365, R366). -/
def bootMonitor (b : Bool) (set : Option (List Byte)) (mon : Monitor) : Monitor :=
  let bs := slotImage mon.flash b
  { mon with
    flash := { mon.flash with
      recovery := false, running := true, fwver := leAt bs 16 8, fwmeas := measureOf bs, floorFw := max mon.flash.floorFw (leAt bs 24 8)
      floorPs := match set with | some p => max mon.flash.floorPs (leAt p 24 8) | none => mon.flash.floorPs
      unstaged := mon.flash.unstaged + (notStaged mon.flash set).toNat }
    sfCur := match set with | some p => patchSetOf p | none => PatchSet.empty
    sfPrev := none, sfHits := [] }

theorem bootImages_of_slot {s : State} {b : Bool} (hslot : bootSlot s.mon.flash = some b) : bootImages s = { s with
    mon := bootMonitor b (stagedSet s.mon.flash b (leAt (slotImage s.mon.flash b) 16 8)) s.mon } := by
  unfold bootImages
  rw [hslot]
  unfold bootMonitor
  dsimp only
  generalize stagedSet s.mon.flash b (leAt (slotImage s.mon.flash b) 16 8) = set
  cases set <;> rfl

/-- The loss of a core at the self-test leaves the monitor, the links and the power state. -/
theorem foldl_replaceCore_leaves (failed : List (BitVec 8)) (s : State) :
    (failed.foldl (fun t c => replaceCore c.toNat t) s).mon = s.mon ∧ (failed.foldl (fun t c => replaceCore c.toNat t) s).links = s.links
      ∧ (failed.foldl (fun t c => replaceCore c.toNat t) s).health.power = s.health.power := by
  have hpower (core : Nat) (h : Health) : (healthWithout core h).power = h.power := by
    unfold healthWithout; dsimp only; split <;> rfl
  exact ⟨foldl_keeps (f := fun t c => replaceCore (BitVec.toNat c) t) (·.mon) (fun _ _ => rfl) failed s,
    foldl_keeps (f := fun t c => replaceCore (BitVec.toNat c) t) (·.links) (fun _ _ => rfl) failed s,
    foldl_keeps (f := fun t c => replaceCore (BitVec.toNat c) t) (·.health.power) (fun _ _ => hpower ..) failed s⟩

/-- Settles O58: each command and event answers by the lemma above about its own function. -/
theorem firmwareEvents : Obligations.FirmwareEvents := by
  refine ⟨?opens, ?writes, ?checks, ?flips, ?stages, ?states, ?boots, fun f b h => bootSlot_verifies h, ?power⟩
  case opens =>
    intro m target s hr
    refine ⟨?_, fun b hopen => fwOpen_refused hr target hopen⟩
    rintro hopen b rfl
    refine ⟨_, fwOpen_opens hr target hopen, rfl, rfl, ?_, rfl⟩
    cases hb : !((currentMarker s.mon.flash).map fun c => c.2.active).getD false <;> simp [onFlash, openSlot]
  case writes =>
    intro m off data s b hr hopen
    refine ⟨fwWrite_outside hr hopen, fun hlen hoff hfails => ?_, fun hlen hoff hfails => ?_⟩
    · refine ⟨_, fwWrite_fails hr hopen hlen hoff hfails, rfl, rfl, hopen, rfl, slotImage_writeSlot_other .., fun i hi => ?_⟩
      have hdata := program_getElem?_data (off := off) (slotImage s.mon.flash b)
        ((length_halfWritten s.c.fresh off data (slotImage s.mon.flash b)).symm ▸ hi)
      rw [← slotImage_writeSlot_same] at hdata
      exact (halfWritten_getElem? s.c.fresh off (slotImage s.mon.flash b) hi).imp hdata.trans hdata.trans
    · refine ⟨_, fwWrite_writes hr hopen hlen hoff hfails, rfl, hopen, slotImage_writeSlot_other .., fun i hi => ?_, fun i hi hl => ?_⟩
      · exact (congrArg (·[off + i]?) (slotImage_writeSlot_same b off data s.mon.flash)).trans (program_getElem?_data _ hi)
      · exact (congrArg (·[i]?) (slotImage_writeSlot_same b off data s.mon.flash)).trans (program_getElem?_before _ hi hl)
  case checks =>
    exact fun m s b hr hopen => ⟨fun d hd => fwCheck_refused hr hopen hd, fun hok => ⟨_, fwCheck_verifies hr hopen hok, rfl⟩⟩
  case flips =>
    intro m s b meas n c hr hopen hcheck hcur
    refine ⟨fun hfails => ?_, fun hfails => ?_⟩
    · exact ⟨_, fwFlip_fails hr hopen hcheck hcur hfails, rfl, (currentMarker_torn hcur).1, rfl, rfl⟩
    · exact ⟨_, 1 - n, fwFlip_flips hr hopen hcheck hcur hfails, currentMarker_flip (r := ⟨c.seq + 1, b, c.patch, meas, c.psmeas⟩) hcur
        (Nat.lt_succ_self _), otherPlace_ne hcur, rfl, rfl, rfl, rfl⟩
  case stages =>
    rintro m addr len n s bs c hr hcxl rfl hlen hcur
    have hcopy (bs : List Byte) : currentMarker (stageCopy c bs s.mon.flash) = some (n, c) := by
      unfold stageCopy; split <;> exact hcur
    have hcopies (bs : List Byte) : if c.patch = 1 then (stageCopy c bs s.mon.flash).patch1 = bs
        ∧ (stageCopy c bs s.mon.flash).patch0 = s.mon.flash.patch0
        else (stageCopy c bs s.mon.flash).patch0 = bs ∧ (stageCopy c bs s.mon.flash).patch1 = s.mon.flash.patch1 := by
      by_cases hp : c.patch = 1 <;> simp [stageCopy, hp]
    refine ⟨fun d hd => ⟨stagePatch_refused hr hcxl hlen hd, livePatch_refused hr hcxl hd⟩, fun hok => ⟨fun hfails => ?_, fun hfails => ?_,
      fun h0 h1 => ?_, livePatch_loads hr hcxl hok, livePatch_used hr hcxl hok⟩⟩
    · obtain ⟨half, hanswers⟩ := stagePatch_copyFails hr hcxl hlen hok hcur hfails
      refine ⟨_, hanswers, rfl, ?_, ?_⟩
      · change (stageCopy c half s.mon.flash).markers = _
        unfold stageCopy; split <;> rfl
      · have hkept := hcopies half
        by_cases hp : c.patch = 1
        · rw [if_pos hp] at hkept ⊢; exact hkept.2
        · rw [if_neg hp] at hkept ⊢; exact hkept.2
    · obtain ⟨htorn, hnone⟩ := currentMarker_torn (hcopy (hostBytes s addr len))
      exact ⟨_, stagePatch_recordFails hr hcxl hlen hok hcur hfails, rfl, htorn, hnone, hcopies _, rfl⟩
    · refine ⟨_, 1 - n, stagePatch_stages hr hcxl hlen hok hcur h0 h1, ?_, otherPlace_ne hcur, hcopies _, rfl⟩
      exact currentMarker_flip (r := stagedMarker c (hostBytes s addr len)) (hcopy (hostBytes s addr len)) (Nat.lt_succ_self _)
  case states =>
    intro m s hr
    refine ⟨clearLive_clears hr, clearLive_used hr, ?_, fwReset_resets hr, fwReset_refused hr⟩
    have hstate := fwState_reports hr
    rw [lastMeas] at hstate
    cases hprev : s.mon.sfPrev <;> rw [hprev] at hstate <;> exact hstate
  case boots =>
    intro failed reports s hoff
    refine ⟨fun hslot => ?_, fun b hslot => ?_⟩
    · refine ⟨broughtUp reports (bootImages s), (execBoot_eq hoff ..).trans ?_, ?_⟩
      · rw [bootImages_of_none hslot]; exact congrArg Host.Outcome.next (if_pos rfl)
      · rw [bootImages_of_none hslot]; exact ⟨rfl, rfl, bootHealth_power .., rfl⟩
    · refine ⟨failed.foldl (fun t c => replaceCore c.toNat t) (broughtUp reports (bootImages s)), (execBoot_eq hoff ..).trans ?_, ?_⟩
      · rw [bootImages_of_slot hslot]; exact congrArg Host.Outcome.next (if_neg Bool.false_ne_true)
      obtain ⟨hmon, hlinks, hpower⟩ := foldl_replaceCore_leaves failed (broughtUp reports (bootImages s))
      rw [hmon, hlinks, hpower, bootImages_of_slot hslot]
      refine ⟨rfl, rfl, rfl, rfl, rfl, rfl, rfl, rfl, rfl, bootHealth_power .., fun h => ?_, rfl, ?_⟩
      · exact if_pos (Option.isNone_iff_eq_none.mpr h)
      · rintro rfl r hlast
        have hhealth (mon : Monitor) : (broughtUp reports { s with mon := mon }).health = bootHealth (latestRecord s) s.health := rfl
        rw [List.foldl_nil, hhealth, hlast]
        exact ⟨rfl, rfl, fun i => Vector.getElem_ofFn _⟩
  case power =>
    intro s
    refine ⟨_, rfl, rfl, rfl, rfl, rfl, rfl, rfl, rfl, rfl, rfl, fun a ha => ?_⟩
    refine memGet_filter_dropped (keep := fun a => decide (hostHome 0 ≤ a) && decide (a < tagHome 1 0)) _ ?_
    have hlow : ¬hostHome 0 ≤ a := by unfold hostHome; omega
    rw [decide_eq_false hlow]; rfl

end Sys2Proof.Machine
end

section
/-! SUPPORT. The mailbox: how a command answers, the tables and keys of a context that is created, and the completion of a disable command
(R284, R301, R318, R323, R324, R367). -/

namespace Sys2Proof.Machine

/-! How a command answers (R323, R324, Table 17-2). -/

/-- STATUS, DETAIL, tag and length as MBSTS holds them. -/
theorem statusWord_fields {v len tag detail status : Nat} (hv : v = len * 2 ^ 48 + tag * 2 ^ 32 + detail % 2 ^ 24 * 2 ^ 8 + status)
    (hlen : len < 2 ^ 16) (htag : tag < 2 ^ 16) (hstatus : status < 2 ^ 8) : (BitVec.ofNat 64 v).toNat % 2 ^ 8 = status
      ∧ (BitVec.ofNat 64 v).toNat / 2 ^ 8 % 2 ^ 24 = detail % 2 ^ 24 ∧ (BitVec.ofNat 64 v).toNat / 2 ^ 32 % 2 ^ 16 = tag
      ∧ (BitVec.ofNat 64 v).toNat / 2 ^ 48 = len := by
  have hd : detail % 2 ^ 24 < 2 ^ 24 := Nat.mod_lt _ (by decide)
  have hlt : v < 2 ^ 64 := by omega
  rw [BitVec.toNat_ofNat, Nat.mod_eq_of_lt hlt]
  omega

theorem cmdWord_toNat (tag : BitVec 16) {op : Nat} (hop : op < 2 ^ 16) : (cmdWord tag op).toNat = tag.toNat * 2 ^ 16 + op := by
  have hlt : tag.toNat * 2 ^ 16 + op < 2 ^ 64 := by omega
  rw [cmdWord, BitVec.toNat_ofNat, Nat.mod_eq_of_lt hlt]

/-- The registers of a mailbox after a command. -/
def doneBox (die : BitVec 2) (tag : BitVec 16) (op status detail : Nat) (resp : List Byte) (s : State) : Mailbox :=
  ⟨cmdWord tag op, 0, BitVec.ofNat 64 (resp.length * 2 ^ 48 + tag.toNat * 2 ^ 32 + detail % 2 ^ 24 * 2 ^ 8 + status), tag, resp,
    memSetAll (cellsAt 0 resp) (s.mon.mail[die.toNat]'die.isLt).area⟩

theorem mailDone_box (die : BitVec 2) (tag : BitVec 16) (op status detail : Nat) (resp : List Byte) (s : State) :
    (mailDone die tag op status detail resp s).mon.mail[die.toNat]'die.isLt = doneBox die tag op status detail resp s :=
  Vector.getElem_set_self _

section
variable {m : Mb} {op : Nat} {s : State} (name : String) (f : State → MailRes) (hlink : s.links.linkUp = true)
  (hpower : s.health.power ≠ 3) (hrun : s.mon.flash.running = true)
include hlink hpower hrun

theorem mailCall_busy (hbusy : mailBusy m.die s = true) : mailCall name m op f s = .next (mailOffer m.die m.tag op s) := by
  simp [mailCall, hlink, hpower, hrun, hbusy]

theorem mailCall_recovery (hbusy : mailBusy m.die s = false) (hrec : s.mon.flash.recovery = true) (hop : recoveryOp op = false) :
    mailCall name m op f s = .next (mailDone m.die m.tag op 2 0 [] s) := by
  simp [mailCall, hlink, hpower, hrun, hbusy, hrec, hop]

end

theorem onCtx_of_some {ctx : Nat} {s : State} {c : Context} (h : SMap.get? s.mon.ctxs ctx = some c) (f : Context → Context) :
    onCtx ctx f s = { s with mon := { s.mon with ctxs := SMap.put s.mon.ctxs ctx (f c) } } := by
  unfold onCtx; rw [h]

/-! The tables and keys of a new context (R251, R265, R301, R318). -/

/-- A physical range that is cleared reads zero, and no write of it waits. -/
theorem scrubPhys_reads {lo hi a : Nat} (s : State) (hlo : lo ≤ homePhys a) (hhi : homePhys a < hi) :
    memGet (scrubPhys lo hi s).mem a = 0 ∧ SMap.get? (scrubPhys lo hi s).outer a = none := by
  have hout : (!(decide (lo ≤ homePhys a) && decide (homePhys a < hi))) = false := by simp [hlo, hhi]
  refine ⟨memGet_filter_dropped (keep := fun a => !(decide (lo ≤ homePhys a) && decide (homePhys a < hi))) _ hout, ?_⟩
  exact (get?_filter_key (fun a => !(decide (lo ≤ homePhys a) && decide (homePhys a < hi))) _ a).trans (by rw [hout]; rfl)

/-- What reads zero, and waits for no write, does so after another range is cleared. -/
theorem scrubPhys_keeps_zero {a : Nat} {s : State} (lo hi : Nat) (h : memGet s.mem a = 0 ∧ SMap.get? s.outer a = none) :
    memGet (scrubPhys lo hi s).mem a = 0 ∧ SMap.get? (scrubPhys lo hi s).outer a = none := by
  have hget {α : Type} (m : SMap α) := get?_filter_key (fun a => !(decide (lo ≤ homePhys a) && decide (homePhys a < hi))) m a
  obtain ⟨hmem, houter⟩ := h
  constructor
  · change (SMap.get? (s.mem.filter _) a).getD 0 = 0
    rw [hget]
    split
    · exact hmem
    · rfl
  · change SMap.get? (s.outer.filter _) a = none
    rw [hget, houter, ite_self]

/-- The entry of a list that maps a table whole. -/
def tableEntry (rs : List RangeEntry) (t : Nat × Nat) : Option RangeEntry :=
  rs.find? fun e => e.valid && decide (e.base ≤ t.1) && decide (t.1 + t.2 ≤ e.limit)

/-- One table of a new context is cleared. -/
def clearTable (rs : List RangeEntry) (s : State) (t : Nat × Nat) : State :=
  match tableEntry rs t with
  | some e => scrubPhys ((t.1 + e.offset.toNat) % 2 ^ 48) ((t.1 + e.offset.toNat) % 2 ^ 48 + t.2) s
  | none => s

theorem clearTables_eq (r : CtxRecord) (rs : List RangeEntry) (s : State) :
    clearTables r rs s = clearTable rs (clearTable rs s (r.stbase, 2 ^ 18)) (r.prbase, 2 ^ 20) := rfl

theorem clearTable_leaves (rs : List RangeEntry) (s : State) (t : Nat × Nat) :
    (clearTable rs s t).c = s.c ∧ (clearTable rs s t).mon = s.mon ∧ (clearTable rs s t).fe = s.fe := by
  unfold clearTable; split <;> exact ⟨rfl, rfl, rfl⟩

theorem clearTables_leaves (r : CtxRecord) (rs : List RangeEntry) (s : State) :
    (clearTables r rs s).c = s.c ∧ (clearTables r rs s).mon = s.mon ∧ (clearTables r rs s).fe = s.fe := by
  obtain ⟨hc, hmon, hfe⟩ := clearTable_leaves rs s (r.stbase, 2 ^ 18)
  obtain ⟨hc', hmon', hfe'⟩ := clearTable_leaves rs (clearTable rs s (r.stbase, 2 ^ 18)) (r.prbase, 2 ^ 20)
  rw [clearTables_eq]
  exact ⟨hc'.trans hc, hmon'.trans hmon, hfe'.trans hfe⟩

theorem clearTable_zero {rs : List RangeEntry} {t : Nat × Nat} {e : RangeEntry} (he : tableEntry rs t = some e) (s : State) {a : Nat}
    (hlo : (t.1 + e.offset.toNat) % 2 ^ 48 ≤ homePhys a) (hhi : homePhys a < (t.1 + e.offset.toNat) % 2 ^ 48 + t.2) :
    memGet (clearTable rs s t).mem a = 0 ∧ SMap.get? (clearTable rs s t).outer a = none := by
  rw [clearTable, he]; exact scrubPhys_reads s hlo hhi

theorem clearTable_keeps_zero (rs : List RangeEntry) (t : Nat × Nat) {s : State} {a : Nat}
    (h : memGet s.mem a = 0 ∧ SMap.get? s.outer a = none) :
    memGet (clearTable rs s t).mem a = 0 ∧ SMap.get? (clearTable rs s t).outer a = none := by
  unfold clearTable
  split
  · exact scrubPhys_keeps_zero _ _ h
  · exact h

theorem clearTables_zero {r : CtxRecord} {rs : List RangeEntry} {t : Nat × Nat} {e : RangeEntry}
    (ht : t ∈ [(r.stbase, 2 ^ 18), (r.prbase, 2 ^ 20)]) (he : tableEntry rs t = some e) (s : State) {a : Nat}
    (hlo : (t.1 + e.offset.toNat) % 2 ^ 48 ≤ homePhys a) (hhi : homePhys a < (t.1 + e.offset.toNat) % 2 ^ 48 + t.2) :
    memGet (clearTables r rs s).mem a = 0 ∧ SMap.get? (clearTables r rs s).outer a = none := by
  rw [clearTables_eq]
  simp only [List.mem_cons, List.not_mem_nil, or_false] at ht
  obtain rfl | rfl := ht
  · exact clearTable_keeps_zero _ _ (clearTable_zero he s hlo hhi)
  · exact clearTable_zero he _ hlo hhi

/-- One key of a record goes to its tenant, where nobody has it. -/
def giveKey (r : CtxRecord) (m : Monitor) (k : Nat) : Monitor :=
  if r.keys.getLsbD k && (SMap.get? m.keyOwner k).isNone then
    { m with keyOwner := SMap.put m.keyOwner k r.tenant, keyGen := SMap.put m.keyGen k ((SMap.get? m.keyGen k).getD 0 + 1) }
  else m

theorem giveKeys_eq (r : CtxRecord) (m : Monitor) : giveKeys r m = (List.range 64).foldl (giveKey r) m := rfl

theorem giveKeys_ctxs (r : CtxRecord) (m : Monitor) : (giveKeys r m).ctxs = m.ctxs := by
  rw [giveKeys_eq]
  generalize List.range 64 = l
  induction l generalizing m with
  | nil => rfl
  | cons k l ih =>
    rw [List.foldl_cons, ih, giveKey]
    split <;> rfl

/-- A key that the tenant has stays its own. -/
theorem giveKey_keeps {r : CtxRecord} {m : Monitor} {k : Nat} (j : Nat) (h : SMap.get? m.keyOwner k = some r.tenant) :
    SMap.get? (giveKey r m j).keyOwner k = some r.tenant := by
  unfold giveKey
  split
  · exact (SMap.get?_put ..).trans (by split <;> simp [h])
  · exact h

theorem giveKey_gives {r : CtxRecord} {m : Monitor} {k : Nat} (hkey : r.keys.getLsbD k = true) (h : SMap.get? m.keyOwner k = none) :
    SMap.get? (giveKey r m k).keyOwner k = some r.tenant := by
  rw [giveKey, if_pos (by rw [hkey, h]; rfl)]
  exact (SMap.get?_put ..).trans (if_pos rfl)

theorem giveKey_other {r : CtxRecord} {m : Monitor} {j k : Nat} (hne : k ≠ j) :
    SMap.get? (giveKey r m j).keyOwner k = SMap.get? m.keyOwner k := by
  unfold giveKey
  split
  · exact (SMap.get?_put ..).trans (if_neg hne)
  · rfl

/-- Every key of the record that nobody had is the tenant's (R301). -/
theorem giveKeys_gives {r : CtxRecord} {m : Monitor} {k : Nat} (hk : k < 64) (hkey : r.keys.getLsbD k = true)
    (h : SMap.get? m.keyOwner k = none) : SMap.get? (giveKeys r m).keyOwner k = some r.tenant := by
  have hkeep (l : List Nat) (m : Monitor) (h : SMap.get? m.keyOwner k = some r.tenant) :
      SMap.get? (l.foldl (giveKey r) m).keyOwner k = some r.tenant := by
    induction l generalizing m with
    | nil => exact h
    | cons j l ih => exact ih _ (giveKey_keeps j h)
  have hmem := List.mem_range.mpr hk
  rw [giveKeys_eq]
  generalize List.range 64 = l at hmem
  induction l generalizing m with
  | nil => cases hmem
  | cons j l ih =>
    by_cases hj : k = j
    · subst hj
      exact hkeep l _ (giveKey_gives hkey h)
    · exact ih ((giveKey_other hj).trans h) ((List.mem_cons.mp hmem).resolve_left hj)

theorem get?_zipIdx_map {α : Type} (l : List α) (k i : Nat) :
    SMap.get? ((l.zipIdx k).map fun x => (x.2, x.1)) i = if k ≤ i then l[i - k]? else none := by
  induction l generalizing k with
  | nil => simp [SMap.get?]
  | cons a l ih =>
    simp only [List.zipIdx_cons, List.map_cons, SMap.get?, ih]
    by_cases hk : k = i
    · subst hk; simp
    · rw [if_neg hk]
      by_cases hle : k ≤ i
      · rw [if_pos (by omega), if_pos hle, show i - k = i - (k + 1) + 1 by omega, List.getElem?_cons_succ]
      · rw [if_neg (by omega), if_neg hle]

theorem newContext_ranges (rec : CtxRecord) (rs : List RangeEntry) (saves : List (Nat × Nat)) (i : Nat) :
    SMap.get? (newContext rec rs saves).ranges i = rs[i]? :=
  (get?_zipIdx_map rs 0 i).trans (by rw [if_pos (Nat.zero_le i), Nat.sub_zero])

/-! The completion of a disable command (R284). -/

/-- The mailbox of a die answers the disable command that it holds; MBCMD stands as the host wrote it. -/
def answerDisable (k : Nat) (die : BitVec 2) (s : State) : State :=
  let b := s.mon.mail[die.toNat]'die.isLt
  let t := mailDone die b.tag 0x12 0 0 [] (onQueue k (fun x => { x with disabling := false }) s)
  let d := t.mon.mail[die.toNat]'die.isLt
  { t with mon := { t.mon with mail := t.mon.mail.set die.toNat { d with cmd := b.cmd } die.isLt } }

theorem settleDisable_of_done {k : Nat} {s : State} {x : Queue} (hq : queueAt s k = some x) (hx : x.disabling = true)
    (hdone : x.done = x.lastSeq) : settleDisable k s = answerDisable k (BitVec.ofNat 2 (k / 1024)) s := by
  unfold settleDisable
  rw [hq]
  dsimp only
  rw [hx, decide_eq_true hdone, Bool.and_self, if_pos rfl]
  rfl

theorem withBox_self (die : BitVec 2) (t : State) :
    { t with mon := { t.mon with mail := t.mon.mail.set die.toNat (t.mon.mail[die.toNat]'die.isLt) die.isLt } } = t := by
  rw [Vector.set_getElem_self]

/-- Where MBCMD still holds the disable command, that answer is the command's own. -/
theorem answerDisable_of_cmd {k : Nat} {die : BitVec 2} {s : State}
    (hcmd : (s.mon.mail[die.toNat]'die.isLt).cmd = cmdWord (s.mon.mail[die.toNat]'die.isLt).tag 0x12) : answerDisable k die s =
      mailDone die (s.mon.mail[die.toNat]'die.isLt).tag 0x12 0 0 [] (onQueue k (fun x => { x with disabling := false }) s) := by
  have hd : ((mailDone die (s.mon.mail[die.toNat]'die.isLt).tag 0x12 0 0 [] (onQueue k (fun x => { x with disabling := false }) s)).mon.mail[
      die.toNat]'die.isLt).cmd = (s.mon.mail[die.toNat]'die.isLt).cmd := by
    rw [mailDone_box, hcmd]; rfl
  unfold answerDisable
  dsimp only
  rw [← hd]
  exact withBox_self die _

end Sys2Proof.Machine
end

section
/-! SUPPORT. The mailbox commands of contexts, ranges, queues, images, masks, windows, jobs, groups, postmarks and power, and shootdowns (R208, R274,
R284, R301 to R338, R368, R386). -/

namespace Sys2Proof.Machine

/-- The commands of a context that answer DETAIL 1 where it does not stand, and that the recovery ROM does not serve. -/
theorem exec_ctxCommand {m : Mb} {ctx : BitVec 12} {i : Instr} {op : Nat} {n : BitVec 6} {e : RangeEntry} {v : Word} {k : BitVec 3}
    {r : HostRange} {job : BitVec 32} (hi : (i, op) ∈ [(.writeRangeEntry m ctx n e, 0x0003), (.writeFmask m ctx v, 0x0030),
      (.readClearMaskedCounter m ctx, 0x0031), (.writeHostRange m ctx k r, 0x0042), (.bindContextJob m ctx job, 0x0050)]) :
    ∃ name f, (∀ s, exec i s = mailCall name m op f s) ∧ recoveryOp op = false
      ∧ ∀ s, SMap.get? s.mon.ctxs ctx.toNat = none → f s = mailNo s 1 := by
  simp only [List.mem_cons, List.not_mem_nil, or_false, Prod.mk.injEq] at hi
  obtain ⟨rfl, rfl⟩ | ⟨rfl, rfl⟩ | ⟨rfl, rfl⟩ | ⟨rfl, rfl⟩ | ⟨rfl, rfl⟩ := hi
  · exact ⟨_, _, fun s => (rfl : exec _ s = execWriteRangeEntry m ctx n e s), rfl, fun s h => by simp only [h]⟩
  · exact ⟨_, _, fun s => (rfl : exec _ s = execWriteFmask m ctx v s), rfl, fun s h => by simp only [h]; rfl⟩
  · exact ⟨_, _, fun s => (rfl : exec _ s = execReadClearMaskedCounter m ctx s), rfl, fun s h => by simp only [h]⟩
  · exact ⟨_, _, fun s => (rfl : exec _ s = execWriteHostRange m ctx k r s), rfl, fun s h => by simp only [h]; rfl⟩
  · exact ⟨_, _, fun s => (rfl : exec _ s = execBindContextJob m ctx job s), rfl, fun s h => by simp only [h]; rfl⟩

/-- The state with a context created. -/
def withNewContext (rec : CtxRecord) (rs : List RangeEntry) (saves : List (Nat × Nat)) (s : State) : State :=
  putCtx rec.ctx (newContext rec rs saves) { clearTables rec rs s with mon := giveKeys rec (clearTables rec rs s).mon }

section
variable {m : Mb} {s : State} (hr : mailReady m s)
include hr

/-! Contexts and range entries (R301, R304, R305, R319, R400). -/

section
variable {rec : CtxRecord} {rs : List RangeEntry} {saves : List (Nat × Nat)} (hlen : rs.length ≤ 64)
include hlen

theorem createContext_refused {d : Nat} (hd : createRefusal s rec rs saves = some d) :
    answers (.createContext m rec rs saves) s m 0x0001 4 d [] s :=
  answers_of_serve hr (execCreateContext m rec rs saves s) rfl rfl (by simp only [if_neg (Nat.not_lt.mpr hlen), hd]; rfl)

theorem createContext_creates (hok : createRefusal s rec rs saves = none) : answers (.createContext m rec rs saves) s m 0x0001 0 0 []
    (withNewContext rec rs saves s) :=
  answers_of_serve hr (execCreateContext m rec rs saves s) rfl rfl (by simp only [if_neg (Nat.not_lt.mpr hlen), hok]; rfl)

end

/-- The contexts, keys, translations and overlays that are left after a context is destroyed (R319). -/
def withoutContext (ctx : Nat) (t : State) : State :=
  spendNonce ctx { t with mon := takeKeys { t.mon with
    ctxs := SMap.del t.mon.ctxs ctx
    tlb := t.mon.tlb.filter fun e => e.1 != ctx
    resident := t.mon.resident.filter fun r => r.1 != ctx } }

section
variable {ctx : BitVec 12} (hidle : ∀ l ∈ s.fe.launches, l.ctx ≠ ctx.toNat)
include hidle

/-- Without a launch of the context DESTROY_CONTEXT is served. -/
theorem destroyContext_serves {detail status : Nat} {t : State} (hf : (if (SMap.get? s.mon.ctxs ctx.toNat).isNone then mailNo s 1
    else mailOk (withoutContext ctx.toNat (stopQueues (s.fe.queues.filter fun x => x.2.e.ctx == ctx.toNat) s)))
      = ⟨t, status, detail, []⟩) : answers (.destroyContext m ctx) s m 0x0002 status detail [] t := by
  have hnone : (s.fe.launches.any fun l => l.ctx == ctx.toNat) = false :=
    List.any_eq_false.mpr fun l hl => by simpa using hidle l hl
  have hexec : execDestroyContext m ctx s = mailCall "DESTROY_CONTEXT" m 0x0002 (fun s =>
      if (SMap.get? s.mon.ctxs ctx.toNat).isNone then mailNo s 1
      else mailOk (withoutContext ctx.toNat (stopQueues (s.fe.queues.filter fun x => x.2.e.ctx == ctx.toNat) s))) s := by
    rw [execDestroyContext, if_neg (by rw [hnone]; decide)]; rfl
  exact answers_of_serve hr _ rfl hexec hf

theorem destroyContext_absent (h : SMap.get? s.mon.ctxs ctx.toNat = none) : answers (.destroyContext m ctx) s m 0x0002 4 1 [] s :=
  destroyContext_serves hr hidle (by rw [h]; rfl)

theorem destroyContext_destroys (h : SMap.get? s.mon.ctxs ctx.toNat ≠ none) : answers (.destroyContext m ctx) s m 0x0002 0 0 []
    (withoutContext ctx.toNat (stopQueues (s.fe.queues.filter fun x => x.2.e.ctx == ctx.toNat) s)) :=
  destroyContext_serves hr hidle (if_neg (by simpa using h))

end

section
variable {ctx : BitVec 12} {c : Context} (hc : SMap.get? s.mon.ctxs ctx.toNat = some c)
include hc

theorem writeRangeEntry_refused {n : BitVec 6} {e : RangeEntry} {d : Nat} (hd : rangeRefusal s c n.toNat e = some d) :
    answers (.writeRangeEntry m ctx n e) s m 0x0003 4 d [] s :=
  answers_of_serve hr (execWriteRangeEntry m ctx n e s) rfl rfl (by simp only [hc, hd]; rfl)

theorem writeRangeEntry_writes {n : BitVec 6} {e : RangeEntry} (hok : rangeRefusal s c n.toNat e = none) :
    answers (.writeRangeEntry m ctx n e) s m 0x0003 0 0 [] (withCtx ctx { c with ranges := SMap.put c.ranges n.toNat e } s) :=
  answers_of_serve hr (execWriteRangeEntry m ctx n e s) rfl rfl (by simp only [hc, hok, onCtx_of_some hc]; rfl)

/-! Masks, host ranges, jobs, groups and postmarks (R316, R317, R326, R328, R332, R368). -/

theorem writeFmask_answer {v : Word} {status detail : Nat} {t : State} (hf : (if !fmaskOk v then mailNo s 5
    else if ctxRuns s ctx.toNat then mailNo s 0 else mailOk (withCtx ctx { c with recd := { c.recd with fmask := v } } s))
      = ⟨t, status, detail, []⟩) : answers (.writeFmask m ctx v) s m 0x0030 status detail [] t :=
  answers_of_serve hr (execWriteFmask m ctx v s) rfl rfl (by
    simp only [hc, Option.isNone_some, Bool.false_eq_true, if_false, onCtx_of_some hc]; exact hf)

theorem readClearMaskedCounter_clears : answers (.readClearMaskedCounter m ctx) s m 0x0031 0 0 (natLe 8 c.masked.toNat)
    (withCtx ctx { c with masked := 0 } s) :=
  answers_of_serve hr (execReadClearMaskedCounter m ctx s) rfl rfl (by simp only [hc, onCtx_of_some hc]; rfl)

theorem writeHostRange_writes (k : BitVec 3) (r : HostRange) : answers (.writeHostRange m ctx k r) s m 0x0042 0 0 []
    (withCtx ctx { c with hranges := SMap.put c.hranges k.toNat r } s) :=
  answers_of_serve hr (execWriteHostRange m ctx k r s) rfl rfl (by
    simp only [hc, Option.isNone_some, Bool.false_eq_true, if_false, onCtx_of_some hc]; rfl)

theorem bindContextJob_answer {job : BitVec 32} {status detail : Nat} {t : State}
    (hf : (if s.mon.ctxs.any fun x => x.1 != ctx.toNat && x.2.job == some job then mailNo s 0
      else mailOk (withCtx ctx { c with job := some job } s)) = ⟨t, status, detail, []⟩) :
    answers (.bindContextJob m ctx job) s m 0x0050 status detail [] t :=
  answers_of_serve hr (execBindContextJob m ctx job s) rfl rfl (by
    simp only [hc, Option.isNone_some, Bool.false_eq_true, if_false, onCtx_of_some hc]; exact hf)

theorem writeCollectiveGroup_writes {id : BitVec 8} {entry : List Byte} {h : Nat} (hlen : entry.length = 64)
    (hopen : collOpen s ctx.toNat id.toNat = false)
    (hh : translate s ctx.toNat .write true (c.recd.cgbase + 64 * id.toNat) = .ok h) :
    answers (.writeCollectiveGroup m ctx id entry) s m 0x0051 0 0 [] (s.writeOuter (cellsAt h entry)) :=
  answers_of_serve hr (execWriteCollectiveGroup m ctx id entry s) rfl rfl (by
    simp only [hc, hlen, ne_eq, not_true_eq_false, if_false, hopen, Bool.false_eq_true, hh]; rfl)

theorem requestPostmark_answers {nonce : List Byte} (hlen : nonce.length = 32) (first : Nat) :
    answers (.requestPostmark m ctx nonce first) s m 0x0060 0 0 (postmark s c nonce first ++ Config.deviceCertificate) s :=
  answers_of_serve hr (execRequestPostmark m ctx nonce first s) rfl rfl (by
    simp only [hc, hlen, ne_eq, not_true_eq_false, if_false])

end

/-! Queues (R274, R284, R294). -/

/-- A queue with an entry that is written; EN is the enable command's, CLAMP the hardware's. -/
def rewrittenQueue (old : Option Queue) (e : QueueEntry) : Queue :=
  let e' := { e with en := (old.map fun y => y.e.en).getD false, clamp := decide (e.slice < 400) }
  match old with
  | some y => { y with e := e' }
  | none => ⟨e', 0, e.ring, 1, 0, 0, [], false, [], 0⟩

omit hr in
theorem rewrittenQueue_e (old : Option Queue) (e : QueueEntry) : (rewrittenQueue old e).e =
    { e with en := (old.map fun y => y.e.en).getD false, clamp := decide (e.slice < 400) } := by
  cases old <;> rfl

/-- The state with an entry written. -/
def writtenQueue (k : Nat) (e : QueueEntry) (s : State) : State :=
  { s with fe := { s.fe with queues := SMap.put s.fe.queues k (rewrittenQueue (queueAt s k) e) } }

theorem writeQueueEntry_refused {q : BitVec 10} {e : QueueEntry} (h : queueFieldsOk s e = false) :
    answers (.writeQueueEntry m q e) s m 0x0010 4 0 [] s :=
  answers_of_serve hr (execWriteQueueEntry m q e s) rfl rfl (by simp only [h]; rfl)

theorem writeQueueEntry_writes {q : BitVec 10} {e : QueueEntry} (h : queueFieldsOk s e = true) :
    answers (.writeQueueEntry m q e) s m 0x0010 0 0 [] (writtenQueue (qKey m.die.toNat q.toNat) e s) :=
  answers_of_serve hr (execWriteQueueEntry m q e s) rfl rfl (by
    simp only [h, writtenQueue, rewrittenQueue]
    cases queueAt s (qKey m.die.toNat q.toNat) <;> rfl)

omit hr in
/-- What is left of a queue that is out of service when its disable command has answered. -/
theorem outOfService_leaves (k : Nat) (t : State) :
    (∀ y, queueAt (onQueue k (fun x => { x with disabling := false }) (outOfService k t)) k = some y → y.e.en = false)
      ∧ (∀ e ∈ (onQueue k (fun x => { x with disabling := false }) (outOfService k t)).fe.letters, qKey e.die e.q ≠ k)
      ∧ k ∉ (onQueue k (fun x => { x with disabling := false }) (outOfService k t)).fe.overflow := by
  refine ⟨fun y hy => ?_, fun e he => ?_, fun hk => ?_⟩
  · rw [queueAt_onQueue, if_pos rfl, show queueAt (outOfService k t) k = _ from queueAt_onQueue .., if_pos rfl, Option.map_map] at hy
    obtain ⟨x, -, rfl⟩ := Option.map_eq_some_iff.mp hy
    rfl
  · rw [onQueue_letters] at he
    exact bne_iff_ne.mp (List.mem_filter.mp he).2
  · have hover : (onQueue k (fun x => { x with disabling := false }) (outOfService k t)).fe.overflow = (outOfService k t).fe.overflow := by
      rw [onQueue_eq]
    rw [hover] at hk
    exact bne_iff_ne.mp (List.mem_filter.mp hk).2 rfl

section
variable {q : BitVec 10} {x : Queue} (hq : queueAt s (qKey m.die.toNat q.toNat) = some x)
include hq

theorem enableQueue_enables (hen : x.e.en = false) (hdis : x.disabling = false) : answers (.enableQueue m q) s m 0x0011 0 0 []
    (onQueue (qKey m.die.toNat q.toNat) (fun x => { x with
      e := { x.e with en := true }, lastSeq := 0, curSeg := x.e.ring, curSeq := 1, taken := 0, done := 0, ended := []
      read := [] }) s) :=
  answers_of_serve hr (execEnableQueue m q s) rfl rfl (by simp only [hq, hen, hdis]; rfl)

theorem enableQueue_refused (hen : x.e.en = true) : answers (.enableQueue m q) s m 0x0011 4 0 [] s :=
  answers_of_serve hr (execEnableQueue m q s) rfl rfl (by simp only [hq, hen]; rfl)

theorem disableQueue_refused (hen : x.e.en = false) : answers (.disableQueue m q) s m 0x0012 4 0 [] s := by
  obtain ⟨hlink, hpower, hrun, hrec, hbusy⟩ := hr
  change execDisableQueue m q s = _
  simp [execDisableQueue, hlink, hpower, hrun, hrec, hbusy, hq, hen]

/-- The state in which a disable command stops its queue: GO is set, and the queue marked. -/
def disabling (m : Mb) (k : Nat) (s : State) : State :=
  let old := s.mon.mail[m.die.toNat]'m.die.isLt
  let b : Mailbox := ⟨cmdWord m.tag 0x12, 1, old.sts, m.tag, [], old.area⟩
  onQueue k (fun x => { x with disabling := true }) { s with mon := { s.mon with mail := s.mon.mail.set m.die.toNat b m.die.isLt } }

theorem execDisableQueue_stops (hen : x.e.en = true) : execDisableQueue m q s =
    .next (settleDisable (qKey m.die.toNat q.toNat) (stopQueue (qKey m.die.toNat q.toNat) 34 (disabling m (qKey m.die.toNat q.toNat) s))) := by
  obtain ⟨hlink, hpower, hrun, hrec, hbusy⟩ := hr
  simp [execDisableQueue, hlink, hpower, hrun, hrec, hbusy, hq, hen, disabling]

omit hr hq in
/-- A queue without launches is stopped at once. -/
theorem stopQueue_of_idle {k : Nat} {t : State} (reason : Nat) (h : ∀ l ∈ t.fe.launches, qKey l.die l.q ≠ k) :
    stopQueue k reason t = outOfService k t := by
  have hnone : (t.fe.launches.filter fun l => qKey l.die l.q == k && !l.started) = [] :=
    List.filter_eq_nil_iff.mpr fun l hl => by simp [h l hl]
  rw [stopQueue_eq, hnone]; rfl

/-- A queue whose accepted packets have all ended is out of service at once, and the command answers (R284). -/
theorem disableQueue_disables (hen : x.e.en = true) (hdone : x.lastSeq = x.done)
    (hidle : ∀ l ∈ s.fe.launches, qKey l.die l.q ≠ qKey m.die.toNat q.toNat) : answers (.disableQueue m q) s m 0x0012 0 0 []
      (onQueue (qKey m.die.toNat q.toNat) (fun x => { x with disabling := false })
        (outOfService (qKey m.die.toNat q.toNat) (disabling m (qKey m.die.toNat q.toNat) s))) := by
  change execDisableQueue m q s = _
  have hmarked : queueAt (disabling m (qKey m.die.toNat q.toNat) s) (qKey m.die.toNat q.toNat) = some { x with disabling := true } :=
    queueAt_onQueue_same hq
  have hout : queueAt (outOfService (qKey m.die.toNat q.toNat) (disabling m (qKey m.die.toNat q.toNat) s)) (qKey m.die.toNat q.toNat) =
      some { x with disabling := true, e := { x.e with en := false }, read := [] } := queueAt_onQueue_same hmarked
  have hmail : (outOfService (qKey m.die.toNat q.toNat) (disabling m (qKey m.die.toNat q.toNat) s)).mon.mail[m.die.toNat]'m.die.isLt =
      ⟨cmdWord m.tag 0x12, 1, (s.mon.mail[m.die.toNat]'m.die.isLt).sts, m.tag, [], (s.mon.mail[m.die.toNat]'m.die.isLt).area⟩ := by
    simp only [outOfService, disabling, onQueue_mon, Vector.getElem_set_self]
  have hdie : BitVec.ofNat 2 (qKey m.die.toNat q.toNat / 1024) = m.die := by
    have hk : qKey m.die.toNat q.toNat / 1024 = m.die.toNat := by unfold qKey; omega
    rw [hk, BitVec.ofNat_toNat, BitVec.setWidth_eq]
  rw [execDisableQueue_stops hr hq hen, stopQueue_of_idle 34 (by rw [disabling, onQueue_launches]; exact hidle),
    settleDisable_of_done hout rfl hdone.symm, hdie, answerDisable_of_cmd (by rw [hmail]), hmail]

end

/-! Images (R312 to R314). -/

section
variable {ctx : BitVec 12} {va base : Word} {pa : Nat} {c : Context} {bs : List Byte} (hpa : pa % 4096 = 0)
  (hfree : pagesFree s ctx.toNat va.toNat base.toNat pa = true) (hc : SMap.get? s.mon.ctxs ctx.toNat = some c)
  (hbase : base.toNat % 65536 = 0) (hsrc : imageSource s ctx.toNat va.toNat = some bs)
include hpa hfree hc hbase hsrc

theorem admitImage_refused {d : Nat} (hd : imageRefusal s c base.toNat bs = some d) :
    answers (.admitImage m ctx va base pa) s m 0x0020 4 d [] s := by
  have hgo : (pa % 4096 ≠ 0 || !pagesFree s ctx.toNat va.toNat base.toNat pa) = false := by simp [hpa, hfree]
  change execAdmitImage m ctx va base pa s = _
  unfold execAdmitImage
  rw [if_neg (by rw [hgo]; exact Bool.false_ne_true), mailCall_of_mailReady hr]
  simp only [hc, hbase, hsrc, hd, ne_eq, not_true_eq_false, if_false]
  rfl

end

/-! Host windows (R325). -/

theorem openHostWindow_answer {tenant pa size hdm w : Nat} {status : Nat} {resp : List Byte} {t : State}
    (hw : (List.range 64).find? (fun w => (SMap.get? s.mon.windows w).isNone) = some w)
    (hf : (if pa % 2 ^ 21 ≠ 0 || !physOwned s tenant pa size || underLocked s pa size
        || !mapsOk s (withWindow w ⟨tenant, pa, size, hdm⟩ s) then mailNo s 0
      else ⟨withWindow w ⟨tenant, pa, size, hdm⟩ s, 0, 0, natLe 8 w⟩) = ⟨t, status, 0, resp⟩) :
    answers (.openHostWindow m tenant pa size hdm) s m 0x0040 status 0 resp t :=
  answers_of_serve hr (execOpenHostWindow m tenant pa size hdm s) rfl rfl (by simp only [hw]; exact hf)

theorem closeHostWindow_closes {w : BitVec 6} {x : HostWindow} (hx : SMap.get? s.mon.windows w.toNat = some x) :
    answers (.closeHostWindow m w) s m 0x0041 0 0 [] { s with mon := { s.mon with windows := SMap.del s.mon.windows w.toNat } } :=
  answers_of_serve hr (execCloseHostWindow m w s) rfl rfl (by simp only [hx]; rfl)

/-! Power and the health log (R338, R386). -/

theorem setPowerLimit_sets {w : Nat} (hlo : 1500 ≤ w) (hhi : w ≤ 4200) : answers (.setPowerLimit m w) s m 0x0080 0 0 []
    (capPoints { s with health := { s.health with limit := w } }) :=
  answers_of_serve hr (execSetPowerLimit m w s) rfl rfl (if_neg (by omega))

theorem setPowerLimit_refused {w : Nat} (h : w < 1500 ∨ 4200 < w) : answers (.setPowerLimit m w) s m 0x0080 4 0 [] s :=
  answers_of_serve hr (execSetPowerLimit m w s) rfl rfl (if_pos h)

theorem setPowerState_off : exec (.setPowerState m 3) s = .next (enterS3 s) := by
  obtain ⟨hlink, hpower, hrun, hrec, hbusy⟩ := hr
  exact if_pos ⟨rfl, hlink, hpower, hrun, by rw [hrec]; rfl, by rw [hbusy]; rfl⟩

theorem setPowerState_answer {st : BitVec 2} (hst : st ≠ 3) {status detail : Nat} {t : State} (hf : (if st = 1 then mailNo s 0
    else if st = 2 ∧ s.fe.launches.any fun l => l.pkt.type == 1 then mailNo s 1
    else mailOk { s with health := { s.health with power := st.toNat } }) = ⟨t, status, detail, []⟩) :
    answers (.setPowerState m st) s m 0x0081 status detail [] t := by
  have hexec : execSetPowerState m st s = mailCall "SET_POWER_STATE" m 0x0081 (fun s =>
      if st = 1 then mailNo s 0
      else if st = 2 ∧ s.fe.launches.any fun l => l.pkt.type == 1 then mailNo s 1
      else mailOk { s with health := { s.health with power := st.toNat } }) s := if_neg fun h => hst h.1
  exact answers_of_serve hr _ rfl hexec hf

theorem readHealthLog_reads {im : Word} {r : HealthRecord} (h : (im = BitVec.allOnes 64 ∧ latestRecord s = some r)
    ∨ (im ≠ BitVec.allOnes 64 ∧ (s.health.log.find? fun r => r.seq % 1920 == im.toNat) = some r)) :
    answers (.readHealthLog m im) s m 0x0090 0 0 (recordImage r) s := by
  refine answers_of_serve hr (execReadHealthLog m im s) rfl rfl ?_
  obtain ⟨him, hlast⟩ | ⟨him, hfind⟩ := h
  · simp only [him, if_true, hlast]
  · simp only [him, if_false, logRoom, hfind]

theorem unknownOpcode_answers {op : BitVec 16} (h : op.toNat ∉ listedOps) : answers (.unknownOpcode m op) s m op.toNat 2 0 [] s := by
  have hexec : execUnknownOpcode m op s = mailCall "UNKNOWN_OPCODE" m op.toNat (fun s => ⟨s, 2, 0, []⟩) s :=
    if_neg (by rwa [List.contains_iff_mem])
  exact answers_of_serve hr _ rfl hexec rfl

end

/-! What a created and a destroyed context leave (R301, R319). -/

theorem withNewContext_ctxs (rec : CtxRecord) (rs : List RangeEntry) (saves : List (Nat × Nat)) (s : State) :
    (withNewContext rec rs saves s).mon.ctxs = SMap.put s.mon.ctxs rec.ctx (newContext rec rs saves) := by
  obtain ⟨-, hmon, -⟩ := clearTables_leaves rec rs s
  have hctxs : (giveKeys rec (clearTables rec rs s).mon).ctxs = s.mon.ctxs := by rw [giveKeys_ctxs, hmon]
  exact congrArg (SMap.put · rec.ctx (newContext rec rs saves)) hctxs

theorem withNewContext_keys {rec : CtxRecord} (rs : List RangeEntry) (saves : List (Nat × Nat)) {s : State} {k : Nat} (hk : k < 64)
    (hkey : rec.keys.getLsbD k = true) (h : SMap.get? s.mon.keyOwner k = none) :
    SMap.get? (withNewContext rec rs saves s).mon.keyOwner k = some rec.tenant := by
  obtain ⟨-, hmon, -⟩ := clearTables_leaves rec rs s
  exact giveKeys_gives hk hkey (by rw [hmon]; exact h)

theorem withoutContext_keys {ctx : Nat} {t : State} {k : Nat × Nat} (h : k ∈ (withoutContext ctx t).mon.keyOwner) :
    ∃ c ∈ (withoutContext ctx t).mon.ctxs, c.2.recd.keys.getLsbD k.1 = true :=
  List.any_eq_true.mp (List.mem_filter.mp h).2

theorem withoutContext_tlb {ctx : Nat} {t : State} {e : Nat × Nat × Nat × Nat} (h : e ∈ (withoutContext ctx t).mon.tlb) : e.1 ≠ ctx := by
  simpa using (List.mem_filter.mp h).2

/-! Aperture registers and shootdowns (R208, R302). -/

theorem apertureRegisterWrite_writes {ctx : BitVec 12} {s : State} {c : Context} (hc : SMap.get? s.mon.ctxs ctx.toNat = some c)
    (hruns : ctxRuns s ctx.toNat = false) (im : BitVec 3) (v : Word) : exec (.apertureRegisterWrite ctx im v) s =
      .next (withCtx ctx { c with aps := c.aps.set im.toNat (v &&& 0xF000FFF000FFFFFF) im.isLt } s) := by
  change execApertureRegisterWrite ctx im v s = _
  rw [execApertureRegisterWrite, if_neg (by rw [hc, hruns]; exact Bool.false_ne_true), onCtx_of_some hc]
  rfl

/-- No page that a core holds meets a range. -/
def pagesApart (c : Core) (lo hi : Nat) : Prop := ∀ z ∈ c.z.toList, ∀ e, z.page = some e → hi ≤ e.base ∨ e.limit ≤ lo

theorem heldPages_apart {c : Core} {lo hi : Nat} (h : pagesApart c lo hi) {e : RangeEntry} (he : e ∈ heldPages c) :
    hi ≤ e.base ∨ e.limit ≤ lo := by
  obtain ⟨z, hz, hpage⟩ := List.mem_filterMap.mp he
  exact h z hz e hpage

/-- No page that the context holds, in its running task or a saved one, meets the range. -/
theorem ctxPages_apart {s : State} {ctx lo hi : Nat} (hown : s.c.info.ctx = ctx → pagesApart s.c lo hi)
    (hsaved : ∀ x ∈ s.fe.saved, x.core.info.ctx = ctx → pagesApart x.core lo hi) {e : RangeEntry} (he : e ∈ ctxPages s ctx) :
    hi ≤ e.base ∨ e.limit ≤ lo := by
  rw [ctxPages, List.mem_append] at he
  obtain he | he := he
  · split at he
    · next hrun => exact heldPages_apart (hown (by simpa using (Bool.and_eq_true_iff.mp hrun).2)) he
    · cases he
  · obtain ⟨x, hx, hpage⟩ := List.mem_flatMap.mp he
    obtain ⟨hmem, hctx⟩ := List.mem_filter.mp hx
    exact heldPages_apart (hsaved x hmem (beq_iff_eq.mp hctx)) hpage

theorem shootdown_drops {ctx : BitVec 12} {lo hi : Nat} {s : State}
    (hown : s.c.info.ctx ≠ ctx.toNat ∨ (s.c.view = none ∧ s.c.emu = none ∧ pagesApart s.c lo hi))
    (hsaved : ∀ x ∈ s.fe.saved, x.core.info.ctx = ctx.toNat → pagesApart x.core lo hi) :
    exec (.shootdown ctx lo hi) s = .next { s with mon := { s.mon with
      tlb := s.mon.tlb.filter fun t => t.1 != ctx.toNat || decide (hi ≤ t.2.1) || decide (t.2.1 + t.2.2.1 ≤ lo)
      resident := s.mon.resident.filter fun r => r.1 != ctx.toNat } } := by
  have hquiet : (s.c.info.running && s.c.info.ctx == ctx.toNat && !(s.c.view.isNone && s.c.emu.isNone)) = false := by
    obtain hne | ⟨hview, hemu, -⟩ := hown
    · simp [hne]
    · simp [hview, hemu]
  have hapart : ((ctxPages s ctx.toNat).any fun e => decide (e.base < hi) && decide (lo < e.limit)) = false := by
    refine List.any_eq_false.mpr fun e he => ?_
    have hmiss := ctxPages_apart (fun h => (hown.resolve_left fun hne => hne h).2.2) hsaved he
    simp only [Bool.and_eq_true, decide_eq_true_eq, not_and]
    omega
  change execShootdown ctx lo hi s = _
  exact if_neg (by rw [hquiet, hapart]; decide)

end Sys2Proof.Machine
end

section
/-! The settled statement O56. -/

namespace Sys2Proof.Machine

/-- Settles O56: each command is served in a mailbox that is ready (`mailCall_of_mailReady`), so that a clause is what its body answers. -/
theorem mailboxCommands : Obligations.MailboxCommands := by
  unfold Obligations.MailboxCommands
  refine ⟨?_, ?_, ?_, ?_, ?_, ?_, ?_, ?_, ?_, ?_, ?_, ?_, ?_, ?_, ?_, ?_, ?_, ?_, ?_, ?_, ?_⟩
  · rintro die tag op status detail resp s u rfl hop hstatus hresp
    obtain ⟨hst, hdet, htag, hlen⟩ := statusWord_fields (detail := detail) rfl hresp tag.isLt hstatus
    refine ⟨_, rfl, ?_⟩
    rw [mailDone_box]
    exact ⟨cmdWord_toNat tag hop, rfl, hst, hdet, htag, hlen, rfl, rfl⟩
  · intro m rec rs saves s hr hlen
    refine ⟨fun d hd => createContext_refused hr hlen hd, fun hok =>
      ⟨withNewContext rec rs saves s, newContext rec rs saves, createContext_creates hr hlen hok, ?_, rfl, newContext_ranges rec rs saves, rfl,
        rfl, rfl, rfl, rfl, rfl, ?_, fun k hk hkey h => withNewContext_keys rs saves hk hkey h, ?_, ?_⟩⟩
    · rw [withNewContext_ctxs]; exact (SMap.get?_put ..).trans (if_pos rfl)
    · intro x hx
      rw [withNewContext_ctxs]; exact (SMap.get?_put ..).trans (if_neg hx)
    · rintro t ht e b he rfl a hlo hhi
      exact clearTables_zero ht he s hlo hhi
    · obtain ⟨hc, -, hfe⟩ := clearTables_leaves rec rs s
      exact ⟨hc, hfe⟩
  · intro m ctx s hr hidle
    refine ⟨destroyContext_absent hr hidle, fun h => ⟨_, destroyContext_destroys hr hidle h, ?_, fun t ht => withoutContext_tlb ht,
      fun k hk => withoutContext_keys hk, stopQueues_c ..⟩⟩
    exact congrArg (SMap.del · ctx.toNat) (stopQueues_ctxs ..)
  · intro m ctx s i op n e v k r job hr hnone hi
    obtain ⟨name, f, hexec, -, hf⟩ := exec_ctxCommand hi
    exact answers_of_serve hr _ rfl (hexec s) (hf s hnone)
  · exact fun m ctx n e s c hr hc => ⟨fun d hd => writeRangeEntry_refused hr hc hd, fun hok => writeRangeEntry_writes hr hc hok⟩
  · rintro m q e s k hr rfl
    refine ⟨writeQueueEntry_refused hr, fun hok => ⟨_, rewrittenQueue (queueAt s (qKey m.die.toNat q.toNat)) e,
      writeQueueEntry_writes hr hok, (SMap.get?_put ..).trans (if_pos rfl), rewrittenQueue_e .., ?_, ?_, rfl⟩⟩
    · intro y hy
      rw [show queueAt s (qKey m.die.toNat q.toNat) = some y from hy]; rfl
    · exact fun j hj => (SMap.get?_put ..).trans (if_neg hj)
  · rintro m q s k x hr rfl hq
    refine ⟨fun hen hdis => ⟨_, enableQueue_enables hr hq hen hdis, queueAt_onQueue_same hq⟩, enableQueue_refused hr hq,
      disableQueue_refused hr hq, fun hen hdone hidle => ⟨_, disableQueue_disables hr hq hen hdone hidle, outOfService_leaves ..⟩⟩
  · intro m ctx va base pa s c bs hr hpa hfree hbase hc hsrc
    exact ⟨fun d hd => admitImage_refused hr hpa hfree hc hbase hsrc hd,
      fun p href hparts => execAdmitImage_installs hr hpa hfree hc hbase hsrc href hparts⟩
  · intro m ctx v s c hr hc
    refine ⟨fun hbad => writeFmask_answer hr hc ?_, fun hok hruns => writeFmask_answer hr hc ?_, fun hok hruns => writeFmask_answer hr hc ?_,
      readClearMaskedCounter_clears hr hc⟩
    · rw [hbad]; rfl
    · rw [hok, hruns]; rfl
    · rw [hok, hruns]; rfl
  · intro m tenant pa size hdm w s hr hw
    refine ⟨fun hpa howned hlocked hmaps => openHostWindow_answer hr hw ?_, fun hbad => openHostWindow_answer hr hw ?_⟩
    · rw [hpa, howned, hlocked, hmaps]; rfl
    · exact if_pos (by simpa [or_assoc] using hbad)
  · exact fun m w x s hr hx => closeHostWindow_closes hr hx
  · intro m ctx k r job s c hr hc
    refine ⟨writeHostRange_writes hr hc k r, fun ⟨x, hx, hne, hjob⟩ => bindContextJob_answer hr hc (if_pos ?_),
      fun hfree => bindContextJob_answer hr hc (if_neg ?_)⟩
    · exact List.any_eq_true.mpr ⟨x, hx, by simp [hne, hjob]⟩
    · simpa using hfree
  · exact fun m ctx id entry s c h hr hc hlen hopen hh => writeCollectiveGroup_writes hr hc hlen hopen hh
  · exact fun m ctx nonce first s c hr hc hlen => requestPostmark_answers hr hc hlen first
  · exact fun m w s hr => ⟨setPowerLimit_sets hr, setPowerLimit_refused hr⟩
  · intro m st s hr
    refine ⟨fun h => h ▸ setPowerState_off hr, ?_, ?_⟩
    · rintro (rfl | ⟨rfl, hnone⟩)
      · exact setPowerState_answer hr (by decide) rfl
      · refine setPowerState_answer hr (by decide) ((if_neg (by decide)).trans (if_neg ?_))
        simpa using hnone
    · rintro rfl hsome
      refine setPowerState_answer hr (by decide) ((if_neg (by decide)).trans (if_pos ⟨rfl, ?_⟩))
      simpa using hsome
  · exact fun m im r s hr h => readHealthLog_reads hr h
  · exact fun m op s hr h => unknownOpcode_answers hr h
  · intro m ctx s i op n e v k r job hlink hpower hrun hi
    obtain ⟨name, f, hexec, hop, -⟩ := exec_ctxCommand hi
    exact ⟨fun hbusy => (hexec s).trans (mailCall_busy name f hlink hpower hrun hbusy),
      fun hbusy hrec => (hexec s).trans (mailCall_recovery name f hlink hpower hrun hbusy hrec hop)⟩
  · exact fun ctx im v s c hc hruns => apertureRegisterWrite_writes hc hruns im v
  · intro ctx lo hi s hown hsaved
    refine ⟨_, shootdown_drops hown hsaved, rfl, fun t => ?_⟩
    rw [List.mem_filter]
    simp only [Bool.or_eq_true, bne_iff_ne, decide_eq_true_eq, and_congr_right_iff]
    omega

end Sys2Proof.Machine
end
